-- ==== Sys2Proof/Word.lean ====
section
/-!
DEFINITION. The word types of the device: register words, stamps and bytes, and their plainest arithmetic
(00_scope.md R4, 02_timebase.md R36).
-/
namespace Sys2Proof

/-- A register word of the chain's map, 32 bits (00_scope.md, register conventions). -/
abbrev Word := BitVec 32

/-- A stamp or a value of the tick counter C: 64 bits, one tick is 1/16 DCLK (R4). -/
abbrev Stamp := BitVec 64

/-- One byte of a record or of a segment. -/
abbrev Byte := BitVec 8

/-- Ticks in one DCLK period (R4). -/
def ticksPerEdge : Nat := 16

end Sys2Proof
end

