-- ==== Sys2Proof/Machine/Data.lean ====
section
/-!
DEFINITION. The plain data the parts of the device hold: pins, ports, rings, records, Carillon sources, the pair,
monitors, contact units, auxiliary masters, power domains and the Almanac. No operation stands here. Every type is
comparable and printable. Instants counted in DCLK edges are `Nat` (edges since the PLL first locked); stamps are
`Stamp`; periods are `Nat` in units of 2^-16 tick (R87, R481).
-/
namespace Sys2Proof.Machine

/-- A sparse store by number: keys strictly rising, and no entry equal to the default of the store. -/
abbrev Sparse (α : Type) := List (Nat × α)

/-- The three-state sample of a window comparator (R72, R347); the code of ST_PINSTATk_SAMPLE (R343). -/
inductive Sample where
  | low | between | high
  deriving DecidableEq, Repr

/-- The function that holds a station pin (R331). -/
inductive Owner where
  | monitor | gpioIn | gpioOut | rx | tx | cts | rts | cu
  deriving DecidableEq, Repr

/-- The state of a pad (R335). -/
inductive Pad where
  | off | drive | hold | keep
  deriving DecidableEq, Repr

/-- One entry of an edge recorder: a transition to `high`, or a glitch that returned to `high`, with the pin-referred
stamps of its two threshold crossings and the DCLK edge whose sample completed it (R41, R72, R92). -/
structure PinEvent where
  high   : Bool
  glitch : Bool
  s1     : Stamp
  s2     : Stamp
  edge   : Nat
  /-- Transition instant at which the line entered the level it now leaves; `none` when it stands since the extractor
  first took it (R72, R74). -/
  prev   : Option Stamp := none
  deriving DecidableEq, Repr

/-- One station pin: edge extractor, edge recorder, pad and debounce filter (R72, R92, R335 to R346). -/
structure Pin where
  /-- Full level of the edge extractor; `none` before the first full level (R72). -/
  level    : Option Bool := none
  /-- The present three-state sample. -/
  sample   : Sample := .between
  /-- Instant of the last transition to high, and to low; `none` when the level stands since it was first taken. -/
  lastHigh : Option Stamp := none
  lastLow  : Option Stamp := none
  /-- Edge recorder, oldest first; the last `fresh` of them are not consumed by the port (R92). -/
  recorder : List PinEvent := []
  fresh    : Nat := 0
  /-- An entry was overwritten before it was consumed; transitions among those: count, first and last stamp (R92). -/
  isOver   : Bool := false
  lost     : Nat := 0
  lostFirst : Stamp := 0
  lostLast  : Stamp := 0
  /-- Samples at the edges where they changed, oldest first: the history the pre-trigger circle shows (R365). -/
  history  : List (Nat × Sample) := []
  /-- Owner, pad and driven level (R331, R335, R343). -/
  owner    : Owner := .monitor
  pad      : Pad := .off
  driven   : Option Bool := none
  /-- DCLK edge from which the present driven level stands (R344). -/
  drivenAt : Nat := 0
  /-- A change of owner waits for the end of the character in flight (R339). -/
  switchWaits : Bool := false
  /-- Switch edge W of a change whose first level is still to come (R340). -/
  switchAt : Option Nat := none
  /-- A ST_PINCFGk write that waits for the character in flight (R338). -/
  cfgWaits : Option Word := none
  /-- ST_PINCFGk as in force at the pad (R338, R435). -/
  cfgNow   : Word := 0
  /-- Debounced levels behind ST_GPIN (R346) and behind the station source (R273). -/
  gpin     : Bool := false
  srcIn    : Bool := false
  deriving DecidableEq, Repr

/-! ### Receive -/

/-- The palette settings in force for one direction of a port, from a boundary on (R69, R162, R224). -/
structure Settings where
  pal    : Nat := 0
  gen    : BitVec 16 := 0
  period : Word := 0x00064000#32
  frame  : Word := 0x00000008#32
  acq    : Word := 0x00040000#32
  link   : Word := 0
  deriving DecidableEq, Repr

/-- The receive states of R96. -/
inductive RxState where
  | off | starved | acq | track | reacq | edgeOnly | held
  deriving DecidableEq, Repr

/-- A received character: its R42 stamp, the instant and end of its frame, data and flags. -/
structure Chr where
  stamp : Stamp
  t0    : Stamp
  /-- Stamp at which its last stop-bit centre lies (R157). -/
  centre : Stamp
  data  : BitVec 9
  fe    : Bool := false
  pe    : Bool := false
  noise : Bool := false
  /-- Largest |e_k| of the character as misfit F and whether it exceeds 0.25 bit (R79, R85). -/
  misfit : Nat := 0
  wide  : Bool := false
  /-- Since when the line was at mark before the start; `none` when since its level was first taken (R150). -/
  markFrom : Option Stamp := none
  deriving DecidableEq, Repr

/-- The character a decoder has begun: its start, what the line did since, and whether it is held as a possible
break (R74, R77). -/
structure Frame where
  t0    : Stamp
  stamp : Stamp
  evs   : List PinEvent := []
  held  : Bool := false
  markFrom : Option Stamp := none
  deriving DecidableEq, Repr

/-- One decoder: a sketch lane, or the tracker (R78 to R81, R87). -/
structure Decoder where
  period : Nat := 0
  /-- A lane that has not refined its period: |x_i| of its hypothesis in hundredths times L (R78, R82). -/
  start  : Option Nat := none
  run    : Nat := 0
  m      : Nat := 0
  /-- The last stop-bit check found mark, so that the next transition to space starts a character (R74). -/
  sawMark : Bool := false
  cur    : Option Frame := none
  /-- Every character this lane decoded since the acquisition began, oldest first (R85). -/
  done   : List Chr := []
  deriving DecidableEq, Repr

/-- A decision of R84: its start transition and its contenders. -/
structure Decision where
  t0 : Stamp
  contenders : List Nat
  deriving DecidableEq, Repr

/-- A character shown provisionally (R106): serial, the character, its provisional partner, and the early-view rings that
received its PROV record. -/
structure Shown where
  serial  : Word
  chr     : Chr
  partner : Option Nat
  rings   : List Nat := []
  deriving DecidableEq, Repr

/-- An acquisition in progress (R78 to R86, R106, R108). -/
structure Acquisition where
  lanes    : List Decoder := []
  leader   : Nat := 0
  /-- Instant of the start of the last character offered (R83). -/
  lastOffer : Option Stamp := none
  /-- Distinct start transitions accepted by a lane, oldest first, and the edge at which the last was accepted (R86). -/
  starts   : List Stamp := []
  startAt  : Nat := 0
  decision : Option Decision := none
  shown    : List Shown := []
  /-- The provisional copy of the partner filter: selection, and end of the last frame it saw (R108). -/
  provSel  : Option Nat := none
  provEnd  : Option Stamp := none
  /-- DCLK edge at which the acquisition began. -/
  began    : Nat := 0
  deriving DecidableEq, Repr

/-- The running sums of the frequency meter (R91). -/
structure Meter where
  sumD  : Nat := 0
  sumN  : Nat := 0
  edges : Nat := 0
  last  : Stamp := 0
  /-- A stop-bit check has brought the gate to PT_FMGATE: it closes at that edge. -/
  full  : Bool := false
  deriving DecidableEq, Repr

/-- A result set of the frequency meter (R91): the result registers and their holding copy (R99). -/
structure MeterResult where
  period : Nat := 0
  ppm    : Word := 0
  edges  : Nat := 0
  stamp  : Stamp := 0
  seq    : BitVec 16 := 0
  deriving DecidableEq, Repr

/-! ### Records and receive entries -/

/-- TYPE codes of records (R180). -/
inductive RecType where
  | chr | varnish | pentimento | brk | edge | overflow | profile | meter | txdesc | txdone | txecho | cue | event
  | breach | gap | capture | almanac
  deriving DecidableEq, Repr

/-- A character inside a character record: data, stamp. -/
structure RecChar where
  data  : BitVec 9
  stamp : Stamp
  deriving DecidableEq, Repr

/-- The body of a record: characters in one of the two formats (R183, R184), or bytes 16 to 63 as written. -/
inductive RecBody where
  | chars (compact : Bool) (cflags : BitVec 16) (cs : List RecChar)
  | raw (bytes : List Byte)
  deriving DecidableEq, Repr

/-- A record of a ring, built in staging (R178, R200). -/
structure Rec where
  uid     : Nat
  ring    : Nat
  type    : RecType
  port    : Nat := 0
  /-- PARTNER field, 0 to 3 (R178). -/
  partner : Nat := 3
  seq     : Word := 0
  base    : Stamp
  body    : RecBody
  prov    : Bool := false
  lane    : Nat := 0
  err     : Bool := false
  late    : Bool := false
  breach  : Bool := false
  /-- Still being filled (R186). -/
  isOpen  : Bool := false
  /-- DCLK edge of confirmation of its first entry (R197), or of its offer (R199). -/
  since   : Nat := 0
  eligible : Bool := false
  /-- Edge at which it became eligible (R233). -/
  eligAt  : Nat := 0
  /-- Slot count at which it was issued (R174, R217); `none` until its write is issued. -/
  slot    : Option Word := none
  /-- The source was raised for it while it could not be written (R206). -/
  counted : Bool := false
  /-- Must be written again (R218). -/
  rewrite : Bool := false
  /-- Counted events that this record carries (R216). -/
  events  : List Nat := []
  /-- Order of confirmation (R195). -/
  order   : Nat := 0
  /-- Its last record mark waits for the shadow's acknowledgement, and the last decision block of its port that describes it:
  both keep it open (R246). -/
  marked  : Bool := false
  blocks  : Nat := 0
  /-- A record of the primary that a shadow holds for a takeover (R246, R263). -/
  held    : Bool := false
  /-- A completion: the submission ring of its descriptor and the transmit space its data take until it is written (R147). -/
  desc    : Option (Nat × Nat) := none
  deriving DecidableEq, Repr

/-- A confirmed receive entry in a port's receive space (R146): a character with the ring of its stream at confirmation
(R153), a varnished character, whose record is its Varnish (R111, R116), or a port-level record body that goes to each of the
rings named. -/
inductive EntryKind where
  | chr (c : Chr) (partner ring : Nat) (seq : Word) (cflags : BitVec 16) (compact : Bool)
  | varnished
  | port (type : RecType) (partnerAll : Bool) (bodies : List (Nat × Nat × Word × List Byte))
  deriving DecidableEq, Repr

/-- A confirmed receive entry: uid of its event (R216), streams it belongs to (R234), base stamp, confirmation edge, space
taken. -/
structure Entry where
  uid   : Nat
  kind  : EntryKind
  streams : List Nat := []
  base  : Stamp
  since : Nat
  space : Nat
  /-- Order of confirmation (R195). -/
  order : Nat := 0
  /-- Already built into staging; the space is freed when its records are written (R146). -/
  built : Bool := false
  /-- The last decision block of the port that describes it (R246). -/
  blocks : Nat := 0
  deriving DecidableEq, Repr

/-- A loss interval of one stream (R234, R236). -/
structure Loss where
  chars  : Nat := 0
  others : Nat := 0
  /-- Entries that PT_RXLOST counts with this interval: an entry lost in several rings counts once (R149). -/
  counted : Nat := 0
  first  : Stamp := 0
  last   : Stamp := 0
  seq    : Word := 0
  opened : Nat := 0
  deriving DecidableEq, Repr

/-- A GAP record that waits for the GAP place of its ring (R236). -/
structure GapWait where
  ring    : Nat
  port    : Nat
  partner : Nat
  loss    : Loss
  isOpen  : Bool
  cause   : Nat
  /-- Order of confirmation at its close: entries of the stream confirmed later wait for it (R195, R236). -/
  order   : Nat := 0
  deriving DecidableEq, Repr

/-- How a commit-gated field moves (R216): it counts and wraps, counts and saturates, or takes a value. -/
inductive Move where
  | wrap | sat | set
  deriving DecidableEq, Repr

/-- A counter move that waits until its events are committed (R216): the field by word, low bit and width, the instance, the
amount or value, and the events whose records are still uncommitted; `own` when those records are its own event's. -/
structure Gated where
  word  : Nat
  lo    : Nat
  width : Nat
  inst  : Nat
  move  : Move
  amount : Nat
  waits : List Nat
  own   : Bool := true
  deriving DecidableEq, Repr

/-! ### Transmit, flow control, Cue -/

/-- The transmit states of R140. -/
inductive TxState where
  | off | starved | idle | wait | send | flow | held
  deriving DecidableEq, Repr

/-- A fetched transmit descriptor (R128). -/
structure Desc where
  ring    : Nat
  slot    : Word
  /-- Place in the order of fetching of its ring (R131, R208). -/
  num     : Word := 0
  port    : Nat
  partner : Nat
  tag     : Word
  timed   : Bool
  addr    : Bool
  launch  : Stamp
  bufaddr : BitVec 64
  len     : Nat
  gap     : Nat
  /-- The data, once they lie in the transmit space (R147). -/
  data    : Option (List Byte) := none
  deriving DecidableEq, Repr

/-- A Cue reply (R158 to R161): its rule, data bytes, whether an address character leads, and the match it answers. -/
structure Reply where
  rule    : Nat
  bytes   : List Byte
  addr    : Bool := false
  /-- The partner that its address character names. -/
  to_     : Nat := 0
  matched : Chr
  partner : Nat
  seq     : Word
  late    : Bool
  /-- Earliest start edge (R160). -/
  notBefore : Nat
  /-- Event of its CUE record, and the port's events that were uncommitted at the match (R216). -/
  uid     : Nat
  before  : List Nat := []
  heldByFlow : Bool := false
  deriving DecidableEq, Repr

/-- What the transmitter is sending: a descriptor or a Cue reply (R132, R159). -/
inductive TxJob where
  | desc (d : Desc)
  | reply (r : Reply)
  deriving DecidableEq, Repr

/-- The device's own flow character in flight (R144): XOFF or XON, its value, commanded start and end, bit period. -/
structure FlowFlight where
  xoff  : Bool
  value : BitVec 9
  start : Stamp
  end_  : Stamp
  bit   : Nat
  deriving DecidableEq, Repr

/-- The job in progress: data bytes its characters have taken, characters sent whole, the first commanded and observed start,
the start and end of the character in flight, and flags of its completion (R129, R133, R137, R161). -/
structure Sending where
  job     : TxJob
  /-- Data bytes taken by the characters begun, and by those before the character in flight. -/
  used    : Nat := 0
  usedBefore : Nat := 0
  sent    : Nat := 0
  first   : Option Stamp := none
  observed : Option Stamp := none
  /-- The character in flight: its value, commanded start and end; `none` between characters. -/
  flight  : Option (BitVec 9 × Stamp × Stamp) := none
  /-- Bit period P_tx of the character in flight, and its observed start (R133, R139). -/
  bit     : Nat := 0
  seen    : Option Stamp := none
  lastEnd : Stamp := 0
  profile : Bool := false
  heldByFlow : Bool := false
  deriving DecidableEq, Repr

/-- What a transmitter starts next: nothing, its flow character, the next character of the job in progress, the waiting
reply, or the untimed descriptor at the head (R132, R140, R144, R159). -/
inductive NextStart where
  | none | flow (xoff : Bool) | next | reply (r : Reply) | desc (d : Desc)
  deriving DecidableEq, Repr

/-- A start edge that is committed while the character before it is still on the line (R22, R133, R134): what starts, its
launch stamp, the bit period at its commit, and whether a palette change waited at its commit (R162). -/
structure Ahead where
  what  : NextStart
  start : Stamp
  bit   : Nat
  pal   : Bool
  deriving DecidableEq, Repr

/-- A session element (R453). -/
structure Element where
  partner : Nat
  flags   : BitVec 8
  data    : BitVec 9
  seq     : Word
  stamp   : Stamp
  deriving DecidableEq, Repr

/-- One entry a decision block covers (R243): its kind (1 character, 2 break, 3 edge, 4 overflow, 5 Cue match, 6 transmit
observation), data, flags, and every stamp its records hold. -/
structure BlockEntry where
  kind   : Nat
  data   : Word
  flags  : BitVec 8
  stamps : List Stamp
  deriving DecidableEq, Repr

/-- What settles a shown list at a win (R110 to R112): lane, its period, win stamp, base stamp, first serial, characters
varnished, what was shown, and the partners of the winner's characters behind the varnished ones. -/
structure Settlement where
  lane   : Nat
  period : Nat
  stamp  : Stamp
  base   : Stamp
  first  : Word
  agreed : Nat
  shown  : List Shown
  behind : List (Option Nat)
  deriving DecidableEq, Repr

/-- What a shadow has of its own and no decision block has covered yet (R245): an entry it decoded or observed; a character
with the settings and period that framed it, and whether a win confirms it; or an event of the primary that settles once all
before it is decided: a win, an ending with its reason, base and event stamps, a receive boundary with its settings and whether
it clears the selection. -/
inductive Own where
  | entry (e : BlockEntry)
  | chr (c : Chr) (set : Settings) (period : Nat) (win : Bool)
  | win (w : Settlement)
  | ended (reason : Nat) (base stamp : Stamp) (shown : List Shown)
  | profile (set : Settings) (clear : Bool) (stamp : Stamp)
  deriving DecidableEq, Repr

/-- One port: receive, provisional layer, buffers, partners, Cue windows, transmitter, session. -/
structure Port where
  rx       : RxState := .off
  /-- The state held while HELD (R93). -/
  rxHeld   : RxState := .off
  /-- A REACQ written in HELD (R90). -/
  reacqHeld : Bool := false
  /-- Replaying the edge recorder, and the edge at which the replay passed the last entry (R93). -/
  replay   : Bool := false
  replayEnd : Option Nat := none
  set      : Settings := {}
  /-- The last boundary and the settings before it, in force for a character whose start lies before it (R69). -/
  setOld   : Option (Stamp × Settings) := none
  palWaits : Bool := false
  acq      : Option Acquisition := none
  trk      : Decoder := {}
  /-- Consecutive characters with FE (R89). -/
  feRun    : Nat := 0
  /-- A break has been decided and its return to mark is still to come: start instant and stamp (R76). -/
  breaking : Option (Stamp × Stamp) := none
  meter    : Meter := {}
  result   : MeterResult := {}
  holding  : MeterResult := {}
  winner   : Nat := 0
  /-- End of the frame of the last confirmed character; `none` after enable or a break (R150). -/
  lastFrameEnd : Option Stamp := none
  /-- Provisional serial counter (R104). -/
  serial   : Word := 0
  /-- Confirmed partner selection; `none` reads 7 (R151). -/
  sel      : Option Nat := none
  /-- Next sequence number of each partner's stream (R113). -/
  seq0 : Word := 0
  seq1 : Word := 0
  seq2 : Word := 0
  seq3 : Word := 0
  entries  : List Entry := []
  /-- Loss intervals open, by partner (R234). -/
  losses   : Sparse Loss := []
  /-- The receive side's present flow decision: stopped (R143). -/
  stopped  : Bool := false
  /-- The free receive space fell to PT_FCTHR_OFF and has not risen to PT_FCTHR_ON since (R229). -/
  pressure : Bool := false
  /-- Receive entries confirmed since the last XOFF while the space stays low (R144). -/
  sinceXoff : Nat := 0
  xoffRx   : Bool := false
  xoffTx   : Bool := false
  rts      : Bool := false
  /-- Flow characters due, oldest first: `true` XOFF, `false` XON (R144). -/
  flowDue  : List Bool := []
  tx       : TxState := .off
  txSet    : Settings := {}
  /-- The settings of the character on the line (R162). -/
  lineSet  : Settings := {}
  txPalWaits : Bool := false
  queue    : List Desc := []
  sending  : Option Sending := none
  flowFlight : Option FlowFlight := none
  /-- The start committed for the end of the character in flight (R22, R134). -/
  ahead    : Option Ahead := none
  /-- Start and end of every character sent, oldest first (R136). -/
  spans    : List (Stamp × Stamp) := []
  replies  : List Reply := []
  /-- Commit edge and tap of a timed launch that the port waits for (R135). -/
  launchAt : Option (Nat × Nat) := none
  /-- The timed launch is decided and waits for the character in flight to end (R135). -/
  launchOk : Bool := false
  /-- Commanded end of the last character sent (R134). -/
  lastSent : Option Stamp := none
  /-- The line is driven mark from this edge on (R160). -/
  markFrom : Nat := 0
  /-- Earliest start after a takeover (R261). -/
  waitUntil : Option Stamp := none
  /-- Stop after the character in flight, with this TXDONE status (R140). -/
  stopAfter : Option Nat := none
  /-- Cue windows of rules 0 to 7, oldest character first (R155). -/
  windows  : Sparse (List (BitVec 9)) := []
  /-- Session number, whether one is open, and its elements since the last SESSION entry (R453, R454). -/
  session  : Nat := 0
  sessionOpen : Bool := false
  elements : List Element := []
  /-- Entries of decision blocks that are not closed, each with its edge (R243); how many blocks have been closed since E_g,
  how many of them the shadow has acknowledged, and the entries of the others, oldest first (R245, R246). -/
  block    : List (Nat × BlockEntry) := []
  blockNo  : Nat := 0
  blockAck : Nat := 0
  sent     : List (List BlockEntry) := []
  /-- In a shadow: what no decision block has covered yet, oldest first, and the Cue matches of characters decided (R243, R245). -/
  own      : List Own := []
  matched  : List BlockEntry := []
  /-- Entries of a block that disagreed while its transfer has not ended; blocks received since, with their CRCs (R245). -/
  transfer : Nat := 0
  later    : List (List (List Stamp) × BitVec 32) := []
  /-- Characters of the last win still to be confirmed as varnished, and the event of their Varnish (R111, R116). -/
  varnishing : Nat × Option Nat := (0, none)
  /-- The shown list of an acquisition that this shadow has given up before the primary's ending reached it (R248). -/
  ending   : List Shown := []
  /-- RXPER holding register, bits [47:32] (R99). -/
  perHold  : BitVec 16 := 0
  deriving DecidableEq, Repr

/-! ### Rings and the link -/

/-- The states of a ring (R177). -/
inductive RingState where
  | off | active | draining | fault
  deriving DecidableEq, Repr

/-- A breach or fairness interval (R231, R233); `to_` is the stamp of the last record written in it. -/
structure Breach where
  start   : Nat
  from_   : Stamp
  to_     : Stamp := 0
  cause   : Nat
  cring   : Nat
  portv   : Bool
  port    : Nat
  cstamp  : Stamp
  records : Nat := 0
  worst   : Nat := 0
  deriving DecidableEq, Repr

/-- One ring. The committed counts are registers; here stand the issued count and the intervals. -/
structure Ring where
  state    : RingState := .off
  /-- Host count RG_HOST (R174). -/
  host     : Word := 0
  /-- Issued count I of a completion or event ring; fetched count of a submission ring (R174, R217). -/
  issued   : Word := 0
  /-- Horizon point: never moves backward (R194). -/
  hp       : Option Stamp := none
  breach   : Option Breach := none
  /-- Edge from which the ring has held an eligible, writable record without a write (R233), and the deficit of R198. -/
  readyFrom : Option Nat := none
  deficit  : Nat := 0
  /-- After a takeover that was not engaged nothing is written to the ring until it has been enabled again (R264). -/
  mute     : Bool := false
  /-- Records of type EVENT, BREACH and CAPTURE issued to the ring since ACTIVE (R182, R370). -/
  nEvent   : Word := 0
  nBreach  : Word := 0
  nCapture : Word := 0
  /-- A loss interval of event staging (R201). -/
  loss     : Option Loss := none
  deriving DecidableEq, Repr

/-- Link power states as RG_LINK_PM codes them (R211). -/
inductive LinkPm where
  | l0 | l1 | l2 | down
  deriving DecidableEq, Repr

/-- The PCI Express link and the configuration space the rules use (R166 to R168, R206, R211, R482). -/
structure Link where
  pm       : LinkPm := .down
  speed    : BitVec 4 := 0
  width    : BitVec 6 := 0
  flit     : Bool := false
  /-- PERST# is asserted (R417, R441). -/
  perst    : Bool := true
  bme      : Bool := false
  msixEn   : Bool := false
  funcMask : Bool := false
  d3hot    : Bool := false
  pmeEn    : Bool := false
  aspmL1   : Bool := false
  /-- ECRC generation and check, as the host enables them (R166). -/
  ecrcGen  : Bool := false
  ecrcCheck : Bool := false
  /-- Max Payload Size and Max Read Request Size, bytes. -/
  mps      : Nat := 128
  mrrs     : Nat := 512
  /-- BAR0 and BAR2. -/
  bar0     : BitVec 64 := 0
  bar2     : BitVec 64 := 0
  /-- Edge from which no request has been pending (R205). -/
  idleFrom : Nat := 0
  /-- Edge at which the present sleep condition began (R286, R287). -/
  sleepAt  : Option Nat := none
  /-- WAKE# is asserted, and PME_Status (R287). -/
  wakeOut  : Bool := false
  pmeOut   : Bool := false
  /-- Records that waited for the end of a sleep condition: they leave before messages do (R206). -/
  waiting  : List Nat := []
  /-- Ring that received the last posted write (R215, R232). -/
  lastRing : Option Nat := none
  deriving DecidableEq, Repr

/-- A flush read in flight (R215): its edge and the records it commits. -/
structure Flush where
  at_  : Nat
  recs : List Nat
  deriving DecidableEq, Repr

/-- A mailbox write with its MSI-X message, waiting for the link (R283, R284). -/
structure Msg where
  target : Nat
  slot   : Nat
  source : Nat
  bytes  : List Byte
  /-- Records that must be issued before it (R204). -/
  after  : List Nat
  /-- DCLK edge of the decision (R285). -/
  edge   : Nat := 0
  deriving DecidableEq, Repr

/-! ### Carillon -/

/-- The states of a source (R277). -/
inductive SrcState where
  | idle | hold | pend | active
  deriving DecidableEq, Repr

/-- One interrupt source (R274 to R277). -/
structure Src where
  state : SrcState := .idle
  held  : Nat := 0
  /-- DCLK edge of the first held event (R274). -/
  timer : Option Nat := none
  mark  : Bool := false
  cut   : Bool := false
  stamp : Stamp := 0
  /-- Level input asserted, and the stamp of the assertion in force (R277). -/
  input : Bool := false
  inputStamp : Stamp := 0
  /-- Records whose events are held (R204, R282). -/
  recs  : List Nat := []
  deriving DecidableEq, Repr

/-- One entry of a running-priority stack (R278, R283). -/
structure StackEntry where
  source : Nat
  prio   : Nat
  slot   : Option Nat
  deriving DecidableEq, Repr

/-- One target (R278 to R284): its stack, bottom first, and the last source claimed or decided. -/
structure Tgt where
  stack : List StackEntry := []
  last  : Nat := 0
  deriving DecidableEq, Repr

/-! ### Stations: level groups -/

/-- A span with the codes of the four DACs of a level group (R347, R348). -/
structure Levels where
  span : BitVec 2 := 1
  voh  : BitVec 14 := 0
  vol  : BitVec 14 := 0
  vthh : BitVec 14 := 0x2000
  vthl : BitVec 14 := 0x2000
  deriving DecidableEq, Repr

/-- The DACs of a level group and its span change (R347 to R353), and its safe values, fused or from the image (R28, R354). -/
structure Group where
  safe : Levels := {}
  span : BitVec 2 := 1
  voh  : BitVec 14 := 0
  vol  : BitVec 14 := 0
  vthh : BitVec 14 := 0x2000
  vthl : BitVec 14 := 0x2000
  /-- Acceptance edge A of the span change in progress (R352), and the step reached. -/
  busyAt : Option Nat := none
  step : Nat := 0
  /-- Samplers frozen (R353). -/
  frozen : Bool := false
  deriving DecidableEq, Repr

/-! ### Line monitor -/

/-- The states of a monitor (R362). -/
inductive MonState where
  | off | arming | armed | capture | rearm | done
  deriving DecidableEq, Repr

/-- A trigger (R359, R360): edge, stamp, named cause, mask and measured quantity. -/
structure Trigger where
  pin    : Nat
  edge   : Nat
  stamp  : Stamp
  cause  : Nat
  mask   : BitVec 8
  detail : Word
  deriving DecidableEq, Repr

/-- An admitted capture or a segment in the Canvas (R365, R367, R369). -/
structure Segment where
  trig    : Trigger
  index   : Nat
  rate    : Nat
  preA    : Nat
  post    : Nat
  lmPre   : Nat
  log2    : Nat
  grid    : Nat
  pseq    : Word
  first   : Stamp
  /-- Samples from this edge on read 3 (R371). -/
  cutAt   : Option Nat := none
  /-- The samples, once the segment is complete. -/
  samples : Option (List (BitVec 2)) := none
  /-- Extent in the upload area: offset and bytes skipped before it (R369). -/
  extent  : Option (Nat × Nat) := none
  /-- Event of its upload writes (R216), once they are issued. -/
  upload  : Option Nat := none
  written : Bool := false
  deriving DecidableEq, Repr

/-- Space of the upload area in use (R369): bytes with those skipped before them, the CAPTURE record once it is formed, and
its slot once it is issued. -/
structure Extent where
  bytes : Nat
  owner : Nat × Word
  record : Option Nat := none
  slot  : Option Word := none
  deriving DecidableEq, Repr

/-- One line monitor (R359 to R366). -/
structure Monitor where
  state   : MonState := .off
  /-- Edge of the entry to ARMED: the grid starts there (R365). -/
  gridAt  : Nat := 0
  /-- Edge from which the TIMEOUT runs (R359), and whether it has run out since, outside ARMED. -/
  toFrom  : Nat := 0
  toOut   : Bool := false
  /-- Stamp of the entry to ARMED (R359). -/
  armedStamp : Stamp := 0
  rearmAt : Nat := 0
  disPend : Bool := false
  taken   : Nat := 0
  next    : Nat := 0
  pseq    : Word := 0
  /-- A trigger on its way to admission (R368). -/
  trig    : Option Trigger := none
  lastCause : Nat := 0
  lastStamp : Stamp := 0
  lastHold  : Word := 0
  deriving DecidableEq, Repr

/-! ### Contact units -/

/-- The states of a contact unit (R393). -/
inductive CuState where
  | off | open_ | closing | closed | ranging | fault | heldoff
  deriving DecidableEq, Repr

/-- What gave a unit's reference phase up to an edge: its source, FREQ, WCFG_LEN and WCFG_DIV (R388, R390, R391). -/
structure CuRef where
  till  : Nat := 0
  src   : BitVec 2 := 0
  theta : Word := 0
  wave  : Nat := 0
  srcAt : Nat := 0
  freq  : Nat := 0
  len   : Nat := 1
  div   : Nat := 1
  deriving DecidableEq, Repr

/-- One contact unit (R377 to R392). -/
structure Cu where
  state    : CuState := .off
  closed   : Bool := false
  /-- W of the attach, or D of the detach (R381, R382). -/
  swAt     : Nat := 0
  opening  : Bool := false
  /-- A of the range sequence, the step reached, and the settings to apply (R384). -/
  rangeAt  : Option Nat := none
  rangeStep : Nat := 0
  /-- Settings in force at the output: KIND, RANGE, SRC, code. -/
  kind     : Bool := false
  range    : BitVec 3 := 0
  src      : BitVec 2 := 0
  out      : BitVec 18 := 0x20000
  /-- Phase accumulator θ (R388), sample index of WAVE (R390), and the edges of their last updates. -/
  theta    : Word := 0
  wave     : Nat := 0
  srcAt    : Nat := 0
  /-- The phase step in force, 42,950 at reset (R388). -/
  freq     : Nat := 42950
  /-- Measurement running, and the edge it started at (R391). -/
  mrun     : Bool := false
  mAt      : Nat := 0
  /-- Reference phases that a write ended while the measurement runs, oldest first. -/
  past     : List CuRef := []
  mstamp   : Stamp := 0
  mstampHold : Stamp := 0
  /-- Waveform store (R390). -/
  store    : Sparse Nat := []
  /-- The safe value in force (R387): KIND, RANGE, SRC and LEVEL words. -/
  safeCfg  : Word := 0x00000400#32
  safeLevel : Word := 0x00020000#32
  deriving DecidableEq, Repr

/-! ### Auxiliary masters -/

/-- The states of an auxiliary master (R410). -/
inductive AxState where
  | off | idle | busy | held | boot
  deriving DecidableEq, Repr

/-- One auxiliary master (R395 to R401). -/
structure Aux where
  state  : AxState := .off
  /-- The transfer buffer, words 0 to 127. -/
  buf    : Sparse Word := []
  /-- Start edge S of the transfer, and the lead delay in force: none after HELD (R399, R400). -/
  startAt : Nat := 0
  lead   : Nat := 0
  /-- The select in use, and whether it is asserted. -/
  cs     : Nat := 0
  csOn   : Bool := false
  /-- The select is released at this edge (R399, R400). -/
  releaseAt : Option Nat := none
  /-- Earliest start edge of the next transfer (R399). -/
  freeAt : Nat := 0
  /-- Edge of the entry to HELD (R400). -/
  heldAt : Nat := 0
  /-- A START waits for the block load (R409). -/
  startWaits : Bool := false
  /-- The last bit sent, which MOSI shows until the select is released (R399). -/
  lastBit : Bool := false
  deriving DecidableEq, Repr

/-- The flash reader of AUX0 (R405 to R408). -/
structure Flash where
  /-- Block held or being loaded: its address; `none` when discarded. -/
  block  : Option Nat := none
  words  : List Word := []
  busy   : Bool := false
  /-- Edge at which the last bit of the block arrives (R399, R406). -/
  doneAt : Nat := 0
  /-- A load waits until AUX0 is IDLE (R409). -/
  waits  : Bool := false
  /-- CS0 is held in continuous read, from this edge (R408). -/
  hold   : Bool := false
  holdAt : Nat := 0
  discovering : Bool := false
  deriving DecidableEq, Repr

/-! ### Boot -/

/-- The boot stages (R424); GESSO before G. -/
inductive Stage where
  | gesso | load | loaded | wait | vern | ready
  deriving DecidableEq, Repr

/-- Contents of the fuse array that an uncorrectable row takes away (R414, R415). -/
inductive FuseContent where
  | paths | seeds | dacTrims | cuTrims | passAndSlew | pcie | serial | keys | safeValues | sineCrc | repair
  deriving DecidableEq, Repr

/-- Boot: stage, fuse failures, the load in progress and the instants of V and of each octant (R413 to R425). -/
structure Boot where
  stage   : Stage := .gesso
  /-- Edge at which the fuse read begins, and whether it has ended (R413). -/
  fuseAt  : Nat := 0
  fusesRead : Bool := false
  /-- Edge at which the image read begins (R420). -/
  readAt  : Nat := 0
  failed  : List FuseContent := []
  /-- The header, once it has passed its checks, and the whole image, once it has been read (R420, R421). -/
  header  : Option (List Byte) := none
  image   : Option (List Byte) := none
  fast    : Bool := false
  retried : Bool := false
  digestOk : Bool := false
  sigOk   : Bool := false
  /-- Edge V, and how many octants have taken their pins (R425). -/
  vAt     : Option Nat := none
  octTaken : Nat := 0
  /-- Gesso waits until the sensors cool (R474). -/
  hot     : Bool := false
  /-- A state digest runs for this CONFIG source, over the registers latched at the deciding edge (R449). -/
  digest  : Option (Nat × Sparse Word) := none
  /-- IMAGEID of the image applied (R427). -/
  imageId : BitVec 64 := 0
  deriving DecidableEq, Repr

/-- The clock (R19, R33): POR_N high, PLL locked since POR, PLL locked now, engines stopped by a loss of lock. -/
structure Clock where
  porN    : Bool := true
  locked  : Bool := false
  /-- The PLL has locked since POR. -/
  once    : Bool := false
  /-- A loss of lock has stopped the engines (R19). -/
  stopped : Bool := false
  deriving DecidableEq, Repr

/-! ### Chain -/

/-- Layout modes of the chain (R316, R329). -/
inductive ChMode where
  | full | selected | bypassed | broadcast
  deriving DecidableEq, Repr

/-- A response (R310): tag, status, opcode, data, further data words; the edge from which it is ready (R322). -/
structure Resp where
  tag    : BitVec 2
  status : BitVec 8
  op     : BitVec 4
  data   : Word
  more   : List Word := []
  readyAt : Nat := 0
  ready  : Bool := false
  deriving DecidableEq, Repr

/-- The chain port (R295 to R330). -/
structure Chain where
  assigned : Bool := false
  pos      : BitVec 6 := 0
  mode     : ChMode := .full
  target   : BitVec 8 := 0xFF
  /-- Slot length in force (R328), and values of CH_LEN, CH_NDEV, CH_FRMFULL that wait for the end of the following frame. -/
  len      : Nat := 0
  ndev     : Nat := 0
  frmfull  : Nat := 0
  lenNext  : Option (Nat × Nat × Nat) := none
  /-- Frames still to end before `lenNext` acts. -/
  lenWait  : Nat := 0
  inFrame  : Bool := false
  /-- Filtered CH_RSTN is low since this edge (R296). -/
  rstLow   : Option Nat := none
  /-- Edges counted in the frame (R297), and the bits of the stage, most significant first. -/
  edges    : Nat := 0
  stage    : List Bool := []
  /-- The first input bits of the frame after the position delay, for Broadcast (R303). -/
  input    : List Bool := []
  resp     : Option Resp := none
  /-- The response last shifted out (R322). -/
  prev     : Option Resp := none
  dout     : Bool := false
  /-- GL_ERRLOG as a whole, and its latched high half (R330). -/
  errlog   : BitVec 64 := 0
  errHold  : Word := 0
  deriving DecidableEq, Repr

/-! ### Timebase -/

/-- A sampled rising SYNC edge: DCLK edge N, tap u, C(N) (R45, R50). -/
structure SyncEdge where
  n : Nat
  u : Nat
  c : Stamp
  deriving DecidableEq, Repr

/-- A delay line the device calibrates (R39): of a pin's upper and lower comparator, of its driver, of SYNC_IN and SYNC_OUT. -/
inductive CalLine where
  | upper (q : Fin 4096) | lower (q : Fin 4096) | driver (q : Fin 4096) | syncIn | syncOut
  deriving DecidableEq, Repr

/-- The timebase beside C (R38 to R63). -/
structure Timebase where
  nowHold  : Word := 0
  syncLast : Stamp := 0
  syncHold : Word := 0
  /-- Level of SYNC_IN, and the instant of its last sampled change, or of its first sample: 16 * edge + tap. -/
  syncIn   : Bool := false
  syncAt   : Nat := 0
  /-- Level last forwarded to SYNC_OUT, and whether the last change of SYNC_IN is the one that was forwarded (R44). -/
  syncOut  : Bool := false
  syncSent : Bool := false
  /-- The rising edge that is being qualified (R45). -/
  syncEdge : Option SyncEdge := none
  /-- Edge at which the arm was applied, and the qualified edge the Solstice is committed on (R50). -/
  armedAt  : Option Nat := none
  commit   : Option SyncEdge := none
  /-- Edge at which a measurement of the delay lines began (R39). -/
  calAt    : Option Nat := none
  /-- SYNC lines on their seed tables since Gesso (R39, R40). -/
  calSync  : Nat := 0
  /-- The window of shared edges being filled (R53): edges, and the sum of the shadow's stamps without the offset less the
  primary's; and the sums of windows that have closed. -/
  pairEdges : Nat := 0
  pairSum  : Int := 0
  pairWindows : List Int := []
  /-- TB_PAIROFS_OFS is frozen by a takeover until the next Solstice (R54). -/
  pairFrozen : Bool := false
  /-- The snapshot bank (R56): what RO and W1C fields read, by instance * 4096 + word; 0 where nothing is listed. -/
  snap     : Sparse Word := []
  /-- The shadow's own latch waits for the primary's values (R226). -/
  frWaits  : Bool := false
  deriving DecidableEq, Repr

/-! ### Almanac -/

/-- A formed Almanac entry (R447, R448): INDEX, STAMP, kind, NREC, port, its bytes, and how far it has gone. -/
structure AlEntry where
  index : Nat
  stamp : Stamp
  kind  : Nat
  nrec  : Nat
  port  : Nat
  /-- Edge of its formation, from which its latency runs (R197). -/
  since : Nat := 0
  bytes : List Byte
  /-- PREV stands, and a CHECKPOINT is signed (R456). -/
  ready : Bool := false
  signed : Bool := false
  /-- The event its records carry, once they are in staging (R216). -/
  built : Option Nat := none
  deriving DecidableEq, Repr

/-- The saved head of a suspended chain (R457, R459): INDEX, hash, CPCOUNT, first INDEX after the last CHECKPOINT, edge of
the last cut, the entries of its own that wait, its halt and the LAPSE it still owes. -/
structure SavedHead where
  index   : Nat
  hash    : List Byte
  cpcount : Nat
  cpFrom  : Nat
  cutAt   : Nat
  cutAsked : Bool := false
  queue   : List AlEntry
  halt    : Bool := false
  haltFrom : Stamp := 0
  haltTo  : Stamp := 0
  haltCount : Nat := 0
  lapseDue : Option (Nat × Nat × Stamp × Stamp × Nat) := none
  deriving DecidableEq, Repr

/-- The Almanac head and queue (R451 to R459). -/
structure Almanac where
  /-- INDEX of the next entry, and the hash of the last complete one. -/
  index   : Nat := 0
  hash    : List Byte := List.replicate 32 0
  cpcount : Nat := 0
  /-- First INDEX after the previous CHECKPOINT. -/
  cpFrom  : Nat := 0
  /-- Edge of the previous cut or of GENESIS. -/
  cutAt   : Nat := 0
  cutAsked : Bool := false
  queue   : List AlEntry := []
  halt    : Bool := false
  haltFrom : Stamp := 0
  haltTo  : Stamp := 0
  haltCount : Nat := 0
  /-- Own head and queue saved while suspended (R457). -/
  saved   : Option SavedHead := none
  /-- A LAPSE RESET is due: entries discarded, first INDEX, FROMSTAMP, TOSTAMP, SESSCUT (R459). -/
  lapseDue : Option (Nat × Nat × Stamp × Stamp × Nat) := none
  committed : Nat := 0
  cmtHold : Word := 0
  headCommitted : List Byte := List.replicate 32 0
  deriving DecidableEq, Repr

/-! ### Pair -/

/-- Roles and straps (R240). -/
inductive Role where
  | solo | primary | shadow
  deriving DecidableEq, Repr

/-- The pair states (R241). -/
inductive PairState where
  | solo | disengaged | engaging | engaged | degraded | released | taken
  deriving DecidableEq, Repr

/-- A mirrored write that waits for the peer (R249), with the head of its slot and whether it is a single access (R309). -/
structure MirrorWait where
  head : BitVec 64 := 0
  single : Bool := true
  addr : BitVec 12
  inst : Nat
  data : List Word
  status : BitVec 4
  deriving DecidableEq, Repr

/-- What a member knows of its peer, from the heartbeats (R239, R251; log entry 36): pair state, role, epoch, whether
anything of it is enabled, chain position, and C less the own C at the receiving edge. -/
structure Peer where
  state : PairState := .solo
  role  : Role := .solo
  epoch : Bool := false
  busy  : Bool := false
  pos   : Option (BitVec 6) := none
  tofs  : Stamp := 0
  deriving DecidableEq, Repr

/-- The pair and the Hinge (R238 to R267). -/
structure Hinge where
  state    : PairState := .solo
  up       : Bool := false
  retrainAt : Option Nat := none
  lastSent : Nat := 0
  lastRecv : Nat := 0
  peer     : Peer := {}
  engagedAt : Nat := 0
  /-- HG_RELI reads released; first released sample: edge and stamp (R255, R258). -/
  reli     : Bool := true
  firstRel : Option (Nat × Stamp) := none
  /-- HG_RELO holds; the claim is held; octants whose drivers are enabled (R255). -/
  relo     : Bool := false
  claim    : Bool := false
  drivers  : Nat := 0
  blocked  : Bool := false
  /-- Drivers turned off at this edge; HG_RELO is released 64 DCLK later (R256). -/
  offAt    : Option Nat := none
  /-- Edge of the last release notice received (R258). -/
  noticeAt : Option Nat := none
  disStamp : Stamp := 0
  disHold  : Word := 0
  /-- First released sample of the last takeover: its edge and stamp (R258, R259). -/
  tkFrom   : Nat := 0
  tkStamp  : Stamp := 0
  tkHold   : Word := 0
  /-- The flush read behind the rewritten records of a takeover is still to be issued: later records wait (R263). -/
  flushFirst : Bool := false
  /-- A mirrored write that waits for the peer (R249). -/
  mirror   : Option MirrorWait := none
  /-- A write that the shadow forwarded while the primary's own waited: the primary's comes first (R249). -/
  mirrorLate : Option MirrorWait := none
  tkdeg    : Bool := false
  attnTk   : Bool := false
  /-- Segments occupied in the primary, by pin, as an engaged shadow knows them (R374). -/
  segs     : Sparse Nat := []
  /-- The primary's Almanac as the image gave it and the entries since, until ENGAGED (R252, R457). -/
  alImage  : Option Almanac := none
  /-- The shadow's own digest of SOURCE 3 (R449). -/
  ownDigest : Option (List Byte) := none
  deriving DecidableEq, Repr

/-! ### Power -/

/-- The states of a power domain (R430). -/
inductive DomState where
  | run | idle | nap | dark
  deriving DecidableEq, Repr

/-- The switched domains beside the octants (R429). -/
inductive Domain where
  | core | host | hinge | mem0 | mem1
  deriving DecidableEq, Repr

/-- One octant (R430 to R437). -/
structure Octant where
  state    : DomState := .run
  /-- Last activity, and entry into the present state (R431, R434). -/
  activeAt : Nat := 0
  since    : Nat := 0
  /-- Edge at which it last left RUN: what its pins recorded since is replayed at the wake (R273). -/
  leftAt   : Nat := 0
  /-- An entry under way into this state (R437). -/
  entering : Option DomState := none
  /-- A request for RUN: its edge and cause (R436, R445). -/
  wakeAt   : Option (Nat × Nat) := none
  /-- Pad hold engaged by R13 or R19. -/
  failed   : Bool := false
  deriving DecidableEq, Repr

/-- Codes of R430. -/
def DomState.code : DomState → Nat
  | .run => 0 | .idle => 1 | .nap => 2 | .dark => 3

/-- The states of the other switched domains. -/
structure Power where
  core  : DomState := .run
  host  : DomState := .run
  hinge : DomState := .run
  mem0  : DomState := .run
  mem1  : DomState := .run
  /-- The edges of the core's last return to RUN and of each stack's last access (R431). -/
  coreAt : Nat := 0
  mem0At : Nat := 0
  mem1At : Nat := 0
  /-- The edge of a request to a stack that is not in RUN (R431). -/
  wake0  : Option Nat := none
  wake1  : Option Nat := none
  deriving DecidableEq, Repr

/-! ### What the device puts out -/

/-- The image of R252: mirrored fields, rings, descriptors, Carillon state, monitors, staged records, the Almanac's head and
queue, and how far the numbers of events have come. -/
structure Image where
  regs    : Sparse Word := []
  rings   : Sparse Ring := []
  ports   : Sparse Port := []
  srcs    : Sparse Src := []
  tgts    : Sparse Tgt := []
  mons    : Sparse Monitor := []
  staging : List Rec := []
  almanac : Almanac := {}
  uids    : Nat := 0
  deriving DecidableEq, Repr

/-- What an event message of the primary names (R242, R248): a win with lane, stamp, seeded period, and what its Varnish needs
of the primary (base stamp, first serial, characters varnished); an acquisition that ended without one, with the reason of its
Pentimento, base stamp and stamp; a receive, or a transmit palette boundary. -/
inductive PeerEvent where
  | win (lane : Nat) (stamp : Stamp) (period : Nat) (base : Stamp) (first : Word) (agreed : Nat)
  | ended (reason : Nat) (base stamp : Stamp)
  | boundary (transmit : Bool) (stamp : Stamp)
  deriving DecidableEq, Repr

/-- What a full message of the primary holds (R242, R245): one record; the entries of a disagreeing block, as its records in full
give them; the receive state of a port, which ends the transfer. -/
inductive Full where
  | record (r : Rec)
  | entries (port : Fin 2048) (l : List BlockEntry)
  | port (p : Fin 2048) (port : Port)
  deriving DecidableEq, Repr

/-- What a shadow answers (R242, R245, R246): it holds the oldest decision block of a port that it has not acknowledged, or a
record by its number and COUNT; it requests the transfer of that block, or that record in full. `spoiled` is a Hinge frame of
any kind that arrives with a CRC error (R266). -/
inductive Answer where
  | block (port : Fin 2048)
  | mark (uid count : Nat)
  | request (port : Fin 2048)
  | record (uid : Nat)
  | spoiled
  deriving DecidableEq, Repr

/-- Messages a member hands to the Hinge (R242). A decision block gives the port, a list of the primary's stamps for each entry,
which the Hinge carries as stamp codes, and the CRC (R243); a record mark gives ring, COUNT and kind, and the record's number,
by which it is acknowledged. -/
inductive HingeMsg where
  | heartbeat (state : PairState) (role : Role) (c : Stamp) (epoch busy : Bool) (pos : Option (BitVec 6))
  | mirror (addr : BitVec 12) (inst : Nat) (data : List Word)
  | mirrorAck (status : BitVec 4)
  | engage (image : Image)
  | doorbell (ring : Nat) (value : Word)
  | descriptor (d : Desc)
  | block (port : Nat) (stamps : List (List Stamp)) (crc : BitVec 32)
  | mark (ring : Nat) (count : Nat) (type : RecType) (uid : Nat)
  | event (port : Nat) (e : PeerEvent)
  | prov (r : Rec) (serial : Word) (shown : List Shown)
  | commit (ring : Nat) (count : Word)
  | armState (pin : Nat) (state : MonState) (segment : Nat)
  | fresco (values : Sparse Word)
  | full (f : Full)
  | answer (a : Answer)
  | notice
  deriving DecidableEq, Repr

/-- What the device puts out, for the outside to take. -/
inductive Out where
  | write (addr : BitVec 64) (bytes : List Byte)
  | flushRead (addr : BitVec 64)
  | readReq (addr : BitVec 64) (bytes : Nat)
  | msix (addr : BitVec 64) (data : Word)
  | readData (ws : List Word)
  | cfgDone
  | pinLevel (q : Nat) (level : Option Bool) (at_ : Stamp)
  | syncOut (level : Bool) (delay : Nat)
  | hinge (m : HingeMsg)
  | pme
  | wakeN (asserted : Bool)
  | linkL1
  | linkL0
  | auxBegin (m cs len : Nat)
  | auxSelect (m cs : Nat) (on : Bool)
  | flashRead (addr : Nat) (resume : Bool)
  | discover
  | imageRead (half : Nat)
  | chRelease (low : Bool)
  deriving DecidableEq, Repr

/-! ### Operands of commands -/

/-- A port, a station pin, a ring, an interrupt source (R2, R268). -/
abbrev PortIx := Fin 2048
abbrev PinIx := Fin 4096
abbrev RingIx := Fin 256
/-- A source as CA_SRCSEL names it: number in [11:0], bank of a private source in [15:12] (R269). -/
abbrev SourceIx := Fin 65536

/-- The configuration writes the rules use (R168, R205, R206, R287, R482): Bus Master Enable; MSI-X Enable and Function
Mask; power state, PME Enable, and PME_Status written 1; Max Payload Size and Max Read Request Size; ASPM L1 enable; a BAR. -/
inductive CfgWrite where
  | command (bme : Bool)
  | msix (enable mask : Bool)
  | power (d3hot pmeEn clearPme : Bool)
  | deviceControl (mps mrrs : Nat)
  | aspm (l1 : Bool)
  | ecrc (generate check : Bool)
  | bar0 (base : BitVec 64)
  | bar2 (base : BitVec 64)
  /-- Any other register of configuration space, whose effect the Base Specification alone decides. -/
  | other
  deriving DecidableEq, Repr

/-- A host write to a BAR (R24, R171, R288): its offset, and whether it is one DWORD with all four byte enables. -/
structure HostWrite where
  offset : Nat
  full   : Bool
  deriving DecidableEq, Repr


end Sys2Proof.Machine
end

