-- ==== Sys2Proof/Syntax.lean ====
section
/-!
DEFINITION. The commands of the device, one constructor per row of spec/opcode_table.json, in its order, with the
operands the rules of that row need. A write row carries the 32-bit word written; the instance it reaches is the one its
window's SEL register names (R9). Rows that name a station, port, pin, ring, unit or octant carry its number (R2).
-/
namespace Sys2Proof

/-- One command: a register access, an operation of the chain, the host link or the Hinge, an event at a pin, or a
happening at a DCLK edge. -/
inductive Instr where
  /-- POR (R412): POR_N low then rising resets the whole device and starts Gesso. -/
  | por (strap : Machine.Role)
  /-- PLL_LOCK (R413): PLL first reports lock: DCLK becomes valid, C is 0, SYNC forwarding and the unassigned chain stage start. -/
  | pllLock
  /-- FUSE_READ_DONE (R414): The 1,024 fuse rows have been read; trims are applied and training of links and stacks starts. -/
  | fuseReadDone (corrected failRows : BitVec 16) (failed : List Machine.FuseContent)
  /-- GESSO_END (R413): Training completes at edge G; failed dies are handled, the chain starts executing slots and the Iatil load starts. -/
  | gessoEnd (sioFail : BitVec 4) (hbmFail : BitVec 2) (sineOk : Bool)
  /-- SIO_LINK_FAIL (R13): A die-to-die link fails training or loses lock: pads of its octants hold, its stations stop, SIO_FAULT is set and source 260 + d is raised. -/
  | sioLinkFail (d : Fin 4)
  /-- HBM_FAULT (R14): An HBM3 stack fails training or test or reports an uncorrectable error: HBM_FAULT is set and source 264 + h is raised. -/
  | hbmFault (h : Fin 2)
  /-- LOSS_OF_LOCK (R19): The PLL reports loss of lock: all pads hold, every engine stops, LOCK_LOST is set, CH_ATTN is pulled and the epoch is invalidated. -/
  | lossOfLock
  /-- HOST_WRITE_DISCARD (R24): A PCI Express write to an address not open to host writes is discarded and counted in GL_HOSTDROP. -/
  | hostWriteDiscard (bar2 : Bool) (write : Machine.HostWrite)
  /-- HOST_READ_UNIMPL (R24): A PCI Express read of an unimplemented BAR address completes with all bytes 0. -/
  | hostReadUnimpl (bar2 : Bool) (offset n : Nat)
  /-- STATUS_MIRROR_READ (R25): A host read of the BAR2 status mirror returns committed values, 64-byte pieces each taken at one DCLK edge. -/
  | statusMirrorRead (offset n : Nat)
  /-- TB_NOW_READ (R38): A read of TB_NOW_LO returns C[31:0] and latches C[63:32] for TB_NOW_HI. -/
  | tbNowRead
  /-- SYNC_LAST_READ (R61): A read of TB_SYNC_LAST_LO returns the low half and latches the high half. -/
  | syncLastRead
  /-- CAL_RUN (R39): A write of TB_CAL_CTL_RUN starts a new linearity measurement of all station delay lines, or is refused with E_STATE. -/
  | calRun (data : Word)
  /-- CAL_MEASURE_DONE (R39): A linearity measurement of the delay lines completes after 65,536 DCLK and its tables take effect. -/
  | calMeasureDone (fails : List Machine.CalLine)
  /-- SYNC_IN_EDGE (R44): A level change on SYNC_IN is sampled and forwarded to SYNC_OUT after the fixed pass delay. -/
  | syncInEdge (level : Bool) (u : Fin 16)
  /-- SYNC_QUALIFIED (R45): A rising SYNC edge has stayed high 16 DCLK: it is counted and its origin-referred time is written to TB_SYNC_LAST. -/
  | syncQualified
  /-- SOLSTICE_APPLY (R50): Three DCLK after the commit, C is loaded on the system scale, EPOCH_VALID and SOL_DONE are set, a Fresco is cancelled, an EPOCH entry is formed and source 266 is raised. -/
  | solsticeApply
  /-- SOL_ARM (R49): A write of TB_SOL_CTL_ARM arms a Solstice or is refused. -/
  | solArm (data : Word)
  /-- SOL_CANCEL (R49): A write of TB_SOL_CTL_CANCEL clears an armed, uncommitted Solstice. -/
  | solCancel (data : Word)
  /-- SYNC_DLY_WRITE (R52): A write that changes TB_SYNC_DLY appends a calibration record to the Almanac. -/
  | syncDlyWrite (data : Word)
  /-- PAIROFS_WINDOW (R53): After each window of 1,024 shared edges the shadow sets or moves TB_PAIROFS_OFS toward the window mean. -/
  | pairofsWindow (sum : Int)
  /-- FR_ARM (R55): A write of TB_FR_CTL_ARM arms a Fresco for time F or is refused. -/
  | frArm (data : Word)
  /-- FRESCO_LATCH (R56): C reaches F: every RO and W1C field and C are copied to the snapshot bank, FR_VALID is set and source 267 is raised. -/
  | frescoLatch
  /-- FR_CANCEL (R56): A write of TB_FR_CTL_CANCEL clears a pending Fresco and sets FR_CANCELLED. -/
  | frCancel (data : Word)
  /-- FR_DATA_READ (R59): A read of TB_FR_DATA returns the addressed snapshot word and advances TB_FR_ADDR_WORD. -/
  | frDataRead
  /-- FR_RELEASE (R59): A write of TB_FR_CTL_RELEASE clears FR_VALID. -/
  | frRelease (data : Word)
  /-- PALETTE_WRITE (R66): A write to palette words 0x301 to 0x304 is validated, applied, increments PL_STAT_GEN and requests a palette change on the ports naming the entry. -/
  | paletteWrite (k : Fin 4) (data : Word)
  /-- RX_PALETTE_SELECT (R69): A write of PT_RXCFG_PAL requests a palette change for the port. -/
  | rxPaletteSelect (data : Word)
  /-- PALETTE_BOUNDARY (R69): A waiting palette change reaches the port's character boundary, applies, and writes a profile-change record. -/
  | paletteBoundary (p : Machine.PortIx)
  /-- PIN_TRANSITION (R72): A pin's edge extractor forms a transition or glitch event with its crossing stamps, copied to the edge recorder and line monitor. -/
  | pinTransition (q : Machine.PinIx) (high glitch : Bool) (x1 x2 : Stamp)
  /-- EDGE_EVENT_AT_CORE (R21): An edge event reaches the core receive engine 16 DCLK after sampling and is decoded by the lanes or tracker. -/
  | edgeEventAtCore (p : Machine.PortIx)
  /-- STOP_BIT_CHECK (R75): A character's stop-bit check takes place 16 DCLK after sampling its last stop-bit centre, confirming or scoring it. -/
  | stopBitCheck (p : Machine.PortIx)
  /-- BREAK_DETECT (R76): Space held F_b + 1 bit periods from a start becomes a break: a break record is written and counted. -/
  | breakDetect (p : Machine.PortIx)
  /-- EDGE_ONLY_FALLBACK (R86): The 65th acquisition character with no open decision abandons acquisition for EDGE_ONLY, with edge records and a FALLBACK Pentimento. -/
  | edgeOnlyFallback (p : Machine.PortIx)
  /-- RX_REACQ (R90): A write of PT_RXCTL_REACQ restarts acquisition, or is held in HELD, or refused in OFF and STARVED. -/
  | rxReacq (data : Word)
  /-- RX_ENABLE (R96): PT_RXCFG_EN written 1 starts TRACK or ACQ when the pin is owned, and begins a session. -/
  | rxEnable (data : Word)
  /-- RX_DISABLE (R96): PT_RXCFG_EN written 0 abandons acquisition, discards a character in progress and ends the session. -/
  | rxDisable (data : Word)
  /-- FM_GATE_CLOSE (R91): The meter's transition count reaches PT_FMGATE: the result set is written, a meter record optionally written and the next gate starts. -/
  | fmGateClose (p : Machine.PortIx)
  /-- FM_RESTART (R91): A write of PT_RXCTL_FMRESTART discards the partial gate. -/
  | fmRestart (data : Word)
  /-- RXPER_READ (R99): A read of PT_RXPER_LO returns the tracked period low half and latches the high half. -/
  | rxperRead
  /-- FM_RESULT_READ (R99): A read of PT_FM_PER_LO copies the whole meter result set to holding. -/
  | fmResultRead
  /-- PROV_EXPIRE (R199): A provisional record not issued within 2,048 DCLK of its offer is dropped. -/
  | provExpire
  /-- DOORBELL (R171): A host doorbell write to DB_COUNT updates RG_HOST or is rejected and counted. -/
  | doorbell (n : Machine.RingIx) (value : Word)
  /-- DESCRIPTOR_FETCH (R130): A fetched transmit descriptor is checked and queued at its port, or completes INVALID, DISABLED or STARVED. -/
  | descriptorFetch (n : Machine.RingIx) (bytes : List Byte)
  /-- TX_DATA_FETCHED (R147): A descriptor's data arrive in the port's transmit space, making it ready. -/
  | txDataFetched (p : Machine.PortIx) (bytes : List Byte)
  /-- TX_CHAR_START (R132): The transmitter commits the start edge of a descriptor, Cue reply or flow character once ready, line free and flow permitting. -/
  | txCharStart (p : Machine.PortIx)
  /-- TIMED_DECIDE (R135): At edge N − 4 a timed descriptor is committed for its launch or found late. -/
  | timedDecide (p : Machine.PortIx)
  /-- TX_CHAR_END (R133): A transmitted character ends; the next character is committed, flow holds, or the descriptor completes. -/
  | txCharEnd (p : Machine.PortIx)
  /-- TX_ENABLE (R140): PT_TXCFG_EN written 1 takes the transmitter from OFF to IDLE when the pin is owned. -/
  | txEnable (data : Word)
  /-- TX_DISABLE (R140): PT_TXCFG_EN written 0 finishes the character in flight and completes queued descriptors DISABLED. -/
  | txDisable (data : Word)
  /-- TX_FLUSH (R140): PT_TXCTL_FLUSH completes remaining descriptors FLUSHED after the character in flight. -/
  | txFlush (data : Word)
  /-- TX_RESUME (R145): PT_TXCTL_RESUME clears XOFF_RX. -/
  | txResume (data : Word)
  /-- CUE_CLRHIST (R155): A write of CQ_CTL_CLRHIST empties the port's Cue windows. -/
  | cueClrhist (data : Word)
  /-- CONFIG_WRITE (R168): A PCI Express configuration write is applied as the Base Specification requires. -/
  | configWrite (c : Machine.CfgWrite)
  /-- RING_ENABLE (R213): RG_CFG_EN written 1 takes an OFF ring to ACTIVE with counts 0, or is refused. -/
  | ringEnable (data : Word)
  /-- RING_DISABLE (R213): RG_CFG_EN written 0 takes an ACTIVE or FAULT ring to DRAINING, or is refused while mapped. -/
  | ringDisable (data : Word)
  /-- RING_DRAIN_DONE (R177): A DRAINING ring with no held record or uncompleted descriptor enters OFF. -/
  | ringDrainDone (n : Machine.RingIx)
  /-- READ_COMPLETION_FAIL (R208): A descriptor or data read fails: the submission ring enters FAULT, source 272 is raised and affected descriptors complete DISABLED. -/
  | readCompletionFail (n : Machine.RingIx) (status : BitVec 3) (address : BitVec 64)
  /-- RECORD_BUILD (R200): A record is built in ring staging once staging has room. -/
  | recordBuild (p : Option Machine.PortIx)
  /-- RECORD_ELIGIBLE (R194): A ring's horizon point passes a record's base stamp, making it eligible. -/
  | recordEligible (n : Machine.RingIx)
  /-- WRITE_OPPORTUNITY (R198): At an opportunity to issue a posted write the device chooses mailbox, BOUNDED, LOSSLESS, BULK or provisional writes in that order. -/
  | writeOpportunity
  /-- ASPM_L1_REQUEST (R205): No request pending for 10 µs: the device requests ASPM L1. -/
  | aspmL1Request
  /-- LINK_DOWN (R482): Link down, Hot Reset or link disable resets configuration space while ring and Carillon state are kept; source 273 is raised in D0. -/
  | linkDown
  /-- LINK_UP (R417): The link trains and the link core becomes ready; waiting records are written again. -/
  | linkUp (speed : BitVec 4) (width : BitVec 6) (flit : Bool)
  /-- PERST_ASSERT (R441): PERST# assertion acts as a HOST reset clearing ring state. -/
  | perstAssert
  /-- PERST_DEASSERT (R417): PERST# deassertion starts link training. -/
  | perstDeassert
  /-- WAKE_REQUEST (R287): An enabled source pending during D3hot, L2 or HOST off raises PM_PME or WAKE#. -/
  | wakeRequest
  /-- FLUSH_READ_ISSUE (R215): A zero-length flush read is issued after record writes, subject to spacing and outstanding limits. -/
  | flushReadIssue
  /-- FLUSH_READ_COMPLETE (R215): A flush read completes successfully and every earlier record write is committed, moving commit-gated counters. -/
  | flushReadComplete
  /-- FLUSH_READ_FAIL (R220): A flush read fails or times out: nothing is committed, GL_CMTERR_FAIL counts and source 274 is raised. -/
  | flushReadFail (status : BitVec 3)
  /-- RECORD_REWRITE (R218): Once writing is possible again uncommitted records are rewritten at the same slots, followed by a flush read. -/
  | recordRewrite
  /-- BREACH_OPEN (R231): A BOUNDED record passes its latency bound unwritten and a breach interval opens with its cause. -/
  | breachOpen (n : Machine.RingIx)
  /-- BREACH_INTERVAL_LIMIT (R231): A breach interval reaches 1 ms and an OPEN BREACH record is formed, a new interval starting. -/
  | breachIntervalLimit (n : Machine.RingIx)
  /-- FAIRNESS_OPEN (R233): A BULK ring holds an eligible record 1 ms without a write and a fairness interval opens. -/
  | fairnessOpen (n : Machine.RingIx)
  /-- GAP_INTERVAL_LIMIT (R234): A loss interval reaches 1 ms and an OPEN GAP record is formed. -/
  | gapIntervalLimit (p : Machine.PortIx) (partner : Fin 5)
  /-- GAP_PLACE_FREE (R236): A ring's GAP place frees and the oldest waiting GAP record is formed. -/
  | gapPlaceFree (n : Machine.RingIx)
  /-- HEARTBEAT_SEND (R239): Every 1 µs a member sends a heartbeat with its pair state and C. -/
  | heartbeatSend
  /-- HEARTBEAT_RECV (R239): A received heartbeat updates HG_TOFS and the peer's state. -/
  | heartbeatRecv (state : Machine.PairState) (role : Machine.Role) (c : Stamp) (epoch busy : Bool) (pos : Option (BitVec 6))
  /-- HEARTBEAT_TIMEOUT (R239): No heartbeat for HG_CFG_HBTO: the Hinge is declared down. -/
  | heartbeatTimeout
  /-- HINGE_RETRAIN_TIMEOUT (R239): A Hinge retraining not complete within 2 µs declares the Hinge down. -/
  | hingeRetrainTimeout
  /-- HINGE_UP (R238): All 8 Hinge lanes complete training and the Hinge is up. -/
  | hingeUp
  /-- HG_ROLE_WRITE (R240): A write of HG_CFG_ROLE changes the role in SOLO or DISENGAGED, moving between SOLO and DISENGAGED. -/
  | hgRoleWrite (data : Word)
  /-- HG_ENGAGE (R251): HG_CTL_ENGAGE at the primary runs the engage checks and, passing, latches and sends the image. -/
  | hgEngage (data : Word)
  /-- ENGAGE_REQUEST_RECV (R252): The shadow receives the engage request and image parts and replaces its mirrored state. -/
  | engageRequestRecv (image : Machine.Image)
  /-- ENGAGE_COMPLETE (R241): The image is complete and acknowledged: both members enter ENGAGED, source 278 and a CONFIG entry follow. -/
  | engageComplete
  /-- ENGAGE_TIMEOUT (R241): ENGAGING lasting 2 s returns to DISENGAGED with source 278. -/
  | engageTimeout
  /-- HG_DISENGAGE (R253): HG_CTL_DISENGAGE takes members to DISENGAGED, clearing a yielding member under TAKEOVER. -/
  | hgDisengage (data : Word)
  /-- HG_RELEASE (R257): HG_CTL_RELEASE sends a release notice and releases the primary's pins. -/
  | hgRelease (data : Word)
  /-- WATCHDOG_EXPIRE (R257): The core has not refreshed the AON watchdog for HG_CFG_WDOG: the primary releases. -/
  | watchdogExpire
  /-- RELO_RELEASE (R256): 64 DCLK after its drivers turn off a releasing member releases HG_RELO. -/
  | reloRelease
  /-- MIRROR_WRITE_RECV (R249): The peer receives a forwarded mirrored write, validates, applies and acknowledges it. -/
  | mirrorWriteRecv (addr : BitVec 12) (inst : Nat) (data : List Word)
  /-- MIRROR_ACK_RECV (R249): The addressed member receives the acknowledgement and applies the mirrored write. -/
  | mirrorAckRecv (status : BitVec 4)
  /-- DECISION_BLOCK_CLOSE (R243): A decision block closes at 16 entries or 2,048 DCLK and is sent across the Hinge. -/
  | decisionBlockClose (p : Machine.PortIx)
  /-- DECISION_BLOCK_RECV (R245): The shadow rebuilds the primary's entries from a block, confirms them and compares the CRC. -/
  | decisionBlockRecv (p : Machine.PortIx) (codes : List (List Stamp)) (crc : BitVec 32)
  /-- FULL_RECORD_RECV (R245): The shadow receives full records or port receive state and adopts them. -/
  | fullRecordRecv (r : Machine.Full)
  /-- BLOCK_ACK_RECV (R246): The primary receives an acknowledgement, closing the open items of the described records. -/
  | blockAckRecv (a : Machine.Answer)
  /-- RECORD_MARK_RECV (R242): The shadow receives a record mark for a record the primary built. -/
  | recordMarkRecv (n : Machine.RingIx) (r : Machine.Rec)
  /-- HINGE_DOORBELL_RECV (R242): The shadow receives a doorbell the primary accepted. -/
  | hingeDoorbellRecv (n : Machine.RingIx) (value : Word)
  /-- HINGE_DESCRIPTOR_RECV (R242): The shadow receives a transmit descriptor with its slot. -/
  | hingeDescriptorRecv (d : Machine.Desc)
  /-- HINGE_EVENT_RECV (R248): The shadow receives a win, acquisition ending or palette boundary and applies it at the primary's edge. -/
  | hingeEventRecv (p : Machine.PortIx) (e : Machine.PeerEvent)
  /-- HINGE_PROV_RECV (R125): The shadow receives a PROV record with serial counter and shown list as provisional state. -/
  | hingeProvRecv (p : Machine.PortIx) (r : Machine.Rec) (serial : Word) (shown : List Machine.Shown)
  /-- COMMIT_POINT_RECV (R242): The shadow receives a commit point and updates its committed counts. -/
  | commitPointRecv (n : Machine.RingIx) (count : Word)
  /-- ARM_STATE_RECV (R374): The shadow receives a line-monitor arm-state change and follows it. -/
  | armStateRecv (q : Machine.PinIx) (m : Machine.Monitor)
  /-- FRESCO_VALUES_RECV (R226): The shadow receives the primary's commit-gated Fresco values, places them and sets FR_VALID. -/
  | frescoValuesRecv (values : Machine.Sparse Word)
  /-- RELEASE_NOTICE_RECV (R258): The shadow receives a release notice marking a coming takeover as DELIBERATE. -/
  | releaseNoticeRecv
  /-- RELI_RELEASED (R255): An eligible member first samples HG_RELI released and starts seeking a claim. -/
  | reliReleased
  /-- CLAIM_QUALIFY (R255): HG_RELI released for 64 DCLK qualifies and the member drives HG_RELO to hold. -/
  | claimQualify
  /-- CLAIM_HELD (R255): HG_RELI still released 192 DCLK after the first sample: the claim is held and DRIVE is set. -/
  | claimHeld
  /-- OCTANT_DRIVER_ENABLE (R255): At 192 + 64o DCLK the drivers of octant o are enabled. -/
  | octantDriverEnable (o : Fin 8)
  /-- CLAIM_BLOCKED (R255): HG_RELI reads hold before the claim is held: HG_RELO is released, BLOCKED is set and source 279 raised. -/
  | claimBlocked
  /-- CLAIM_RETRY (R255): After its back-off the blocked member starts seeking the claim again. -/
  | claimRetry
  /-- COALESCE_RIPE (R274): A source's coalescing timer reaches CA_SCOAL_TIME and its held events become pending. -/
  | coalesceRipe (n : Machine.SourceIx)
  /-- STATION_INPUT_CHANGE (R273): A station source's P3 input changes level after debounce, giving an edge or assertion. -/
  | stationInputChange (st : Fin 1024) (level : Bool)
  /-- CA_SETPEND (R275): A chain or host SETPEND sets a source pending with its software mark. -/
  | caSetpend (host : Option (Fin 16)) (data : Word)
  /-- CA_PRIV_SET (R275): A 1 written to CA_PRIV or the target page PRIV word software-sets a private source. -/
  | caPrivSet (host : Option (Fin 16)) (data : Word)
  /-- CA_CLRPEND (R275): A write of CA_SCTL_CLRPEND clears pending state, HELD, timer and mark of a non-ACTIVE source. -/
  | caClrpend (data : Word)
  /-- CA_SOURCE_DISABLE (R276): CA_SCFG_EN written 0 clears HELD, timer, pending state and mark. -/
  | caSourceDisable (data : Word)
  /-- CA_CLAIM_READ (R281): A read of CA_CLAIM returns and activates the winning deliverable source of a pin-type target. -/
  | caClaimRead (host : Option (Fin 16))
  /-- CA_EOI (R279): An end-of-interrupt removes the named ACTIVE source from the target's stack or counts BADW. -/
  | caEoi (host : Option (Fin 16)) (data : Word)
  /-- MESSAGE_DECISION (R283): A message-type target activates its winner and forms the mailbox write and MSI-X message. -/
  | messageDecision (t : Fin 16)
  /-- FRAME_BEGIN (R297): CH_SEL falls and each stage is loaded with its response, or an underrun response. -/
  | frameBegin
  /-- FRAME_END (R297): CH_SEL rises; each executing device latches and checks its slot and 1-bit stages are loaded. -/
  | frameEnd
  /-- EMPTY_FRAME (R305): A frame with no clock edges returns every assigned device to Full mode with a NOP response. -/
  | emptyFrame
  /-- CHAIN_NOP (R308): A NOP or RESP slot executes nothing and answers CH_STAT. -/
  | chainNop
  /-- CHAIN_READ (R321): A READ slot reads one word or a burst and answers the data. -/
  | chainRead (addr : BitVec 12) (count : Nat)
  /-- CHAIN_WRITE (R321): A WRITE slot to registers with no behaviour of their own is validated and applied, single or burst. -/
  | chainWrite (addr : BitVec 12) (data : List Word)
  /-- CHAIN_SELECT (R316): A SELECT slot changes the device to Directed, Broadcast or Full mode. -/
  | chainSelect (data : Word)
  /-- CHAIN_ASSIGN (R314): An unassigned device executes ASSIGN and takes a chain position. -/
  | chainAssign (data : Word)
  /-- CHAINRST (R326): An executed CHAINRST resets the chain state and makes the device unassigned. -/
  | chainrst
  /-- CH_RSTN_ASSERT (R326): CH_RSTN low for 40 ns resets the chain state. -/
  | chRstnAssert
  /-- RESPONSE_READY (R322): An executed slot's operation completes and its response is ready for the next frame. -/
  | responseReady
  /-- ERRLOG_READ (R330): A read of GL_ERRLOG_LO returns the low half and latches the high half. -/
  | errlogRead
  /-- PIN_SWITCH (R340): At switch edge W the pad passes to its new owner: hold latch, old function starved, new level 4 DCLK later. -/
  | pinSwitch (q : Machine.PinIx)
  /-- ST_PINCFG_WRITE (R338): A write of ST_PINCFGk applies at once or waits for the character in flight. -/
  | stPincfgWrite (k : Fin 4) (data : Word)
  /-- ST_UNHOLD (R342): A write of ST_CTL_UNHOLD turns held pins OFF. -/
  | stUnhold (data : Word)
  /-- MISMATCH_DETECT (R344): 64 samples show the opposite level of a driven pin and MISM is set. -/
  | mismatchDetect (q : Machine.PinIx)
  /-- GPIO_OUT_WRITE (R345): A write of ST_GPCFG_OUTk drives the new level or stores it. -/
  | gpioOutWrite (data : Word)
  /-- GPIN_CHANGE (R346): ST_GPIN bit k changes after ST_GPDEB of samples at the new level. -/
  | gpinChange (q : Machine.PinIx) (level : Bool)
  /-- LEVEL_CODE_WRITE (R350): A level DAC code write without span change applies at acceptance and settles. -/
  | levelCodeWrite (k : Fin 4) (data : Word)
  /-- SPAN_CHANGE_START (R351): A write changing ST_LGCFG_SPAN starts the span sequence: pads to KEEP, BUSY set, samplers frozen. -/
  | spanChangeStart (data : Word)
  /-- SPAN_OLD_ZERO (R352): At 1 µs the group's DACs reach the zero code of the old span. -/
  | spanOldZero (g : Fin 64)
  /-- SPAN_APPLY (R352): At 3 µs the new span is applied at its zero code. -/
  | spanApply (g : Fin 64)
  /-- SPAN_CODES_LOAD (R352): At 4 µs the new codes are loaded. -/
  | spanCodesLoad (g : Fin 64)
  /-- SAMPLER_RESUME (R353): At 9 µs the group's samplers resume, forming at most one transition. -/
  | samplerResume (g : Fin 64) (levels : List (Machine.PinIx × Machine.Sample))
  /-- SPAN_CHANGE_END (R352): At 10 µs kept pads return to DRIVE at new levels and BUSY clears. -/
  | spanChangeEnd (g : Fin 64)
  /-- MONITOR_TIMEOUT (R359): No crossing for LM_TOUT meets the TIMEOUT condition. -/
  | monitorTimeout (q : Machine.PinIx)
  /-- LM_FORCE (R359): A write of LM_CTL_FORCE triggers the monitor with cause FORCE. -/
  | lmForce (data : Word)
  /-- LM_ARM (R363): A write of LM_CTL_ARM is checked and moves the monitor to ARMING. -/
  | lmArm (data : Word)
  /-- LM_DISARM (R362): A write of LM_CTL_DISARM stops the monitor, or marks DISARM pending during capture. -/
  | lmDisarm (data : Word)
  /-- MONITOR_ARMED (R362): The octant and MEM1 reach RUN and an ARMING monitor starts its grid and circle. -/
  | monitorArmed (q : Machine.PinIx)
  /-- TRIGGER_ADMISSION (R368): 16 DCLK after a trigger, admission against the Canvas budget admits or declines it. -/
  | triggerAdmission (q : Machine.PinIx)
  /-- SEGMENT_COMPLETE (R365): A segment's last sample and header are in the Canvas and its budget units are released. -/
  | segmentComplete (q : Machine.PinIx)
  /-- REARM_END (R362): 320 DCLK after entering REARM the monitor returns to ARMED. -/
  | rearmEnd (q : Machine.PinIx)
  /-- UPLOAD_START (R369): A complete segment receives an extent in the upload area and is copied to host memory. -/
  | uploadStart (q : Machine.PinIx)
  /-- CU_ATTACH (R380): CU_ATTACH_EN written 1 claims the pin and starts closing the switch. -/
  | cuAttach (data : Word)
  /-- CU_SWITCH_CLOSED (R381): 160 DCLK after W the switch closes and compliance is judged. -/
  | cuSwitchClosed (i : Fin 16)
  /-- CU_DETACH (R382): CU_ATTACH_EN written 0 starts opening the switch. -/
  | cuDetach (data : Word)
  /-- CU_SWITCH_OPEN (R382): The switch is open 160 DCLK after detach and the claim ends. -/
  | cuSwitchOpen (i : Fin 16)
  /-- CU_LEVEL_WRITE (R379): A write of CU_LEVEL applies at acceptance and settles within 5 µs. -/
  | cuLevelWrite (data : Word)
  /-- CU_RANGE_CHANGE (R384): A write changing KIND or RANGE starts the range sequence, opening the switch. -/
  | cuRangeChange (data : Word)
  /-- CU_RANGE_OUTPUT_ZERO (R384): At 0.1 µs the switch is open and the output at zero in the old range. -/
  | cuRangeOutputZero (i : Fin 16)
  /-- CU_RANGE_APPLY (R384): At 5 µs the new KIND and RANGE apply at zero. -/
  | cuRangeApply (i : Fin 16)
  /-- CU_RANGE_LEVEL_APPLY (R384): At 10 µs the new level applies and a sine starts at phase 0. -/
  | cuRangeLevelApply (i : Fin 16)
  /-- CU_RANGE_CLOSE (R384): At 20 µs the switch closes if attached with a claim, ending RANGING. -/
  | cuRangeClose (i : Fin 16)
  /-- CU_COMPLIANCE_FAULT (R385): The compliance limit acts for CU_CLAMP_TIME and the unit enters FAULT. -/
  | cuComplianceFault (i : Fin 16)
  /-- CU_THERMAL_FAULT (R386): CU_TEMP above 125 °C puts the unit in FAULT and asserts source 280. -/
  | cuThermalFault (i : Fin 16) (temp : BitVec 8)
  /-- CU_FAULT_CLEAR (R386): Clearing both fault bits returns the unit from FAULT to OPEN. -/
  | cuFaultClear (data : Word)
  /-- SINE_UPDATE (R388): Every 16 DCLK a SINE source advances its phase and updates the forced code. -/
  | sineUpdate (i : Fin 16)
  /-- WAVE_SAMPLE (R390): Every CU_WCFG_DIV × 16 DCLK a WAVE source plays its next stored sample. -/
  | waveSample (i : Fin 16)
  /-- CU_WDATA_WRITE (R390): A write of CU_WDATA stores a sample and advances CU_WADDR. -/
  | cuWdataWrite (data : Word)
  /-- CU_MEAS_START (R391): A write of CU_CTL_MEAS starts a measurement at the next converter sample. -/
  | cuMeasStart (data : Word)
  /-- CU_MEAS_DONE (R391): The last of 2^LOG2N samples writes CU_MRES, CU_MSTAMP and AC results and sets MDONE. -/
  | cuMeasDone (i : Fin 16) (codes : List (BitVec 18))
  /-- CU_MEAS_STOP (R393): A write of CU_CTL_STOP stops a measurement without MDONE. -/
  | cuMeasStop (data : Word)
  /-- CU_MRES_READ (R391): A read of CU_MRES latches CU_MSTAMP. -/
  | cuMresRead
  /-- AX_START (R399): A write of AX_CTL_START begins a transfer, asserting the select. -/
  | axStart (data : Word)
  /-- AX_TRANSFER_DONE (R399): The last bit is taken: DONE is set and AX_CNT incremented, or the master becomes HELD. -/
  | axTransferDone (m : Fin 8) (bits : List Bool)
  /-- AX_SELECT_RELEASE (R399): After the trail delay the select is released and MOSI goes low. -/
  | axSelectRelease (m : Fin 8)
  /-- AX_HELD_TIMEOUT (R400): No START within AX_TOUT in HELD: the select is released and EV_TOUT set. -/
  | axHeldTimeout (m : Fin 8)
  /-- AX_ABORT (R401): A write of AX_CTL_ABORT stops a running transfer or releases a held select. -/
  | axAbort (data : Word) (bits : List Bool)
  /-- AX_DISCOVER (R405): A write of AX_FLCTL_DISCOVER reruns SFDP discovery on AUX0. -/
  | axDiscover (data : Word)
  /-- DISCOVERY_DONE (R405): SFDP discovery ends, setting AX_SFDP_OK and density or EV_DISC. -/
  | discoveryDone (ok : Bool) (major minor : BitVec 8) (dens : BitVec 6)
  /-- AX_FLADDR_WRITE (R406): A write of AX_FLADDR naming another block loads it, or resumes continuous read. -/
  | axFladdrWrite (data : Word)
  /-- FLASH_BLOCK_LOADED (R406): A 256-byte flash block has arrived in the prefetch buffer. -/
  | flashBlockLoaded (words : List Word)
  /-- FLASH_APERTURE_READ (R407): A read of an aperture word not yet arrived returns E_NOTREADY. -/
  | flashApertureRead (k : Fin 64)
  /-- AX_FLDROP (R408): A write of AX_FLCTL_DROP discards the buffer and ends continuous read. -/
  | axFldrop (data : Word)
  /-- FLASH_CONT_TIMEOUT (R408): No resume within AX_FLCFG_CTOUT ends continuous read and releases CS0. -/
  | flashContTimeout
  /-- IMAGE_HEADER_CHECK (R421): The 256th image byte arrives and the header checks run; FASTCLK may speed the read. -/
  | imageHeaderCheck (header : List Byte)
  /-- IMAGE_READ_END (R420): The image read ends: CS0 released, digest checked, once retried at 25 MHz. -/
  | imageReadEnd (image : List Byte)
  /-- SIGNATURE_VERIFIED (R421): The image signature verification completes. -/
  | signatureVerified
  /-- IMAGE_APPLY (R422): Validation ends at edge L and the body is applied, with a CONFIG Almanac entry. -/
  | imageApply
  /-- BOOT_SKIP (R428): GL_BOOTCTL_SKIP ends the load with code 9. -/
  | bootSkip (data : Word)
  /-- BOOT_RELOAD (R424): GL_BOOTCTL_RELOAD reruns discovery and the load from WAIT. -/
  | bootReload (data : Word)
  /-- BOOT_VERNISSAGE (R424): GL_BOOTCTL_VERNISSAGE sets V 10 µs ahead from LOADED or WAIT. -/
  | bootVernissage (data : Word)
  /-- STATE_DIGEST_DONE (R449): A state digest completes and its CONFIG entry is formed. -/
  | stateDigestDone
  /-- VERNISSAGE (R425): At edge V domains start self-management and claims are sought. -/
  | vernissage
  /-- OCTANT_TAKE_PINS (R425): At V + 192 + 64o DCLK the functions of octant o take their pins. -/
  | octantTakePins (o : Fin 8)
  /-- OCTANT_IDLE_ENTER (R431): An octant without activity for IDLET enters IDLE. -/
  | octantIdleEnter (o : Fin 8)
  /-- OCTANT_NAP_ENTER (R431): An octant in IDLE for NAPT starts entry to NAP. -/
  | octantNapEnter (o : Fin 8)
  /-- OCTANT_DARK_ENTER (R431): An octant in NAP for DARKT starts entry to DARK. -/
  | octantDarkEnter (o : Fin 8)
  /-- OCTANT_ENTRY_DONE (R437): Entry to NAP or DARK completes; a waiting request is then served. -/
  | octantEntryDone (o : Fin 8)
  /-- OCTANT_RUN (R436): A waking octant reaches RUN, restoring settings and pads; this edge is W. -/
  | octantRun (o : Fin 8)
  /-- DOMAIN_SLEEP_ENTER (R431): CORE, HOST, HINGE or a memory domain enters IDLE, NAP or DARK under its condition. -/
  | domainSleepEnter (d : Machine.Domain) (into : Machine.DomState)
  /-- DOMAIN_WAKE (R431): A request returns a domain to RUN within its latency. -/
  | domainWake (d : Machine.Domain)
  /-- PW_CFG_WRITE (R446): A write of PW_OCTCFG or PW_MEMCFG applies and may return a domain toward RUN. -/
  | pwCfgWrite (oct : Option (Fin 8)) (data : Word)
  /-- SOFT_RESET (R438): PW_RSTCTL_SOFT resets the device back to Gesso, keeping C and pads. -/
  | softReset (data : Word)
  /-- CORE_RESET (R438): PW_RSTCTL CORE bit resets CORE and returns to LOAD. -/
  | coreReset (data : Word)
  /-- HOST_RESET (R441): PW_RSTCTL HOST bit clears ring state, staging, monitors and mailbox stacks. -/
  | hostReset (data : Word)
  /-- HINGE_RESET (R438): PW_RSTCTL HINGE bit resets the Hinge domain. -/
  | hingeReset (data : Word)
  /-- MEM_RESET (R438): PW_RSTCTL MEM bit resets stack h and retrains it. -/
  | memReset (data : Word)
  /-- OCT_RESET (R438): PW_RSTCTL OCT bit resets an octant's logic and restores it from the shadow copy. -/
  | octReset (data : Word)
  /-- LAPSE_RESET (R459): At the first edge after a SOFT or CORE reset a LAPSE entry with cause RESET is formed. -/
  | lapseReset
  /-- THERMAL_WARN (R473): A sensor at or above WARN asserts source 259, de-asserting below WARN − HYST. -/
  | thermalWarn (core sio hbm : BitVec 8)
  /-- THERMAL_TRIP (R474): A sensor at 115 °C for 1 µs counts a trip and acts as a SOFT reset. -/
  | thermalTrip (die : Fin 7)
  /-- LAPSE_QUEUE (R452): A halted Almanac queue with 1,024 entries free forms a LAPSE QUEUE and resumes. -/
  | lapseQueue
  /-- CHECKPOINT_CUT (R456): A checkpoint cut forms interim SESSION entries and a CHECKPOINT and starts signing. -/
  | checkpointCut
  /-- AL_CUT (R456): A write of AL_CTL_CUT requests a checkpoint cut. -/
  | alCut (data : Word)
  /-- CHECKPOINT_SIGNED (R456): Signing of a CHECKPOINT completes within 200 µs. -/
  | checkpointSigned
  /-- CERT_DATA_READ (R460): A read of AL_CERTDATA returns four certificate bytes and advances AL_CERTADDR. -/
  | certDataRead
  /-- IMAGEID_READ (R427): A read of GL_IMAGEID_LO latches the high half. -/
  | imageidRead
  /-- DISSTAMP_READ (R266): A read of HG_DISSTAMP_LO latches the high half. -/
  | disstampRead
  /-- TKSTAMP_READ (R266): A read of HG_TKSTAMP_LO latches the high half. -/
  | tkstampRead
  /-- LM_LAST_READ (R375): A read of LM_LAST_LO latches the high half. -/
  | lmLastRead
  /-- AL_CMT_READ (R460): A read of AL_CMT_LO latches the high half. -/
  | alCmtRead
  /-- POR_N_FALL (R412): A fall of POR_N puts every output in its POR state and discards all state until the next rise. -/
  | porNFall
  /-- VST_P_FALL (R254): The station driver supply VST_P falls, the station drivers stop and the supply monitor stops HG_RELO holding. -/
  | vstPFall
  /-- CH_CLK_RISING_EDGE (R296): A filtered CH_CLK rising edge inside a frame shifts CH_DIN into the stage, counts toward F and changes CH_DOUT after the falling edge. -/
  | chClkRisingEdge (din : Bool)
  /-- HINGE_RETRAINING (R238): A Hinge lane loses training, the Hinge is no longer up, a retraining starts and HG_LINK_RETRAIN counts it. -/
  | hingeRetraining
  /-- REFCLK_TOGGLE_CHANGE (R33): REFCLK stops toggling within ±1,000 ppm of 100 MHz or returns, changing GL_CLKSTAT_REFCLK. -/
  | refclkToggleChange (ok : Bool)
  deriving DecidableEq, Repr

end Sys2Proof
end

