-- ==== Sys2Proof/Decode.lean ====
section
/-!
DEFINITION. Commands that a word spells by the bits of spec/opcode_table.json. No row of the table gives bits: the
commands of this block are register accesses, protocol operations and happenings, and a chain slot is not one of its rows.
-/
namespace Sys2Proof

/-- The command a word of `nbits` bits spells: none, since no row of the table gives bits. -/
def decodeTableWord (_nbits _w : Nat) : Option Instr := none

end Sys2Proof
end

