-- ==== Sys2Proof/Config.lean ====
section
/-!
DEFINITION. What one part has fixed at production and what the spec leaves open: fused values, tables and keys the spec
does not print, and the source of free values. Every constant is opaque: nothing can be proved of its value.
-/
namespace Sys2Proof.Config

/-- A free value: what the spec leaves open, by the count of free values taken before it (log entry 3). -/
opaque freeValue : Nat → BitVec 64

/-- GL_STEP_CORE and GL_STEP_SIO (R30), fused. -/
opaque stepCore : BitVec 8
opaque stepSio : BitVec 8

/-- TB_PASS_THRU and TB_PASS_IN (R61), fused, in ticks. -/
opaque passThru : BitVec 10
opaque passIn : BitVec 10

/-- TB_PINPATH_IN_PATH and _OUT_PATH of pin q (R63), fused, in ticks. -/
opaque inPath : Nat → BitVec 12
opaque outPath : Nat → BitVec 12

/-- ST_SLEWDLY_S1 to S3 of a station (R355, R356), fused, one value for the device; argument: setting 1 to 3. -/
opaque slewDelay : Nat → BitVec 8

/-- GL_SERIAL (R427), fused. -/
opaque serial : BitVec 64

/-- AL_PUBKEY word k (R460), fused. -/
opaque pubKey : Nat → Word

/-- The certificate: AL_CERTLEN and its bytes (R460). -/
opaque certLength : BitVec 12
opaque certByte : Nat → Byte

/-- REQSIG, and the image-key hash when one is fused (R414, R421). -/
opaque reqSig : Bool
opaque keyHash : Option (List Byte)

/-- Verification of the image's signature (R418, R421): ECDSA P-256, whose arithmetic the spec names and does not give.
Arguments: public key, SHA-256 digest of the message, signature. -/
opaque verify : List Byte → List Byte → List Byte → Bool

/-- The Almanac signature over a digest (R456), 64 bytes. -/
opaque sign : List Byte → List Byte



/-- Vendor ID, Subsystem Vendor ID and Subsystem ID of configuration space (R167), fused. -/
opaque pciVendor : BitVec 16
opaque subsystemVendor : BitVec 16
opaque subsystem : BitVec 16

end Sys2Proof.Config
end

