-- ==== Sys2Proof/Machine/Fields.lean ====
section
/-!
DEFINITION. Every field of the register map, from the register tables of the spec: word, low bit, width, access type,
whether it is mirrored (R8), and the value of the Reset column (0 where that column names a fused, strapped or measured
value; `resetWord` gives those). A repeated word (PIN k, octant o, partner, rule, reply word) is listed at its first word;
`Fld.at` names the others.
-/
namespace Sys2Proof.Machine

/-- Access types (R5). -/
inductive Access where
  | rw | ro | w1c | w1s | wo
  deriving DecidableEq, Repr

/-- A register field. -/
structure Fld where
  word  : Nat
  lo    : Nat
  width : Nat
  acc   : Access
  mir   : Bool
  reset : Nat
  deriving DecidableEq, Repr

/-- The same field of a repeated word, `k` words further on. -/
def Fld.at (f : Fld) (k : Nat) : Fld := { f with word := f.word + k }

/-- The bits of the word the field occupies. -/
def Fld.mask (f : Fld) : Word := BitVec.ofNat 32 ((2 ^ f.width - 1) * 2 ^ f.lo)


/-! Registers of 01_architecture.md R29. -/

/-- Dermeoz vendor code (R29). -/
def Reg.GL_ID_VENDOR : Fld := ⟨0x000, 16, 16, .ro, false, 0xD3E0⟩

/-- Stations per device, 1,024 (R29). -/
def Reg.GL_ID_PART : Fld := ⟨0x000, 4, 12, .ro, false, 0x400⟩

/-- Chrorvo family member; SPX-1024 is 1 (R29). -/
def Reg.GL_ID_MEMBER : Fld := ⟨0x000, 0, 4, .ro, false, 0x1⟩

/-- The fields of 01_architecture.md R29. -/
def Reg.fieldsR29 : List Fld := [Reg.GL_ID_VENDOR, Reg.GL_ID_PART, Reg.GL_ID_MEMBER]

/-! Registers of 01_architecture.md R30. -/

/-- Core die step (R30). -/
def Reg.GL_STEP_CORE : Fld := ⟨0x001, 24, 8, .ro, false, 0x0⟩

/-- SIO die step; all four SIO dies of one package carry the same step (R30). -/
def Reg.GL_STEP_SIO : Fld := ⟨0x001, 16, 8, .ro, false, 0x0⟩

/-- HBM3 fitted, in GiB; 32 (R30). -/
def Reg.GL_STEP_MEM : Fld := ⟨0x001, 8, 8, .ro, false, 0x20⟩

/-- The fields of 01_architecture.md R30. -/
def Reg.fieldsR30 : List Fld := [Reg.GL_STEP_CORE, Reg.GL_STEP_SIO, Reg.GL_STEP_MEM]

/-! Registers of 01_architecture.md R31. -/

/-- Bit h set when stack h has failed under R14 (R31). -/
def Reg.GL_DIESTAT_HBM_FAULT : Fld := ⟨0x002, 12, 2, .w1c, false, 0x0⟩

/-- Bit d set when the link to SIOd has failed under R13 (R31). -/
def Reg.GL_DIESTAT_SIO_FAULT : Fld := ⟨0x002, 8, 4, .w1c, false, 0x0⟩

/-- Bit h is 1 while stack h is trained and usable (R31). -/
def Reg.GL_DIESTAT_HBM_OK : Fld := ⟨0x002, 4, 2, .ro, false, 0x3⟩

/-- Bit d is 1 while the link to SIOd is trained (R31). -/
def Reg.GL_DIESTAT_SIO_OK : Fld := ⟨0x002, 0, 4, .ro, false, 0xF⟩

/-- The fields of 01_architecture.md R31. -/
def Reg.fieldsR31 : List Fld := [
  Reg.GL_DIESTAT_HBM_FAULT, Reg.GL_DIESTAT_SIO_FAULT, Reg.GL_DIESTAT_HBM_OK, Reg.GL_DIESTAT_SIO_OK]

/-! Registers of 01_architecture.md R33. -/

/-- Loss-of-lock events since POR; saturates at 0xFF (R33). -/
def Reg.GL_CLKSTAT_LOSS_CNT : Fld := ⟨0x003, 8, 8, .ro, false, 0x0⟩

/-- 1 while REFCLK toggles within ±1,000 ppm of 100.000 MHz (R33). -/
def Reg.GL_CLKSTAT_REFCLK : Fld := ⟨0x003, 2, 1, .ro, false, 0x1⟩

/-- Set on loss of lock under R19 (R33). -/
def Reg.GL_CLKSTAT_LOCK_LOST : Fld := ⟨0x003, 1, 1, .w1c, false, 0x0⟩

/-- 1 while the PLL is locked (R33). -/
def Reg.GL_CLKSTAT_LOCK : Fld := ⟨0x003, 0, 1, .ro, false, 0x1⟩

/-- The fields of 01_architecture.md R33. -/
def Reg.fieldsR33 : List Fld := [
  Reg.GL_CLKSTAT_LOSS_CNT, Reg.GL_CLKSTAT_REFCLK, Reg.GL_CLKSTAT_LOCK_LOST, Reg.GL_CLKSTAT_LOCK]

/-! Registers of 01_architecture.md R34. -/

/-- PCI Express writes discarded under R24; saturates at 0xFFFF_FFFF; returns to 0 on POR, SOFT reset and CORE reset (R34). -/
def Reg.GL_HOSTDROP_CNT : Fld := ⟨0x004, 0, 32, .ro, false, 0x0⟩

/-- The fields of 01_architecture.md R34. -/
def Reg.fieldsR34 : List Fld := [Reg.GL_HOSTDROP_CNT]

/-! Registers of 02_timebase.md R60. -/

/-- Copy of TB_PAIROFS_VALID (R60). -/
def Reg.TB_STAT_PAIR_LOCKED : Fld := ⟨0x080, 11, 1, .ro, false, 0x0⟩

/-- Linearity tables measured under R39; 0 while a RUN is active (R60). -/
def Reg.TB_STAT_CAL_DONE : Fld := ⟨0x080, 10, 1, .ro, false, 0x1⟩

/-- Non-qualifying SYNC edge seen under R45 (R60). -/
def Reg.TB_STAT_SYNC_GLITCH : Fld := ⟨0x080, 9, 1, .w1c, false, 0x0⟩

/-- Pending Fresco cancelled under R56 (R60). -/
def Reg.TB_STAT_FR_CANCELLED : Fld := ⟨0x080, 8, 1, .w1c, false, 0x0⟩

/-- Snapshot bank holds a Fresco (R60). -/
def Reg.TB_STAT_FR_VALID : Fld := ⟨0x080, 7, 1, .ro, false, 0x0⟩

/-- Fresco armed, not yet latched (R60). -/
def Reg.TB_STAT_FR_PENDING : Fld := ⟨0x080, 6, 1, .ro, false, 0x0⟩

/-- Solstice applied (R60). -/
def Reg.TB_STAT_SOL_DONE : Fld := ⟨0x080, 5, 1, .w1c, false, 0x0⟩

/-- Solstice armed (R60). -/
def Reg.TB_STAT_SOL_ARMED : Fld := ⟨0x080, 4, 1, .ro, false, 0x0⟩

/-- C is on the system scale (R60). -/
def Reg.TB_STAT_EPOCH_VALID : Fld := ⟨0x080, 0, 1, .ro, false, 0x0⟩

/-- The fields of 02_timebase.md R60. -/
def Reg.fieldsR60 : List Fld := [
  Reg.TB_STAT_PAIR_LOCKED, Reg.TB_STAT_CAL_DONE, Reg.TB_STAT_SYNC_GLITCH, Reg.TB_STAT_FR_CANCELLED,
  Reg.TB_STAT_FR_VALID, Reg.TB_STAT_FR_PENDING, Reg.TB_STAT_SOL_DONE, Reg.TB_STAT_SOL_ARMED,
  Reg.TB_STAT_EPOCH_VALID]

/-! Registers of 02_timebase.md R61. -/

/-- C[31:0]; read latches C[63:32] under R38 (R61). -/
def Reg.TB_NOW_LO : Fld := ⟨0x081, 0, 32, .ro, false, 0x0⟩

/-- Latched C[63:32] (R61). -/
def Reg.TB_NOW_HI : Fld := ⟨0x082, 0, 32, .ro, false, 0x0⟩

/-- E[31:0] (R61). -/
def Reg.TB_SOL_E_LO : Fld := ⟨0x083, 0, 32, .rw, false, 0x0⟩

/-- E[63:32] (R61). -/
def Reg.TB_SOL_E_HI : Fld := ⟨0x084, 0, 32, .rw, false, 0x0⟩

/-- Cancels an armed Solstice (R61). -/
def Reg.TB_SOL_CTL_CANCEL : Fld := ⟨0x085, 1, 1, .wo, false, 0x0⟩

/-- Arms a Solstice under R49 (R61). -/
def Reg.TB_SOL_CTL_ARM : Fld := ⟨0x085, 0, 1, .wo, false, 0x0⟩

/-- Origin to SYNC_IN ball, ticks, under R46 (R61). -/
def Reg.TB_SYNC_DLY : Fld := ⟨0x086, 0, 24, .rw, false, 0x0⟩

/-- SYNC_IN ball to SYNC_OUT ball, ticks (R61). -/
def Reg.TB_PASS_THRU : Fld := ⟨0x087, 16, 10, .ro, false, 0x0⟩

/-- SYNC_IN ball to sampler, ticks (R61). -/
def Reg.TB_PASS_IN : Fld := ⟨0x087, 0, 10, .ro, false, 0x0⟩

/-- Origin-referred time of the last qualified edge, [31:0]; read latches [63:32] (R61). -/
def Reg.TB_SYNC_LAST_LO : Fld := ⟨0x088, 0, 32, .ro, false, 0x0⟩

/-- Latched [63:32] (R61). -/
def Reg.TB_SYNC_LAST_HI : Fld := ⟨0x089, 0, 32, .ro, false, 0x0⟩

/-- Non-qualifying edges; saturates at 0xFFFF (R61). -/
def Reg.TB_SYNC_CNT_GLITCH : Fld := ⟨0x08A, 16, 16, .ro, false, 0x0⟩

/-- Qualified edges; wraps (R61). -/
def Reg.TB_SYNC_CNT_EDGES : Fld := ⟨0x08A, 0, 16, .ro, false, 0x0⟩

/-- OFS measured under R53 (R61). -/
def Reg.TB_PAIROFS_VALID : Fld := ⟨0x08B, 31, 1, .ro, false, 0x0⟩

/-- Shadow minus primary, ticks, two's complement (R61). -/
def Reg.TB_PAIROFS_OFS : Fld := ⟨0x08B, 0, 16, .ro, false, 0x0⟩

/-- The fields of 02_timebase.md R61. -/
def Reg.fieldsR61 : List Fld := [
  Reg.TB_NOW_LO, Reg.TB_NOW_HI, Reg.TB_SOL_E_LO, Reg.TB_SOL_E_HI, Reg.TB_SOL_CTL_CANCEL, Reg.TB_SOL_CTL_ARM,
  Reg.TB_SYNC_DLY, Reg.TB_PASS_THRU, Reg.TB_PASS_IN, Reg.TB_SYNC_LAST_LO, Reg.TB_SYNC_LAST_HI,
  Reg.TB_SYNC_CNT_GLITCH, Reg.TB_SYNC_CNT_EDGES, Reg.TB_PAIROFS_VALID, Reg.TB_PAIROFS_OFS]

/-! Registers of 02_timebase.md R62. -/

/-- Re-measures station-line tables under R39; takes 65,536 DCLK (40.96 µs) (R62). -/
def Reg.TB_CAL_CTL_RUN : Fld := ⟨0x08C, 0, 1, .wo, false, 0x0⟩

/-- Measurement in progress (R62). -/
def Reg.TB_CAL_STAT_BUSY : Fld := ⟨0x08D, 17, 1, .ro, false, 0x0⟩

/-- At least one line failed under R40 (R62). -/
def Reg.TB_CAL_STAT_FAIL : Fld := ⟨0x08D, 16, 1, .ro, false, 0x0⟩

/-- Lines on seed tables (R62). -/
def Reg.TB_CAL_STAT_FAILED : Fld := ⟨0x08D, 0, 16, .ro, false, 0x0⟩

/-- F[31:0] (R62). -/
def Reg.TB_FR_F_LO : Fld := ⟨0x090, 0, 32, .rw, true, 0x0⟩

/-- F[63:32] (R62). -/
def Reg.TB_FR_F_HI : Fld := ⟨0x091, 0, 32, .rw, true, 0x0⟩

/-- Clears FR_VALID (R62). -/
def Reg.TB_FR_CTL_RELEASE : Fld := ⟨0x092, 2, 1, .wo, false, 0x0⟩

/-- Cancels a pending Fresco (R62). -/
def Reg.TB_FR_CTL_CANCEL : Fld := ⟨0x092, 1, 1, .wo, true, 0x0⟩

/-- Arms a Fresco under R55 (R62). -/
def Reg.TB_FR_CTL_ARM : Fld := ⟨0x092, 0, 1, .wo, true, 0x0⟩

/-- Window instance for snapshot reads (R62). -/
def Reg.TB_FR_ADDR_INST : Fld := ⟨0x093, 16, 12, .rw, false, 0x0⟩

/-- Word address for snapshot reads; advances under R59 (R62). -/
def Reg.TB_FR_ADDR_WORD : Fld := ⟨0x093, 0, 12, .rw, false, 0x0⟩

/-- Snapshot word under R59 (R62). -/
def Reg.TB_FR_DATA : Fld := ⟨0x094, 0, 32, .ro, false, 0x0⟩

/-- The fields of 02_timebase.md R62. -/
def Reg.fieldsR62 : List Fld := [
  Reg.TB_CAL_CTL_RUN, Reg.TB_CAL_STAT_BUSY, Reg.TB_CAL_STAT_FAIL, Reg.TB_CAL_STAT_FAILED, Reg.TB_FR_F_LO,
  Reg.TB_FR_F_HI, Reg.TB_FR_CTL_RELEASE, Reg.TB_FR_CTL_CANCEL, Reg.TB_FR_CTL_ARM, Reg.TB_FR_ADDR_INST,
  Reg.TB_FR_ADDR_WORD, Reg.TB_FR_DATA]

/-! Registers of 02_timebase.md R63. -/

/-- Pin index q, 0 to 4095, or 0xFFFF; other values return E_VALUE (R63). -/
def Reg.TB_PINSEL : Fld := ⟨0x0A0, 0, 16, .rw, false, 0x0⟩

/-- Pin's delay line on seed table under R40 (R63). -/
def Reg.TB_PINPATH_CAL_FAIL : Fld := ⟨0x0A1, 31, 1, .ro, false, 0x0⟩

/-- Commit point to ball, ticks (R63). -/
def Reg.TB_PINPATH_OUT_PATH : Fld := ⟨0x0A1, 16, 12, .ro, false, 0x0⟩

/-- Ball to sampler, ticks (R63). -/
def Reg.TB_PINPATH_IN_PATH : Fld := ⟨0x0A1, 0, 12, .ro, false, 0x0⟩

/-- The fields of 02_timebase.md R63. -/
def Reg.fieldsR63 : List Fld := [
  Reg.TB_PINSEL, Reg.TB_PINPATH_CAL_FAIL, Reg.TB_PINPATH_OUT_PATH, Reg.TB_PINPATH_IN_PATH]

/-! Registers of 03_receive.md R65. -/

/-- Entry 0 to 63, or 0xFFFF; other values return E_VALUE (R65). -/
def Reg.PL_SEL : Fld := ⟨0x300, 0, 16, .rw, false, 0x0⟩

/-- Nominal bit period, in units of 1/16 tick (2.44140625 ps); reset is 1 Mbaud (R65). -/
def Reg.PL_PERIOD : Fld := ⟨0x301, 0, 32, .rw, true, 0x64000⟩

/-- Record format: 0 stamped, 1 compact, as *Host Link and Rings* encodes (R65). -/
def Reg.PL_FRAME_FMT : Fld := ⟨0x302, 16, 1, .rw, true, 0x0⟩

/-- 0 normal: idle (mark) high, start bit low; 1 inverted (R65). -/
def Reg.PL_FRAME_POL : Fld := ⟨0x302, 13, 1, .rw, true, 0x0⟩

/-- 0 least significant bit first; 1 most significant bit first (R65). -/
def Reg.PL_FRAME_ORDER : Fld := ⟨0x302, 12, 1, .rw, true, 0x0⟩

/-- 0: 1 stop bit; 1: 1.5; 2: 2; 3 returns E_VALUE (R65). -/
def Reg.PL_FRAME_STOP : Fld := ⟨0x302, 8, 2, .rw, true, 0x0⟩

/-- 0 none, 1 even, 2 odd, 3 mark, 4 space; 5 to 7 return E_VALUE (R65). -/
def Reg.PL_FRAME_PARITY : Fld := ⟨0x302, 4, 3, .rw, true, 0x0⟩

/-- Data bits, 5 to 9 (R65). -/
def Reg.PL_FRAME_DATA : Fld := ⟨0x302, 0, 4, .rw, true, 0x8⟩

/-- 0 AUTO, 1 NEVER, 2 ALWAYS; 3 returns E_VALUE (R65). -/
def Reg.PL_ACQ_AUTODARK : Fld := ⟨0x303, 24, 2, .rw, true, 0x0⟩

/-- Confirmation count K, 2 to 16 (R65). -/
def Reg.PL_ACQ_K : Fld := ⟨0x303, 16, 5, .rw, true, 0x4⟩

/-- Lane count L: 0 one, 1 two, 2 four, 3 eight (R65). -/
def Reg.PL_ACQ_LANES : Fld := ⟨0x303, 8, 2, .rw, true, 0x0⟩

/-- Acquisition range A, 0 to 35, in % of nominal baud (R65). -/
def Reg.PL_ACQ_RANGE : Fld := ⟨0x303, 0, 6, .rw, true, 0x0⟩

/-- 0 none, 1 9-bit multidrop, 2 idle-line; 3 returns E_VALUE (R65). -/
def Reg.PL_LINK_ADDR : Fld := ⟨0x304, 2, 2, .rw, true, 0x0⟩

/-- 0 none, 1 RTS/CTS, 2 XON/XOFF; 3 returns E_VALUE (R65). -/
def Reg.PL_LINK_FLOW : Fld := ⟨0x304, 0, 2, .rw, true, 0x0⟩

/-- Ports naming this entry with PT_RXCFG_EN or PT_TXCFG_EN at 1, each port counted once (R65). -/
def Reg.PL_STAT_USE : Fld := ⟨0x305, 16, 12, .ro, false, 0x0⟩

/-- Generation: incremented once by each accepted write, single or burst, that reaches any of words 0x301 to 0x304 of this entry, even when the values do not change; wraps (R65). -/
def Reg.PL_STAT_GEN : Fld := ⟨0x305, 0, 16, .ro, false, 0x0⟩

/-- The fields of 03_receive.md R65. -/
def Reg.fieldsR65 : List Fld := [
  Reg.PL_SEL, Reg.PL_PERIOD, Reg.PL_FRAME_FMT, Reg.PL_FRAME_POL, Reg.PL_FRAME_ORDER, Reg.PL_FRAME_STOP,
  Reg.PL_FRAME_PARITY, Reg.PL_FRAME_DATA, Reg.PL_ACQ_AUTODARK, Reg.PL_ACQ_K, Reg.PL_ACQ_LANES, Reg.PL_ACQ_RANGE,
  Reg.PL_LINK_ADDR, Reg.PL_LINK_FLOW, Reg.PL_STAT_USE, Reg.PL_STAT_GEN]

/-! Registers of 03_receive.md R97. -/

/-- Port 0 to 2047, or 0xFFFF; other values return E_VALUE (R97). -/
def Reg.PT_SEL : Fld := ⟨0x400, 0, 16, .rw, false, 0x0⟩

/-- Write a meter record at each gate close (R97). -/
def Reg.PT_RXCFG_FMREC : Fld := ⟨0x401, 13, 1, .rw, true, 0x0⟩

/-- Receive enable (R97). -/
def Reg.PT_RXCFG_EN : Fld := ⟨0x401, 8, 1, .rw, true, 0x0⟩

/-- Palette entry (R97). -/
def Reg.PT_RXCFG_PAL : Fld := ⟨0x401, 0, 6, .rw, true, 0x0⟩

/-- Discard the partial gate (R97). -/
def Reg.PT_RXCTL_FMRESTART : Fld := ⟨0x402, 1, 1, .wo, true, 0x0⟩

/-- Start acquisition under R90 (R97). -/
def Reg.PT_RXCTL_REACQ : Fld := ⟨0x402, 0, 1, .wo, true, 0x0⟩

/-- Recorder overflow under R92 (R97). -/
def Reg.PT_RXSTAT_ALERT_OV : Fld := ⟨0x403, 18, 1, .w1c, false, 0x0⟩

/-- Re-acquisition under R89 (R97). -/
def Reg.PT_RXSTAT_ALERT_RA : Fld := ⟨0x403, 17, 1, .w1c, false, 0x0⟩

/-- Edge-only fallback under R86 (R97). -/
def Reg.PT_RXSTAT_ALERT_FB : Fld := ⟨0x403, 16, 1, .w1c, false, 0x0⟩

/-- Named entry is direct (R97). -/
def Reg.PT_RXSTAT_DIRECT : Fld := ⟨0x403, 8, 1, .ro, false, 0x0⟩

/-- Lane of the last win (R97). -/
def Reg.PT_RXSTAT_WINNER : Fld := ⟨0x403, 4, 3, .ro, false, 0x0⟩

/-- 0 OFF, 1 STARVED, 2 ACQ, 3 TRACK, 4 REACQ, 5 EDGE_ONLY, 6 HELD (R97). -/
def Reg.PT_RXSTAT_STATE : Fld := ⟨0x403, 0, 3, .ro, false, 0x0⟩

/-- Tracked P[31:0], 2^−16 tick; read latches P[47:32] (R97). -/
def Reg.PT_RXPER_LO : Fld := ⟨0x404, 0, 32, .ro, false, 0x0⟩

/-- Latched P[47:32] (R97). -/
def Reg.PT_RXPER_HI : Fld := ⟨0x405, 0, 16, .ro, false, 0x0⟩

/-- Gate in transitions, 10,000 to 1,048,575; smaller values return E_VALUE (R97). -/
def Reg.PT_FMGATE : Fld := ⟨0x406, 0, 20, .rw, true, 0x2710⟩

/-- Result period [31:0]; read copies the whole result set to holding (R97). -/
def Reg.PT_FM_PER_LO : Fld := ⟨0x407, 0, 32, .ro, false, 0x0⟩

/-- Gates completed; wraps; from holding (R97). -/
def Reg.PT_FM_SEQ : Fld := ⟨0x408, 16, 16, .ro, false, 0x0⟩

/-- Result period [47:32], from holding (R97). -/
def Reg.PT_FM_PER_HI : Fld := ⟨0x408, 0, 16, .ro, false, 0x0⟩

/-- Baud deviation, ppm, two's complement, from holding (R97). -/
def Reg.PT_FM_PPM : Fld := ⟨0x409, 0, 32, .ro, false, 0x0⟩

/-- Gate's last transition stamp [31:0], from holding (R97). -/
def Reg.PT_FM_STAMP_LO : Fld := ⟨0x40A, 0, 32, .ro, false, 0x0⟩

/-- Stamp [63:32], from holding (R97). -/
def Reg.PT_FM_STAMP_HI : Fld := ⟨0x40B, 0, 32, .ro, false, 0x0⟩

/-- E of the gate, from holding (R97). -/
def Reg.PT_FM_EDGES : Fld := ⟨0x40C, 0, 24, .ro, false, 0x0⟩

/-- Confirmed characters; wraps (R97). -/
def Reg.PT_RXCNT : Fld := ⟨0x40D, 0, 32, .ro, false, 0x0⟩

/-- Confirmed with PE; saturates (R97). -/
def Reg.PT_RXERR1_PE : Fld := ⟨0x40E, 16, 16, .ro, false, 0x0⟩

/-- Confirmed with FE; saturates (R97). -/
def Reg.PT_RXERR1_FE : Fld := ⟨0x40E, 0, 16, .ro, false, 0x0⟩

/-- Recorder overflows; saturates (R97). -/
def Reg.PT_RXERR2_RECOVF : Fld := ⟨0x40F, 28, 4, .ro, false, 0x0⟩

/-- Edge-only fallbacks; saturates (R97). -/
def Reg.PT_RXERR2_FALLBACK : Fld := ⟨0x40F, 24, 4, .ro, false, 0x0⟩

/-- Re-acquisitions; saturates (R97). -/
def Reg.PT_RXERR2_REACQ : Fld := ⟨0x40F, 16, 8, .ro, false, 0x0⟩

/-- Confirmed with NOISE; saturates (R97). -/
def Reg.PT_RXERR2_NOISE : Fld := ⟨0x40F, 8, 8, .ro, false, 0x0⟩

/-- Breaks; saturates (R97). -/
def Reg.PT_RXERR2_BREAK : Fld := ⟨0x40F, 0, 8, .ro, false, 0x0⟩

/-- Ports with any alert bit set (R97). -/
def Reg.PT_RXALERT_COUNT : Fld := ⟨0x4F0, 16, 12, .ro, false, 0x0⟩

/-- Lowest such port, or 0xFFFF (R97). -/
def Reg.PT_RXALERT_FIRST : Fld := ⟨0x4F0, 0, 16, .ro, false, 0xFFFF⟩

/-- The fields of 03_receive.md R97. -/
def Reg.fieldsR97 : List Fld := [
  Reg.PT_SEL, Reg.PT_RXCFG_FMREC, Reg.PT_RXCFG_EN, Reg.PT_RXCFG_PAL, Reg.PT_RXCTL_FMRESTART, Reg.PT_RXCTL_REACQ,
  Reg.PT_RXSTAT_ALERT_OV, Reg.PT_RXSTAT_ALERT_RA, Reg.PT_RXSTAT_ALERT_FB, Reg.PT_RXSTAT_DIRECT,
  Reg.PT_RXSTAT_WINNER, Reg.PT_RXSTAT_STATE, Reg.PT_RXPER_LO, Reg.PT_RXPER_HI, Reg.PT_FMGATE, Reg.PT_FM_PER_LO,
  Reg.PT_FM_SEQ, Reg.PT_FM_PER_HI, Reg.PT_FM_PPM, Reg.PT_FM_STAMP_LO, Reg.PT_FM_STAMP_HI, Reg.PT_FM_EDGES,
  Reg.PT_RXCNT, Reg.PT_RXERR1_PE, Reg.PT_RXERR1_FE, Reg.PT_RXERR2_RECOVF, Reg.PT_RXERR2_FALLBACK,
  Reg.PT_RXERR2_REACQ, Reg.PT_RXERR2_NOISE, Reg.PT_RXERR2_BREAK, Reg.PT_RXALERT_COUNT, Reg.PT_RXALERT_FIRST]

/-! Registers of 04_provisional.md R127. -/

/-- Wins, counted whether or not any character was shown; wraps (R127). -/
def Reg.PT_PVWIN : Fld := ⟨0x410, 0, 32, .ro, false, 0x0⟩

/-- Serials varnished, j summed over wins; wraps (R127). -/
def Reg.PT_PVVARN : Fld := ⟨0x411, 0, 32, .ro, false, 0x0⟩

/-- Serials retracted by Pentimento of any reason; wraps (R127). -/
def Reg.PT_PVRETR : Fld := ⟨0x412, 0, 32, .ro, false, 0x0⟩

/-- Acquisitions ended under R117 with a non-empty shown list; saturates (R127). -/
def Reg.PT_PVABAND : Fld := ⟨0x413, 0, 16, .ro, false, 0x0⟩

/-- The fields of 04_provisional.md R127. -/
def Reg.fieldsR127 : List Fld := [Reg.PT_PVWIN, Reg.PT_PVVARN, Reg.PT_PVRETR, Reg.PT_PVABAND]

/-! Registers of 05_transmit_flow_partners.md R163. -/

/-- Submission ring whose descriptors may name this port (R163). -/
def Reg.PT_TXCFG_RING : Fld := ⟨0x414, 16, 8, .rw, true, 0x0⟩

/-- Write echo records under R139 (R163). -/
def Reg.PT_TXCFG_ECHO : Fld := ⟨0x414, 10, 1, .rw, true, 0x0⟩

/-- P_tx follows the tracked period under R133 (R163). -/
def Reg.PT_TXCFG_FOLLOW : Fld := ⟨0x414, 9, 1, .rw, true, 0x0⟩

/-- Transmit enable (R163). -/
def Reg.PT_TXCFG_EN : Fld := ⟨0x414, 8, 1, .rw, true, 0x0⟩

/-- Clear XOFF_RX (R163). -/
def Reg.PT_TXCTL_RESUME : Fld := ⟨0x415, 1, 1, .wo, true, 0x0⟩

/-- Flush under R140 (R163). -/
def Reg.PT_TXCTL_FLUSH : Fld := ⟨0x415, 0, 1, .wo, true, 0x0⟩

/-- Descriptors fetched and not completed; saturates (R163). -/
def Reg.PT_TXSTAT_QUEUED : Fld := ⟨0x416, 16, 8, .ro, false, 0x0⟩

/-- RTS asserted (R163). -/
def Reg.PT_TXSTAT_RTS : Fld := ⟨0x416, 7, 1, .ro, false, 0x0⟩

/-- CTS read as asserted (R163). -/
def Reg.PT_TXSTAT_CTS : Fld := ⟨0x416, 6, 1, .ro, false, 0x0⟩

/-- XOFF sent, no XON since (R163). -/
def Reg.PT_TXSTAT_XOFF_TX : Fld := ⟨0x416, 5, 1, .ro, false, 0x0⟩

/-- Die's XOFF in force (R163). -/
def Reg.PT_TXSTAT_XOFF_RX : Fld := ⟨0x416, 4, 1, .ro, false, 0x0⟩

/-- 0 OFF, 1 STARVED, 2 IDLE, 3 WAIT, 4 SEND, 5 FLOW, 6 HELD (R163). -/
def Reg.PT_TXSTAT_STATE : Fld := ⟨0x416, 0, 3, .ro, false, 0x0⟩

/-- Characters sent, of every origin; wraps (R163). -/
def Reg.PT_TXCNT : Fld := ⟨0x417, 0, 32, .ro, false, 0x0⟩

/-- Descriptors flushed; saturates (R163). -/
def Reg.PT_TXERR_FLUSHED : Fld := ⟨0x418, 16, 16, .ro, false, 0x0⟩

/-- Descriptors late; saturates (R163). -/
def Reg.PT_TXERR_LATE : Fld := ⟨0x418, 0, 16, .ro, false, 0x0⟩

/-- Deliver received XON/XOFF (R163). -/
def Reg.PT_FCCFG_KEEPXO : Fld := ⟨0x419, 31, 1, .rw, true, 0x0⟩

/-- 0: CTS asserted low; 1: high (R163). -/
def Reg.PT_FCCFG_CTSPOL : Fld := ⟨0x419, 30, 1, .rw, true, 0x0⟩

/-- 0: RTS asserted low; 1: high (R163). -/
def Reg.PT_FCCFG_RTSPOL : Fld := ⟨0x419, 29, 1, .rw, true, 0x0⟩

/-- XOFF character (R163). -/
def Reg.PT_FCCFG_XOFF : Fld := ⟨0x419, 16, 9, .rw, true, 0x13⟩

/-- XON character; equal to XOFF returns E_VALUE (R163). -/
def Reg.PT_FCCFG_XON : Fld := ⟨0x419, 0, 9, .rw, true, 0x11⟩

/-- Release at free space ≥ ON × 64 B (R163). -/
def Reg.PT_FCTHR_ON : Fld := ⟨0x41A, 16, 16, .rw, true, 0x10⟩

/-- Stop at free space ≤ OFF × 64 B; ON ≤ OFF returns E_VALUE (R163). -/
def Reg.PT_FCTHR_OFF : Fld := ⟨0x41A, 0, 16, .rw, true, 0x8⟩

/-- XON/XOFF recognised; wraps (R163). -/
def Reg.PT_FCCNT_RECV : Fld := ⟨0x41B, 16, 16, .ro, false, 0x0⟩

/-- XON/XOFF sent; wraps (R163). -/
def Reg.PT_FCCNT_SENT : Fld := ⟨0x41B, 0, 16, .ro, false, 0x0⟩

/-- Receive share of quota, eighths, 0 to 8 (R163). -/
def Reg.PT_BUFCFG_RXSHARE : Fld := ⟨0x41C, 8, 4, .rw, true, 0x6⟩

/-- Reserve quota, 64 KiB steps, 0 to 128 (R163). -/
def Reg.PT_BUFCFG_QUOTA : Fld := ⟨0x41C, 0, 8, .rw, true, 0x0⟩

/-- Free receive space, 64 B units (R163). -/
def Reg.PT_BUFRX_FREE : Fld := ⟨0x41D, 0, 18, .ro, false, 0x20⟩

/-- Used transmit space, 64 B units, rounded up (R163). -/
def Reg.PT_BUFTX_FILL : Fld := ⟨0x41E, 0, 18, .ro, false, 0x0⟩

/-- Receive entries lost under R149; saturates (R163). -/
def Reg.PT_RXLOST : Fld := ⟨0x41F, 0, 32, .ro, false, 0x0⟩

/-- Deliver address characters (R163). -/
def Reg.PT_PTCFG_KEEPADDR : Fld := ⟨0x420, 9, 1, .rw, true, 0x0⟩

/-- Partner 3 is catch-all (R163). -/
def Reg.PT_PTCFG_CATCH : Fld := ⟨0x420, 8, 1, .rw, true, 0x0⟩

/-- Partner k enabled; k = word − 0x421 (R163). -/
def Reg.PT_PTADDR_EN : Fld := ⟨0x421, 16, 1, .rw, true, 0x0⟩

/-- Compare mask (R163). -/
def Reg.PT_PTADDR_MASK : Fld := ⟨0x421, 8, 8, .rw, true, 0xFF⟩

/-- Partner address (R163). -/
def Reg.PT_PTADDR_ADDR : Fld := ⟨0x421, 0, 8, .rw, true, 0x0⟩

/-- RINGk in bits [8k+7:8k] (R163). -/
def Reg.PT_PTRING : Fld := ⟨0x425, 0, 32, .rw, true, 0x0⟩

/-- Data characters discarded under R151; saturates (R163). -/
def Reg.PT_PTDISC : Fld := ⟨0x426, 0, 32, .ro, false, 0x0⟩

/-- Selected partner 0 to 3, or 7 for none (R163). -/
def Reg.PT_PTCUR : Fld := ⟨0x427, 0, 3, .ro, false, 0x7⟩

/-- The fields of 05_transmit_flow_partners.md R163. -/
def Reg.fieldsR163 : List Fld := [
  Reg.PT_TXCFG_RING, Reg.PT_TXCFG_ECHO, Reg.PT_TXCFG_FOLLOW, Reg.PT_TXCFG_EN, Reg.PT_TXCTL_RESUME,
  Reg.PT_TXCTL_FLUSH, Reg.PT_TXSTAT_QUEUED, Reg.PT_TXSTAT_RTS, Reg.PT_TXSTAT_CTS, Reg.PT_TXSTAT_XOFF_TX,
  Reg.PT_TXSTAT_XOFF_RX, Reg.PT_TXSTAT_STATE, Reg.PT_TXCNT, Reg.PT_TXERR_FLUSHED, Reg.PT_TXERR_LATE,
  Reg.PT_FCCFG_KEEPXO, Reg.PT_FCCFG_CTSPOL, Reg.PT_FCCFG_RTSPOL, Reg.PT_FCCFG_XOFF, Reg.PT_FCCFG_XON,
  Reg.PT_FCTHR_ON, Reg.PT_FCTHR_OFF, Reg.PT_FCCNT_RECV, Reg.PT_FCCNT_SENT, Reg.PT_BUFCFG_RXSHARE,
  Reg.PT_BUFCFG_QUOTA, Reg.PT_BUFRX_FREE, Reg.PT_BUFTX_FILL, Reg.PT_RXLOST, Reg.PT_PTCFG_KEEPADDR,
  Reg.PT_PTCFG_CATCH, Reg.PT_PTADDR_EN, Reg.PT_PTADDR_MASK, Reg.PT_PTADDR_ADDR, Reg.PT_PTRING, Reg.PT_PTDISC]

/-- The fields of 05_transmit_flow_partners.md R163. -/
def Reg.fieldsR163b : List Fld := [Reg.PT_PTCUR]

/-! Registers of 05_transmit_flow_partners.md R164. -/

/-- Port 0 to 2047, or 0xFFFF (R164). -/
def Reg.CQ_SEL : Fld := ⟨0x900, 0, 16, .rw, false, 0x0⟩

/-- Empty the windows (R164). -/
def Reg.CQ_CTL_CLRHIST : Fld := ⟨0x901, 1, 1, .wo, true, 0x0⟩

/-- Cue enable for the port (R164). -/
def Reg.CQ_CTL_EN : Fld := ⟨0x901, 0, 1, .rw, true, 0x0⟩

/-- Replies dropped; saturates (R164). -/
def Reg.CQ_STAT_RDROP : Fld := ⟨0x902, 24, 8, .ro, false, 0x0⟩

/-- Actions skipped; saturates (R164). -/
def Reg.CQ_STAT_SKIP : Fld := ⟨0x902, 16, 8, .ro, false, 0x0⟩

/-- Late matches; saturates (R164). -/
def Reg.CQ_STAT_LATEM : Fld := ⟨0x902, 8, 8, .ro, false, 0x0⟩

/-- Rule enable (R164). -/
def Reg.CQ_RCTL_EN : Fld := ⟨0x910, 31, 1, .rw, true, 0x0⟩

/-- Act on late matches (R164). -/
def Reg.CQ_RCTL_LATEOK : Fld := ⟨0x910, 30, 1, .rw, true, 0x0⟩

/-- Address character before reply (R164). -/
def Reg.CQ_RCTL_ADDR : Fld := ⟨0x910, 29, 1, .rw, true, 0x0⟩

/-- 0 to 3, or 4 any; 5 to 7 return E_VALUE (R164). -/
def Reg.CQ_RCTL_PARTNER : Fld := ⟨0x910, 24, 3, .rw, true, 0x4⟩

/-- Window, 1 to 16 (R164). -/
def Reg.CQ_RCTL_LEN : Fld := ⟨0x910, 16, 5, .rw, true, 0x1⟩

/-- Bit 0 REPLY, 1 GPIO, 2 ARM, 3 RAISE, 4 EVENT (R164). -/
def Reg.CQ_RCTL_ACT : Fld := ⟨0x910, 0, 5, .rw, true, 0x0⟩

/-- Pattern bytes 0 to 15 (R164). -/
def Reg.CQ_RPAT : Fld := ⟨0x911, 0, 32, .rw, true, 0x0⟩

/-- Mask bytes 0 to 15 (R164). -/
def Reg.CQ_RMASK : Fld := ⟨0x915, 0, 32, .rw, true, 0xFFFFFFFF⟩

/-- Reply bytes, 1 to 256 (R164). -/
def Reg.CQ_RREPLY_LEN : Fld := ⟨0x919, 16, 9, .rw, true, 0x1⟩

/-- Offset in reply store (R164). -/
def Reg.CQ_RREPLY_OFS : Fld := ⟨0x919, 0, 8, .rw, true, 0x0⟩

/-- RAISE target (R164). -/
def Reg.CQ_RACT_TGT : Fld := ⟨0x91A, 24, 4, .rw, true, 0x0⟩

/-- RAISE source 512 + PSRC (R164). -/
def Reg.CQ_RACT_PSRC : Fld := ⟨0x91A, 16, 5, .rw, true, 0x0⟩

/-- GPIO level (R164). -/
def Reg.CQ_RACT_GPIO_VAL : Fld := ⟨0x91A, 8, 1, .rw, true, 0x0⟩

/-- Station pin k to arm (R164). -/
def Reg.CQ_RACT_ARM_K : Fld := ⟨0x91A, 4, 2, .rw, true, 0x0⟩

/-- Station pin k to drive (R164). -/
def Reg.CQ_RACT_GPIO_K : Fld := ⟨0x91A, 0, 2, .rw, true, 0x0⟩

/-- Event code (R164). -/
def Reg.CQ_REVENT_CODE : Fld := ⟨0x91B, 0, 16, .rw, true, 0x0⟩

/-- Matches; wraps (R164). -/
def Reg.CQ_RCNT : Fld := ⟨0x91C, 0, 32, .ro, false, 0x0⟩

/-- Reply store (R164). -/
def Reg.CQ_REPLY : Fld := ⟨0x990, 0, 32, .rw, true, 0x0⟩

/-- The fields of 05_transmit_flow_partners.md R164. -/
def Reg.fieldsR164 : List Fld := [
  Reg.CQ_SEL, Reg.CQ_CTL_CLRHIST, Reg.CQ_CTL_EN, Reg.CQ_STAT_RDROP, Reg.CQ_STAT_SKIP, Reg.CQ_STAT_LATEM,
  Reg.CQ_RCTL_EN, Reg.CQ_RCTL_LATEOK, Reg.CQ_RCTL_ADDR, Reg.CQ_RCTL_PARTNER, Reg.CQ_RCTL_LEN, Reg.CQ_RCTL_ACT,
  Reg.CQ_RPAT, Reg.CQ_RMASK, Reg.CQ_RREPLY_LEN, Reg.CQ_RREPLY_OFS, Reg.CQ_RACT_TGT, Reg.CQ_RACT_PSRC,
  Reg.CQ_RACT_GPIO_VAL, Reg.CQ_RACT_ARM_K, Reg.CQ_RACT_GPIO_K, Reg.CQ_REVENT_CODE, Reg.CQ_RCNT, Reg.CQ_REPLY]

/-! Registers of 06_host_link_rings.md R209. -/

/-- Ring 0 to 255, or 0xFFFF; other values return E_VALUE (R209). -/
def Reg.RG_SEL : Fld := ⟨0x500, 0, 16, .rw, false, 0x0⟩

/-- Two-request writes under R203 (R209). -/
def Reg.RG_CFG_SPLIT : Fld := ⟨0x501, 29, 1, .rw, true, 0x0⟩

/-- Early view; completion rings only (R209). -/
def Reg.RG_CFG_EARLY : Fld := ⟨0x501, 28, 1, .rw, true, 0x0⟩

/-- Source events under R204; 3 returns E_VALUE (R209). -/
def Reg.RG_CFG_IRQ : Fld := ⟨0x501, 24, 2, .rw, true, 0x1⟩

/-- 0 LOSSLESS, 1 BOUNDED, 2 BULK; 3 returns E_VALUE (R209). -/
def Reg.RG_CFG_CLASS : Fld := ⟨0x501, 20, 2, .rw, true, 0x0⟩

/-- 0 submission, 1 completion, 2 event; 3 returns E_VALUE (R209). -/
def Reg.RG_CFG_KIND : Fld := ⟨0x501, 16, 2, .rw, true, 0x1⟩

/-- Log2 of slots, 6 to 20 (R209). -/
def Reg.RG_CFG_LOG2 : Fld := ⟨0x501, 8, 5, .rw, true, 0x6⟩

/-- Enable under R219 (R209). -/
def Reg.RG_CFG_EN : Fld := ⟨0x501, 0, 1, .rw, true, 0x0⟩

/-- Ring base address [31:12] (R209). -/
def Reg.RG_BASE_LO : Fld := ⟨0x502, 12, 20, .rw, true, 0x0⟩

/-- Ring base address [63:32] (R209). -/
def Reg.RG_BASE_HI : Fld := ⟨0x503, 0, 32, .rw, true, 0x0⟩

/-- Horizon, 64 DCLK (40 ns) units, 30 to 1,250 (R209). -/
def Reg.RG_HZ : Fld := ⟨0x504, 0, 11, .rw, true, 0x32⟩

/-- BOUNDED latency bound, µs (R209). -/
def Reg.RG_QOS_LAT : Fld := ⟨0x505, 16, 16, .rw, true, 0x64⟩

/-- BULK weight, 1 to 255 (R209). -/
def Reg.RG_QOS_WEIGHT : Fld := ⟨0x505, 0, 8, .rw, true, 0x1⟩

/-- Completion ring of a submission ring (R209). -/
def Reg.RG_PAIR : Fld := ⟨0x506, 0, 8, .rw, true, 0x0⟩

/-- Read failure under R208 (R209). -/
def Reg.RG_STAT_FAULT_RD : Fld := ⟨0x507, 10, 1, .w1c, false, 0x0⟩

/-- BREACH record written (R209). -/
def Reg.RG_STAT_BREACH : Fld := ⟨0x507, 9, 1, .w1c, false, 0x0⟩

/-- GAP record written (R209). -/
def Reg.RG_STAT_GAP : Fld := ⟨0x507, 8, 1, .w1c, false, 0x0⟩

/-- 0 OFF, 1 ACTIVE, 2 DRAINING, 3 FAULT (R209). -/
def Reg.RG_STAT_STATE : Fld := ⟨0x507, 0, 3, .ro, false, 0x0⟩

/-- Last accepted host count (R209). -/
def Reg.RG_HOST : Fld := ⟨0x508, 0, 32, .ro, false, 0x0⟩

/-- Device count under R174 (R209). -/
def Reg.RG_DEV : Fld := ⟨0x509, 0, 32, .ro, false, 0x0⟩

/-- Records in staging for the ring (R209). -/
def Reg.RG_HELD : Fld := ⟨0x50A, 0, 17, .ro, false, 0x0⟩

/-- BREACH records; saturates (R209). -/
def Reg.RG_ERR_BREACH : Fld := ⟨0x50B, 16, 16, .ro, false, 0x0⟩

/-- Doorbells rejected under R171; saturates (R209). -/
def Reg.RG_ERR_DB : Fld := ⟨0x50B, 0, 16, .ro, false, 0x0⟩

/-- Sum of LOST and LOSTX over GAP records; saturates (R209). -/
def Reg.RG_GAPLOST : Fld := ⟨0x50C, 0, 32, .ro, false, 0x0⟩

/-- Provisional records written; wraps (R209). -/
def Reg.RG_WRITTEN : Fld := ⟨0x50D, 0, 32, .ro, false, 0x0⟩

/-- The fields of 06_host_link_rings.md R209. -/
def Reg.fieldsR209 : List Fld := [
  Reg.RG_SEL, Reg.RG_CFG_SPLIT, Reg.RG_CFG_EARLY, Reg.RG_CFG_IRQ, Reg.RG_CFG_CLASS, Reg.RG_CFG_KIND,
  Reg.RG_CFG_LOG2, Reg.RG_CFG_EN, Reg.RG_BASE_LO, Reg.RG_BASE_HI, Reg.RG_HZ, Reg.RG_QOS_LAT, Reg.RG_QOS_WEIGHT,
  Reg.RG_PAIR, Reg.RG_STAT_FAULT_RD, Reg.RG_STAT_BREACH, Reg.RG_STAT_GAP, Reg.RG_STAT_STATE, Reg.RG_HOST,
  Reg.RG_DEV, Reg.RG_HELD, Reg.RG_ERR_BREACH, Reg.RG_ERR_DB, Reg.RG_GAPLOST, Reg.RG_WRITTEN]

/-! Registers of 06_host_link_rings.md R211. -/

/-- EVENT records written (R211). -/
def Reg.RG_EVRING_EN : Fld := ⟨0x5F0, 8, 1, .rw, true, 0x0⟩

/-- Event ring for EVENT records; must be of kind event when the write leaves RG_EVRING_EN at 1 (R211). -/
def Reg.RG_EVRING_RING : Fld := ⟨0x5F0, 0, 8, .rw, true, 0x0⟩

/-- MSI-X Enable 1 and Function Mask 0 (R211). -/
def Reg.RG_LINK_MSIX : Fld := ⟨0x5F1, 16, 1, .ro, false, 0x0⟩

/-- Bus Master Enable (R211). -/
def Reg.RG_LINK_BME : Fld := ⟨0x5F1, 15, 1, .ro, false, 0x0⟩

/-- FLIT mode (R211). -/
def Reg.RG_LINK_FLIT : Fld := ⟨0x5F1, 14, 1, .ro, false, 0x0⟩

/-- 0 D0, 3 D3hot (R211). -/
def Reg.RG_LINK_DSTATE : Fld := ⟨0x5F1, 12, 2, .ro, false, 0x0⟩

/-- 0 L0, 1 L1, 2 L2 or L3 ready, 3 down (R211). -/
def Reg.RG_LINK_PM : Fld := ⟨0x5F1, 10, 2, .ro, false, 0x3⟩

/-- Lanes, 1 to 16 (R211). -/
def Reg.RG_LINK_WIDTH : Fld := ⟨0x5F1, 4, 6, .ro, false, 0x0⟩

/-- 1 to 6 for 2.5, 5, 8, 16, 32 and 64 GT/s (R211). -/
def Reg.RG_LINK_SPEED : Fld := ⟨0x5F1, 0, 4, .ro, false, 0x0⟩

/-- Link-down events since POR; saturates (R211). -/
def Reg.RG_LINK_DOWNS : Fld := ⟨0x5F2, 16, 16, .ro, false, 0x0⟩

/-- Wake requests issued; saturates (R211). -/
def Reg.RG_LINK_PMES : Fld := ⟨0x5F2, 0, 16, .ro, false, 0x0⟩

/-- The fields of 06_host_link_rings.md R211. -/
def Reg.fieldsR211 : List Fld := [
  Reg.RG_EVRING_EN, Reg.RG_EVRING_RING, Reg.RG_LINK_MSIX, Reg.RG_LINK_BME, Reg.RG_LINK_FLIT, Reg.RG_LINK_DSTATE,
  Reg.RG_LINK_PM, Reg.RG_LINK_WIDTH, Reg.RG_LINK_SPEED, Reg.RG_LINK_DOWNS, Reg.RG_LINK_PMES]

/-! Registers of 07_coherence.md R221. -/

/-- Flush reads outstanding at most, 1 to 8; other values return E_VALUE (R221). -/
def Reg.GL_CMTCFG_MAXOUT : Fld := ⟨0x008, 8, 4, .rw, false, 0x4⟩

/-- Least spacing of flush reads, 64 DCLK (40 ns) units, 1 to 255; 0 returns E_VALUE (R221). -/
def Reg.GL_CMTCFG_PERIOD : Fld := ⟨0x008, 0, 8, .rw, false, 0x4⟩

/-- Issue-to-completion time of the last successful flush read, 64 DCLK (40 ns) units; saturates (R221). -/
def Reg.GL_CMTSTAT_LASTLAT : Fld := ⟨0x009, 16, 16, .ro, false, 0x0⟩

/-- Flush reads outstanding (R221). -/
def Reg.GL_CMTSTAT_OUT : Fld := ⟨0x009, 0, 4, .ro, false, 0x0⟩

/-- Flush reads completed successfully; wraps (R221). -/
def Reg.GL_CMTCNT : Fld := ⟨0x00A, 0, 32, .ro, false, 0x0⟩

/-- Flush reads failed under R220; saturates (R221). -/
def Reg.GL_CMTERR_FAIL : Fld := ⟨0x00B, 0, 16, .ro, false, 0x0⟩

/-- The fields of 07_coherence.md R221. -/
def Reg.fieldsR221 : List Fld := [
  Reg.GL_CMTCFG_MAXOUT, Reg.GL_CMTCFG_PERIOD, Reg.GL_CMTSTAT_LASTLAT, Reg.GL_CMTSTAT_OUT, Reg.GL_CMTCNT,
  Reg.GL_CMTERR_FAIL]

/-! Registers of 08_diptych.md R266. -/

/-- Hinge-down timeout, µs, 6 to 255; a value less than HG_CFG_WDOG + 4 returns E_VALUE (R266). -/
def Reg.HG_CFG_HBTO : Fld := ⟨0x180, 16, 8, .rw, false, 0x10⟩

/-- Primary self-release watchdog, µs, 2 to 251 (R266). -/
def Reg.HG_CFG_WDOG : Fld := ⟨0x180, 8, 8, .rw, false, 0x8⟩

/-- Permit takeover from ENGAGING and DEGRADED (R266). -/
def Reg.HG_CFG_TKDEG : Fld := ⟨0x180, 2, 1, .rw, false, 0x1⟩

/-- 0 SOLO, 1 PRIMARY, 2 SHADOW; 3 returns E_VALUE; under R240 (R266). -/
def Reg.HG_CFG_ROLE : Fld := ⟨0x180, 0, 2, .rw, false, 0x0⟩

/-- Deliberate release under R257; E_STATE unless primary and ENGAGING, ENGAGED or DEGRADED (R266). -/
def Reg.HG_CTL_RELEASE : Fld := ⟨0x181, 2, 1, .wo, false, 0x0⟩

/-- Under R253 (R266). -/
def Reg.HG_CTL_DISENGAGE : Fld := ⟨0x181, 1, 1, .wo, false, 0x0⟩

/-- Under R251 (R266). -/
def Reg.HG_CTL_ENGAGE : Fld := ⟨0x181, 0, 1, .wo, false, 0x0⟩

/-- 0 none, 1 LINK, 2 ROLE, 3 EPOCH, 4 BUSY, 5 TIMEOUT (R266). -/
def Reg.HG_STAT_ENGFAIL : Fld := ⟨0x182, 28, 4, .ro, false, 0x0⟩

/-- Claim blocked under R255 (R266). -/
def Reg.HG_STAT_EV_BLOCK : Fld := ⟨0x182, 27, 1, .w1c, false, 0x0⟩

/-- Disagreeing block under R245 (R266). -/
def Reg.HG_STAT_EV_DIS : Fld := ⟨0x182, 26, 1, .w1c, false, 0x0⟩

/-- Hinge declared down (R266). -/
def Reg.HG_STAT_EV_DOWN : Fld := ⟨0x182, 25, 1, .w1c, false, 0x0⟩

/-- Takeover (R266). -/
def Reg.HG_STAT_EV_TK : Fld := ⟨0x182, 24, 1, .w1c, false, 0x0⟩

/-- Last takeover under R264 (R266). -/
def Reg.HG_STAT_TKDEG : Fld := ⟨0x182, 13, 1, .ro, false, 0x0⟩

/-- Eligible, waiting under R255 (R266). -/
def Reg.HG_STAT_BLOCKED : Fld := ⟨0x182, 12, 1, .ro, false, 0x0⟩

/-- Claim held; drivers may be enabled (R266). -/
def Reg.HG_STAT_DRIVE : Fld := ⟨0x182, 11, 1, .ro, false, 0x0⟩

/-- 1 while HG_RELO holds (R266). -/
def Reg.HG_STAT_RELO : Fld := ⟨0x182, 10, 1, .ro, false, 0x0⟩

/-- 1 while HG_RELI reads released (R266). -/
def Reg.HG_STAT_RELI : Fld := ⟨0x182, 9, 1, .ro, false, 0x1⟩

/-- Hinge up (R266). -/
def Reg.HG_STAT_LINK : Fld := ⟨0x182, 8, 1, .ro, false, 0x0⟩

/-- Sampled strap, coded as HG_CFG_ROLE (R266). -/
def Reg.HG_STAT_STRAP : Fld := ⟨0x182, 4, 2, .ro, false, 0x0⟩

/-- 0 SOLO, 1 DISENGAGED, 2 ENGAGING, 3 ENGAGED, 4 DEGRADED, 5 RELEASED, 6 TAKEN; SOLO when strapped SOLO, else DISENGAGED (R266). -/
def Reg.HG_STAT_STATE : Fld := ⟨0x182, 0, 3, .ro, false, 0x0⟩

/-- Hinge frames with CRC errors; saturates (R266). -/
def Reg.HG_LINK_CRCERR : Fld := ⟨0x183, 16, 16, .ro, false, 0x0⟩

/-- Retrainings; saturates (R266). -/
def Reg.HG_LINK_RETRAIN : Fld := ⟨0x183, 8, 8, .ro, false, 0x0⟩

/-- Bit n set while lane n is trained (R266). -/
def Reg.HG_LINK_LANES : Fld := ⟨0x183, 0, 8, .ro, false, 0x0⟩

/-- Heartbeats missed; saturates (R266). -/
def Reg.HG_HBMISS : Fld := ⟨0x184, 0, 32, .ro, false, 0x0⟩

/-- Entries in agreeing blocks; wraps (R266). -/
def Reg.HG_AGREE : Fld := ⟨0x185, 0, 32, .ro, false, 0x0⟩

/-- Disagreeing blocks; saturates (R266). -/
def Reg.HG_DISAGREE : Fld := ⟨0x186, 0, 32, .ro, false, 0x0⟩

/-- A disagreement is recorded (R266). -/
def Reg.HG_DISLAST_V : Fld := ⟨0x187, 31, 1, .ro, false, 0x0⟩

/-- Port of the last disagreeing block (R266). -/
def Reg.HG_DISLAST_PORT : Fld := ⟨0x187, 0, 11, .ro, false, 0x0⟩

/-- Its first entry's stamp [31:0]; read latches [63:32] (R266). -/
def Reg.HG_DISSTAMP_LO : Fld := ⟨0x188, 0, 32, .ro, false, 0x0⟩

/-- Latched [63:32] (R266). -/
def Reg.HG_DISSTAMP_HI : Fld := ⟨0x189, 0, 32, .ro, false, 0x0⟩

/-- Mirrored writes applied; wraps (R266). -/
def Reg.HG_MIRSEQ : Fld := ⟨0x18A, 0, 32, .ro, false, 0x0⟩

/-- Peer position known from a heartbeat (R266). -/
def Reg.HG_PEER_V : Fld := ⟨0x18B, 8, 1, .ro, false, 0x0⟩

/-- Peer's chain position (R266). -/
def Reg.HG_PEER_POS : Fld := ⟨0x18B, 0, 6, .ro, false, 0x0⟩

/-- Peer C minus own C, ticks, two's complement, under R239 (R266). -/
def Reg.HG_TOFS : Fld := ⟨0x18C, 0, 16, .ro, false, 0x0⟩

/-- First released sample of the last takeover [31:0]; read latches [63:32] (R266). -/
def Reg.HG_TKSTAMP_LO : Fld := ⟨0x18D, 0, 32, .ro, false, 0x0⟩

/-- Latched [63:32] (R266). -/
def Reg.HG_TKSTAMP_HI : Fld := ⟨0x18E, 0, 32, .ro, false, 0x0⟩

/-- Characters cut under R261 (R266). -/
def Reg.HG_TKINFO_CUT : Fld := ⟨0x18F, 16, 16, .ro, false, 0x0⟩

/-- 1 LOST, 2 DELIBERATE (R266). -/
def Reg.HG_TKINFO_CAUSE : Fld := ⟨0x18F, 14, 2, .ro, false, 0x0⟩

/-- DCLK from the first released sample to the last driver enable, 0 to 16,383; saturates at 0x3FFF, which covers the 6,400 DCLK of R259 and claims delayed by the back-off of R255 (R266). -/
def Reg.HG_TKINFO_LAT : Fld := ⟨0x18F, 0, 14, .ro, false, 0x0⟩

/-- The fields of 08_diptych.md R266. -/
def Reg.fieldsR266 : List Fld := [
  Reg.HG_CFG_HBTO, Reg.HG_CFG_WDOG, Reg.HG_CFG_TKDEG, Reg.HG_CFG_ROLE, Reg.HG_CTL_RELEASE, Reg.HG_CTL_DISENGAGE,
  Reg.HG_CTL_ENGAGE, Reg.HG_STAT_ENGFAIL, Reg.HG_STAT_EV_BLOCK, Reg.HG_STAT_EV_DIS, Reg.HG_STAT_EV_DOWN,
  Reg.HG_STAT_EV_TK, Reg.HG_STAT_TKDEG, Reg.HG_STAT_BLOCKED, Reg.HG_STAT_DRIVE, Reg.HG_STAT_RELO, Reg.HG_STAT_RELI,
  Reg.HG_STAT_LINK, Reg.HG_STAT_STRAP, Reg.HG_STAT_STATE, Reg.HG_LINK_CRCERR, Reg.HG_LINK_RETRAIN,
  Reg.HG_LINK_LANES, Reg.HG_HBMISS, Reg.HG_AGREE, Reg.HG_DISAGREE, Reg.HG_DISLAST_V, Reg.HG_DISLAST_PORT,
  Reg.HG_DISSTAMP_LO, Reg.HG_DISSTAMP_HI, Reg.HG_MIRSEQ, Reg.HG_PEER_V, Reg.HG_PEER_POS, Reg.HG_TOFS,
  Reg.HG_TKSTAMP_LO, Reg.HG_TKSTAMP_HI]

/-- The fields of 08_diptych.md R266. -/
def Reg.fieldsR266b : List Fld := [Reg.HG_TKINFO_CUT, Reg.HG_TKINFO_CAUSE, Reg.HG_TKINFO_LAT]

/-! Registers of 09_carillon.md R291. -/

/-- Source under R269 (R291). -/
def Reg.CA_SRCSEL : Fld := ⟨0x200, 0, 16, .rw, false, 0x1⟩

/-- Enable under R276 (R291). -/
def Reg.CA_SCFG_EN : Fld := ⟨0x201, 31, 1, .rw, true, 0x0⟩

/-- Target; for a private source, its bank, fixed (R291). -/
def Reg.CA_SCFG_TGT : Fld := ⟨0x201, 24, 4, .rw, true, 0x0⟩

/-- Priority 0 to 15 (R291). -/
def Reg.CA_SCFG_PRIO : Fld := ⟨0x201, 16, 4, .rw, true, 0x0⟩

/-- Level asserted while low; station sources only (R291). -/
def Reg.CA_SCFG_INV : Fld := ⟨0x201, 14, 1, .rw, true, 0x0⟩

/-- 0 level, 1 rising, 2 falling, 3 both; under R272 (R291). -/
def Reg.CA_SCFG_SENSE : Fld := ⟨0x201, 12, 2, .rw, true, 0x0⟩

/-- Selected source number (R291). -/
def Reg.CA_SCFG_SRC : Fld := ⟨0x201, 0, 12, .ro, false, 0x1⟩

/-- Events, 1 to 4,095; 0 returns E_VALUE (R291). -/
def Reg.CA_SCOAL_COUNT : Fld := ⟨0x202, 16, 12, .rw, true, 0x1⟩

/-- 160 DCLK (100 ns) units (R291). -/
def Reg.CA_SCOAL_TIME : Fld := ⟨0x202, 0, 16, .rw, true, 0x0⟩

/-- Debounce, 64 DCLK (40 ns) units; station sources only (R291). -/
def Reg.CA_SDEB : Fld := ⟨0x203, 0, 16, .rw, true, 0x0⟩

/-- Under R275 (R291). -/
def Reg.CA_SCTL_CLRPEND : Fld := ⟨0x204, 1, 1, .wo, false, 0x0⟩

/-- Software set (R291). -/
def Reg.CA_SCTL_SETPEND : Fld := ⟨0x204, 0, 1, .wo, false, 0x0⟩

/-- HELD; saturates (R291). -/
def Reg.CA_SSTAT_HELD : Fld := ⟨0x205, 16, 16, .ro, false, 0x0⟩

/-- Software mark (R291). -/
def Reg.CA_SSTAT_MARK : Fld := ⟨0x205, 5, 1, .ro, false, 0x0⟩

/-- P3 held by another function (R291). -/
def Reg.CA_SSTAT_NOIN : Fld := ⟨0x205, 4, 1, .ro, false, 0x0⟩

/-- Input level after debounce and INV (R291). -/
def Reg.CA_SSTAT_INPUT : Fld := ⟨0x205, 3, 1, .ro, false, 0x0⟩

/-- 0 IDLE, 1 HOLD, 2 PEND, 3 ACTIVE (R291). -/
def Reg.CA_SSTAT_STATE : Fld := ⟨0x205, 0, 3, .ro, false, 0x0⟩

/-- Deliveries; wraps (R291). -/
def Reg.CA_SCNT : Fld := ⟨0x206, 0, 32, .ro, false, 0x0⟩

/-- The fields of 09_carillon.md R291. -/
def Reg.fieldsR291 : List Fld := [
  Reg.CA_SRCSEL, Reg.CA_SCFG_EN, Reg.CA_SCFG_TGT, Reg.CA_SCFG_PRIO, Reg.CA_SCFG_INV, Reg.CA_SCFG_SENSE,
  Reg.CA_SCFG_SRC, Reg.CA_SCOAL_COUNT, Reg.CA_SCOAL_TIME, Reg.CA_SDEB, Reg.CA_SCTL_CLRPEND, Reg.CA_SCTL_SETPEND,
  Reg.CA_SSTAT_HELD, Reg.CA_SSTAT_MARK, Reg.CA_SSTAT_NOIN, Reg.CA_SSTAT_INPUT, Reg.CA_SSTAT_STATE, Reg.CA_SCNT]

/-! Registers of 09_carillon.md R292. -/

/-- Target 0 to 15, or 0xFFFF (R292). -/
def Reg.CA_TGTSEL : Fld := ⟨0x220, 0, 16, .rw, false, 0x0⟩

/-- 0 pin-type, 1 message-type (R292). -/
def Reg.CA_TCFG_KIND : Fld := ⟨0x221, 31, 1, .rw, true, 0x0⟩

/-- Least priority delivered is THRESH + 1 (R292). -/
def Reg.CA_TCFG_THRESH : Fld := ⟨0x221, 16, 4, .rw, true, 0x0⟩

/-- Target masked (R292). -/
def Reg.CA_TCFG_MASK : Fld := ⟨0x221, 0, 1, .rw, true, 0x0⟩

/-- Mailbox address [31:7] (R292). -/
def Reg.CA_TMBOX_LO : Fld := ⟨0x222, 7, 25, .rw, false, 0x0⟩

/-- Mailbox address [63:32] (R292). -/
def Reg.CA_TMBOX_HI : Fld := ⟨0x223, 0, 32, .rw, false, 0x0⟩

/-- Message address [31:2] (R292). -/
def Reg.CA_MSIX_ADDR_LO : Fld := ⟨0x224, 2, 30, .rw, false, 0x0⟩

/-- Message address [63:32] (R292). -/
def Reg.CA_MSIX_ADDR_HI : Fld := ⟨0x225, 0, 32, .rw, false, 0x0⟩

/-- Message data (R292). -/
def Reg.CA_MSIX_DATA : Fld := ⟨0x226, 0, 32, .rw, false, 0x0⟩

/-- Vector masked (R292). -/
def Reg.CA_MSIX_CTL_VMASK : Fld := ⟨0x227, 0, 1, .rw, false, 0x1⟩

/-- Claim under R281 (R292). -/
def Reg.CA_CLAIM : Fld := ⟨0x228, 0, 12, .ro, false, 0x0⟩

/-- End-of-interrupt under R279 (R292). -/
def Reg.CA_EOI : Fld := ⟨0x229, 0, 12, .wo, false, 0x0⟩

/-- Running priority (R292). -/
def Reg.CA_TSTAT_RUNPRIO : Fld := ⟨0x22A, 28, 4, .ro, false, 0x0⟩

/-- Stack entries, 0 to 8 (R292). -/
def Reg.CA_TSTAT_DEPTH : Fld := ⟨0x22A, 24, 4, .ro, false, 0x0⟩

/-- Last source claimed or decided (R292). -/
def Reg.CA_TSTAT_LAST : Fld := ⟨0x22A, 12, 12, .ro, false, 0x0⟩

/-- Deliverable source waiting under R283 (R292). -/
def Reg.CA_TSTAT_WAITLINK : Fld := ⟨0x22A, 8, 1, .ro, false, 0x0⟩

/-- Ignored end-of-interrupt and SETPEND writes; saturates (R292). -/
def Reg.CA_TSTAT_BADW : Fld := ⟨0x22A, 0, 8, .ro, false, 0x0⟩

/-- Priority of entry k in [4k+3:4k], k = 0 at the bottom (R292). -/
def Reg.CA_TSTACK : Fld := ⟨0x22B, 0, 32, .ro, false, 0x0⟩

/-- Private sources 512 + i in bit i; read: pending state (R292). -/
def Reg.CA_PRIV : Fld := ⟨0x22C, 0, 32, .w1s, false, 0x0⟩

/-- Deliveries; wraps (R292). -/
def Reg.CA_TCNT : Fld := ⟨0x22D, 0, 32, .ro, false, 0x0⟩

/-- The fields of 09_carillon.md R292. -/
def Reg.fieldsR292 : List Fld := [
  Reg.CA_TGTSEL, Reg.CA_TCFG_KIND, Reg.CA_TCFG_THRESH, Reg.CA_TCFG_MASK, Reg.CA_TMBOX_LO, Reg.CA_TMBOX_HI,
  Reg.CA_MSIX_ADDR_LO, Reg.CA_MSIX_ADDR_HI, Reg.CA_MSIX_DATA, Reg.CA_MSIX_CTL_VMASK, Reg.CA_CLAIM, Reg.CA_EOI,
  Reg.CA_TSTAT_RUNPRIO, Reg.CA_TSTAT_DEPTH, Reg.CA_TSTAT_LAST, Reg.CA_TSTAT_WAITLINK, Reg.CA_TSTAT_BADW,
  Reg.CA_TSTACK, Reg.CA_PRIV, Reg.CA_TCNT]

/-! Registers of 09_carillon.md R293. -/

/-- Takeover under R280 (R293). -/
def Reg.CA_ATTN_TK : Fld := ⟨0x2F0, 17, 1, .ro, false, 0x0⟩

/-- Copy of GL_CLKSTAT_LOCK_LOST (R293). -/
def Reg.CA_ATTN_LOCK : Fld := ⟨0x2F0, 16, 1, .ro, false, 0x0⟩

/-- Bit t: pin-type Tt has a deliverable source (R293). -/
def Reg.CA_ATTN_TGT : Fld := ⟨0x2F0, 0, 16, .ro, false, 0x0⟩

/-- The fields of 09_carillon.md R293. -/
def Reg.fieldsR293 : List Fld := [Reg.CA_ATTN_TK, Reg.CA_ATTN_LOCK, Reg.CA_ATTN_TGT]

/-! Registers of 10_tureus_chain.md R329. -/

/-- Slot length under R309, 0 to 127; under R328 (R329). -/
def Reg.CH_LEN_K : Fld := ⟨0x040, 0, 7, .rw, false, 0x0⟩

/-- Devices on the chain, 1 to 64, for the checks of R300 and R316; 0 disables them; 65 to 127 return E_VALUE (R329). -/
def Reg.CH_NDEV : Fld := ⟨0x041, 0, 7, .rw, false, 0x0⟩

/-- Expected Full-mode F, 64 to 264,192; 0 disables the check; 1 to 63 and values above 264,192 return E_VALUE (R329). -/
def Reg.CH_FRMFULL : Fld := ⟨0x042, 0, 19, .rw, false, 0x0⟩

/-- Position held (R329). -/
def Reg.CH_STAT_ASSIGNED : Fld := ⟨0x043, 31, 1, .ro, false, 0x0⟩

/-- Position (R329). -/
def Reg.CH_STAT_POS : Fld := ⟨0x043, 24, 6, .ro, false, 0x0⟩

/-- Position selected, 0xFE broadcast, 0xFF Full mode (R329). -/
def Reg.CH_STAT_TARGET : Fld := ⟨0x043, 16, 8, .ro, false, 0xFF⟩

/-- 0 Full, 1 Directed selected, 2 Directed bypassed, 3 Broadcast (R329). -/
def Reg.CH_STAT_MODE : Fld := ⟨0x043, 8, 2, .ro, false, 0x0⟩

/-- K in force for the stage (R329). -/
def Reg.CH_STAT_LENACT : Fld := ⟨0x043, 0, 7, .ro, false, 0x0⟩

/-- Frames ended, empty frames excluded; wraps (R329). -/
def Reg.CH_CNT_FRAMES : Fld := ⟨0x044, 0, 32, .ro, false, 0x0⟩

/-- Slots answered E_CRC; saturates (R329). -/
def Reg.CH_ERR_CRC : Fld := ⟨0x045, 16, 16, .ro, false, 0x0⟩

/-- Of those, frame-length failures; saturates (R329). -/
def Reg.CH_ERR_FRM : Fld := ⟨0x045, 0, 16, .ro, false, 0x0⟩

/-- Underruns under R322; saturates (R329). -/
def Reg.CH_ERR2_UNDER : Fld := ⟨0x046, 16, 16, .ro, false, 0x0⟩

/-- Slots discarded under R323; saturates (R329). -/
def Reg.CH_ERR2_BUSY : Fld := ⟨0x046, 0, 16, .ro, false, 0x0⟩

/-- Status byte of the last executed slot (R329). -/
def Reg.CH_LASTST_STATUS : Fld := ⟨0x047, 24, 8, .ro, false, 0x0⟩

/-- Its opcode (R329). -/
def Reg.CH_LASTST_OP : Fld := ⟨0x047, 20, 4, .ro, false, 0x0⟩

/-- Its tag (R329). -/
def Reg.CH_LASTST_TAG : Fld := ⟨0x047, 18, 2, .ro, false, 0x0⟩

/-- Its address (R329). -/
def Reg.CH_LASTST_ADDR : Fld := ⟨0x047, 0, 12, .ro, false, 0x0⟩

/-- The fields of 10_tureus_chain.md R329. -/
def Reg.fieldsR329 : List Fld := [
  Reg.CH_LEN_K, Reg.CH_NDEV, Reg.CH_FRMFULL, Reg.CH_STAT_ASSIGNED, Reg.CH_STAT_POS, Reg.CH_STAT_TARGET,
  Reg.CH_STAT_MODE, Reg.CH_STAT_LENACT, Reg.CH_CNT_FRAMES, Reg.CH_ERR_CRC, Reg.CH_ERR_FRM, Reg.CH_ERR2_UNDER,
  Reg.CH_ERR2_BUSY, Reg.CH_LASTST_STATUS, Reg.CH_LASTST_OP, Reg.CH_LASTST_TAG, Reg.CH_LASTST_ADDR]

/-! Registers of 10_tureus_chain.md R330. -/

/-- Position assigned (R330). -/
def Reg.GL_POS_VALID : Fld := ⟨0x005, 8, 1, .ro, false, 0x0⟩

/-- Chain position (R330). -/
def Reg.GL_POS_POS : Fld := ⟨0x005, 0, 6, .ro, false, 0x0⟩

/-- Bits [31:0] of the last head logged under R319, with bits [7:0] holding its status byte; read latches bits [63:32] (R330). -/
def Reg.GL_ERRLOG_LO : Fld := ⟨0x006, 0, 32, .ro, false, 0x0⟩

/-- Latched bits [63:32] (R330). -/
def Reg.GL_ERRLOG_HI : Fld := ⟨0x007, 0, 32, .ro, false, 0x0⟩

/-- The fields of 10_tureus_chain.md R330. -/
def Reg.fieldsR330 : List Fld := [Reg.GL_POS_VALID, Reg.GL_POS_POS, Reg.GL_ERRLOG_LO, Reg.GL_ERRLOG_HI]

/-! Registers of 11_stations_levels.md R355. -/

/-- Station 0 to 1023, or 0xFFFF; other values return E_VALUE (R355). -/
def Reg.ST_SEL : Fld := ⟨0x600, 0, 16, .rw, false, 0x0⟩

/-- Switch without waiting for the character in flight (R355). -/
def Reg.ST_PINCFG_ABRUPT : Fld := ⟨0x601, 8, 1, .rw, true, 0x0⟩

/-- Drive strength 0 to 3 under R336 (R355). -/
def Reg.ST_PINCFG_SLEW : Fld := ⟨0x601, 4, 2, .rw, true, 0x0⟩

/-- 0 none, 1 up, 2 down; 3 returns E_VALUE (R355). -/
def Reg.ST_PINCFG_PULL : Fld := ⟨0x601, 2, 2, .rw, true, 0x0⟩

/-- 0 push-pull, 1 open drain (R355). -/
def Reg.ST_PINCFG_OD : Fld := ⟨0x601, 0, 1, .rw, true, 0x0⟩

/-- Bit 8 + k: GPIO output level of pin k (R355). -/
def Reg.ST_GPCFG_OUT : Fld := ⟨0x605, 8, 4, .rw, true, 0x0⟩

/-- Pin k in [2k+1:2k]: 0 off, 1 input, 2 output; 3 returns E_VALUE (R355). -/
def Reg.ST_GPCFG_MODE : Fld := ⟨0x605, 0, 8, .rw, true, 0x0⟩

/-- GPIO input debounce, 64 DCLK (40 ns) units (R355). -/
def Reg.ST_GPDEB : Fld := ⟨0x606, 0, 16, .rw, true, 0x0⟩

/-- Debounced level of pin k in bit k, under R346 (R355). -/
def Reg.ST_GPIN : Fld := ⟨0x607, 0, 4, .ro, false, 0x0⟩

/-- Mismatch under R344 (R355). -/
def Reg.ST_PINSTAT_MISM : Fld := ⟨0x608, 19, 1, .w1c, false, 0x0⟩

/-- Switch or PINCFG write waiting for a character's end (R355). -/
def Reg.ST_PINSTAT_SWPEND : Fld := ⟨0x608, 18, 1, .ro, false, 0x0⟩

/-- 0 OFF, 1 DRIVE, 2 HOLD, 3 KEEP (R355). -/
def Reg.ST_PINSTAT_PAD : Fld := ⟨0x608, 16, 2, .ro, false, 0x0⟩

/-- Bit 8 + c set while function code c claims the pin and is starved (R355). -/
def Reg.ST_PINSTAT_STARVED : Fld := ⟨0x608, 9, 7, .ro, false, 0x0⟩

/-- Function code of R331 (R355). -/
def Reg.ST_PINSTAT_OWNER : Fld := ⟨0x608, 4, 3, .ro, false, 0x0⟩

/-- 0 nothing, 1 low, 2 high (R355). -/
def Reg.ST_PINSTAT_DRV : Fld := ⟨0x608, 2, 2, .ro, false, 0x0⟩

/-- 0 low, 1 between, 2 high, 3 not sampling (R355). -/
def Reg.ST_PINSTAT_SAMPLE : Fld := ⟨0x608, 0, 2, .ro, false, 0x3⟩

/-- Bit k: turn pin k from HOLD to OFF under R342 (R355). -/
def Reg.ST_CTL_UNHOLD : Fld := ⟨0x60C, 0, 4, .wo, true, 0x0⟩

/-- Added OUT_PATH at SLEW 3, ticks (R355). -/
def Reg.ST_SLEWDLY_S3 : Fld := ⟨0x60D, 24, 8, .ro, false, 0x0⟩

/-- At SLEW 2, ticks (R355). -/
def Reg.ST_SLEWDLY_S2 : Fld := ⟨0x60D, 16, 8, .ro, false, 0x0⟩

/-- At SLEW 1, ticks (R355). -/
def Reg.ST_SLEWDLY_S1 : Fld := ⟨0x60D, 8, 8, .ro, false, 0x0⟩

/-- The fields of 11_stations_levels.md R355. -/
def Reg.fieldsR355 : List Fld := [
  Reg.ST_SEL, Reg.ST_PINCFG_ABRUPT, Reg.ST_PINCFG_SLEW, Reg.ST_PINCFG_PULL, Reg.ST_PINCFG_OD, Reg.ST_GPCFG_OUT,
  Reg.ST_GPCFG_MODE, Reg.ST_GPDEB, Reg.ST_GPIN, Reg.ST_PINSTAT_MISM, Reg.ST_PINSTAT_SWPEND, Reg.ST_PINSTAT_PAD,
  Reg.ST_PINSTAT_STARVED, Reg.ST_PINSTAT_OWNER, Reg.ST_PINSTAT_DRV, Reg.ST_PINSTAT_SAMPLE, Reg.ST_CTL_UNHOLD,
  Reg.ST_SLEWDLY_S3, Reg.ST_SLEWDLY_S2, Reg.ST_SLEWDLY_S1]

/-! Registers of 11_stations_levels.md R357. -/

/-- 0 A, 1 B, 2 C, 3 D; a change starts R352 (R357). -/
def Reg.ST_LGCFG_SPAN : Fld := ⟨0x610, 0, 2, .rw, true, 0x1⟩

/-- VOH code (R357). -/
def Reg.ST_LGVOH : Fld := ⟨0x611, 0, 14, .rw, true, 0x0⟩

/-- VOL code (R357). -/
def Reg.ST_LGVOL : Fld := ⟨0x612, 0, 14, .rw, true, 0x0⟩

/-- VTH_H code (R357). -/
def Reg.ST_LGVTHH : Fld := ⟨0x613, 0, 14, .rw, true, 0x2000⟩

/-- VTH_L code (R357). -/
def Reg.ST_LGVTHL : Fld := ⟨0x614, 0, 14, .rw, true, 0x2000⟩

/-- Span change in progress (R357). -/
def Reg.ST_LGSTAT_BUSY : Fld := ⟨0x615, 8, 1, .ro, false, 0x0⟩

/-- Span in force at the DACs (R357). -/
def Reg.ST_LGSTAT_SPANACT : Fld := ⟨0x615, 0, 2, .ro, false, 0x1⟩

/-- The fields of 11_stations_levels.md R357. -/
def Reg.fieldsR357 : List Fld := [
  Reg.ST_LGCFG_SPAN, Reg.ST_LGVOH, Reg.ST_LGVOL, Reg.ST_LGVTHH, Reg.ST_LGVTHL, Reg.ST_LGSTAT_BUSY,
  Reg.ST_LGSTAT_SPANACT]

/-! Registers of 11_stations_levels.md R358. -/

/-- Pins with MISM set; saturates at 0xF (R358). -/
def Reg.ST_STARVE_MISM : Fld := ⟨0x6F0, 28, 4, .ro, false, 0x0⟩

/-- Pins with any STARVED bit set (R358). -/
def Reg.ST_STARVE_COUNT : Fld := ⟨0x6F0, 16, 12, .ro, false, 0x0⟩

/-- Lowest such pin index q, or 0xFFFF (R358). -/
def Reg.ST_STARVE_FIRST : Fld := ⟨0x6F0, 0, 16, .ro, false, 0xFFFF⟩

/-- The fields of 11_stations_levels.md R358. -/
def Reg.fieldsR358 : List Fld := [Reg.ST_STARVE_MISM, Reg.ST_STARVE_COUNT, Reg.ST_STARVE_FIRST]

/-! Registers of 12_line_monitor.md R375. -/

/-- Pin 0 to 4095, or 0xFFFF; other values return E_VALUE (R375). -/
def Reg.LM_SEL : Fld := ⟨0x700, 0, 16, .rw, false, 0x0⟩

/-- TIMEOUT enable (R375). -/
def Reg.LM_COND_TO : Fld := ⟨0x701, 7, 1, .rw, true, 0x0⟩

/-- Bit 0 rising, bit 1 falling (R375). -/
def Reg.LM_COND_SLEW : Fld := ⟨0x701, 5, 2, .rw, true, 0x0⟩

/-- Bit 0 rising runt, bit 1 falling runt (R375). -/
def Reg.LM_COND_RUNT : Fld := ⟨0x701, 3, 2, .rw, true, 0x0⟩

/-- Bit 0 high pulses, bit 1 low pulses (R375). -/
def Reg.LM_COND_WPOL : Fld := ⟨0x701, 1, 2, .rw, true, 0x0⟩

/-- Least width, ticks (R375). -/
def Reg.LM_WMIN : Fld := ⟨0x702, 0, 32, .rw, true, 0x0⟩

/-- Greatest width, ticks; greater than or equal to LM_WMIN, else E_VALUE (R375). -/
def Reg.LM_WMAX : Fld := ⟨0x703, 0, 32, .rw, true, 0xFFFFFFFF⟩

/-- Greatest threshold-to-threshold time, ticks (R375). -/
def Reg.LM_SLEWMAX : Fld := ⟨0x704, 0, 16, .rw, true, 0xFFFF⟩

/-- Timeout, 64 DCLK (40 ns) units, 1 to 0xFFFF_FFFF; 0 returns E_VALUE; reset 1 ms (R375). -/
def Reg.LM_TOUT : Fld := ⟨0x705, 0, 32, .rw, true, 0x61A8⟩

/-- Segments, 1 to 65,535; 0 returns E_VALUE (R375). -/
def Reg.LM_SEG_COUNT : Fld := ⟨0x706, 8, 16, .rw, true, 0x1⟩

/-- Segment size 2^n B, n = 8 to 20 (R375). -/
def Reg.LM_SEG_LOG2 : Fld := ⟨0x706, 0, 5, .rw, true, 0x8⟩

/-- Pre-trigger samples, 0 to 4,096 (R375). -/
def Reg.LM_PRE : Fld := ⟨0x707, 0, 13, .rw, true, 0x80⟩

/-- Post-trigger samples under R366 (R375). -/
def Reg.LM_POST : Fld := ⟨0x708, 0, 23, .rw, true, 0x280⟩

/-- Reuse segments after the last under R362 (R375). -/
def Reg.LM_CAP_CONT : Fld := ⟨0x709, 8, 1, .rw, true, 0x0⟩

/-- 0 1.6 GS/s, 1 400 MS/s, 2 100 MS/s, 3 25 MS/s (R375). -/
def Reg.LM_CAP_RATE : Fld := ⟨0x709, 0, 2, .rw, true, 0x0⟩

/-- Canvas base, 64 KiB units (R375). -/
def Reg.LM_ALLOC_BASE : Fld := ⟨0x70A, 0, 18, .rw, true, 0x0⟩

/-- Canvas allocation, 64 KiB units, 0 to 262,144; above returns E_VALUE (R375). -/
def Reg.LM_ALLOC_SIZE : Fld := ⟨0x70B, 0, 19, .rw, true, 0x0⟩

/-- Trigger with cause FORCE under R363 (R375). -/
def Reg.LM_CTL_FORCE : Fld := ⟨0x70C, 2, 1, .wo, true, 0x0⟩

/-- Under R362 (R375). -/
def Reg.LM_CTL_DISARM : Fld := ⟨0x70C, 1, 1, .wo, true, 0x0⟩

/-- Under R363 (R375). -/
def Reg.LM_CTL_ARM : Fld := ⟨0x70C, 0, 1, .wo, true, 0x0⟩

/-- Trigger declined NOSEG (R375). -/
def Reg.LM_STAT_EV_NOSEG : Fld := ⟨0x70D, 17, 1, .w1c, false, 0x0⟩

/-- Trigger declined BUDGET (R375). -/
def Reg.LM_STAT_EV_DECL : Fld := ⟨0x70D, 16, 1, .w1c, false, 0x0⟩

/-- Named cause of the last trigger (R375). -/
def Reg.LM_STAT_LASTCAUSE : Fld := ⟨0x70D, 4, 4, .ro, false, 0x0⟩

/-- DISARM pending (R375). -/
def Reg.LM_STAT_DISPEND : Fld := ⟨0x70D, 3, 1, .ro, false, 0x0⟩

/-- 0 OFF, 1 ARMING, 2 ARMED, 3 CAPTURE, 4 REARM, 5 DONE (R375). -/
def Reg.LM_STAT_STATE : Fld := ⟨0x70D, 0, 3, .ro, false, 0x0⟩

/-- Segments occupied (R375). -/
def Reg.LM_SEGSTAT_BUSY : Fld := ⟨0x70E, 16, 16, .ro, false, 0x0⟩

/-- Next segment index (R375). -/
def Reg.LM_SEGSTAT_NEXT : Fld := ⟨0x70E, 0, 16, .ro, false, 0x0⟩

/-- Captures recorded; wraps (R375). -/
def Reg.LM_CNT_TRIG : Fld := ⟨0x70F, 0, 32, .ro, false, 0x0⟩

/-- Declined triggers recorded; saturates (R375). -/
def Reg.LM_CNT_DECL : Fld := ⟨0x710, 16, 16, .ro, false, 0x0⟩

/-- Edges with a condition met outside ARMED; saturates (R375). -/
def Reg.LM_CNT_MISSED : Fld := ⟨0x710, 0, 16, .ro, false, 0x0⟩

/-- Last trigger stamp [31:0]; read latches [63:32] (R375). -/
def Reg.LM_LAST_LO : Fld := ⟨0x711, 0, 32, .ro, false, 0x0⟩

/-- Latched [63:32] (R375). -/
def Reg.LM_LAST_HI : Fld := ⟨0x712, 0, 32, .ro, false, 0x0⟩

/-- The fields of 12_line_monitor.md R375. -/
def Reg.fieldsR375 : List Fld := [
  Reg.LM_SEL, Reg.LM_COND_TO, Reg.LM_COND_SLEW, Reg.LM_COND_RUNT, Reg.LM_COND_WPOL, Reg.LM_WMIN, Reg.LM_WMAX,
  Reg.LM_SLEWMAX, Reg.LM_TOUT, Reg.LM_SEG_COUNT, Reg.LM_SEG_LOG2, Reg.LM_PRE, Reg.LM_POST, Reg.LM_CAP_CONT,
  Reg.LM_CAP_RATE, Reg.LM_ALLOC_BASE, Reg.LM_ALLOC_SIZE, Reg.LM_CTL_FORCE, Reg.LM_CTL_DISARM, Reg.LM_CTL_ARM,
  Reg.LM_STAT_EV_NOSEG, Reg.LM_STAT_EV_DECL, Reg.LM_STAT_LASTCAUSE, Reg.LM_STAT_DISPEND, Reg.LM_STAT_STATE,
  Reg.LM_SEGSTAT_BUSY, Reg.LM_SEGSTAT_NEXT, Reg.LM_CNT_TRIG, Reg.LM_CNT_DECL, Reg.LM_CNT_MISSED, Reg.LM_LAST_LO,
  Reg.LM_LAST_HI]

/-! Registers of 12_line_monitor.md R376. -/

/-- Upload designated (R376). -/
def Reg.LM_UPCFG_EN : Fld := ⟨0x7F0, 31, 1, .rw, true, 0x0⟩

/-- Area size 2^n B, n = 20 to 34 (R376). -/
def Reg.LM_UPCFG_LOG2 : Fld := ⟨0x7F0, 16, 5, .rw, true, 0x14⟩

/-- Capture ring; must be ACTIVE and of kind event when EN is written 1, else E_VALUE (R376). -/
def Reg.LM_UPCFG_RING : Fld := ⟨0x7F0, 0, 8, .rw, true, 0x0⟩

/-- Area base [31:12] (R376). -/
def Reg.LM_UPBASE_LO : Fld := ⟨0x7F1, 12, 20, .rw, true, 0x0⟩

/-- Area base [63:32] (R376). -/
def Reg.LM_UPBASE_HI : Fld := ⟨0x7F2, 0, 32, .rw, true, 0x0⟩

/-- Units held under R368 (R376). -/
def Reg.LM_BUDGET_USED : Fld := ⟨0x7F3, 0, 16, .ro, false, 0x0⟩

/-- Armed monitors (R376). -/
def Reg.LM_ARMED_COUNT : Fld := ⟨0x7F4, 16, 13, .ro, false, 0x0⟩

/-- Lowest armed pin, or 0xFFFF (R376). -/
def Reg.LM_ARMED_FIRST : Fld := ⟨0x7F4, 0, 16, .ro, false, 0xFFFF⟩

/-- Free area, 4 KiB units (R376). -/
def Reg.LM_UPFREE : Fld := ⟨0x7F5, 0, 23, .ro, false, 0x100⟩

/-- The fields of 12_line_monitor.md R376. -/
def Reg.fieldsR376 : List Fld := [
  Reg.LM_UPCFG_EN, Reg.LM_UPCFG_LOG2, Reg.LM_UPCFG_RING, Reg.LM_UPBASE_LO, Reg.LM_UPBASE_HI, Reg.LM_BUDGET_USED,
  Reg.LM_ARMED_COUNT, Reg.LM_ARMED_FIRST, Reg.LM_UPFREE]

/-! Registers of 13_contact_units.md R393. -/

/-- Unit 0 to 15, or 0xFFFF; other values return E_VALUE (R393). -/
def Reg.CU_SEL : Fld := ⟨0x800, 0, 16, .rw, false, 0x0⟩

/-- Measure range under R377 (R393). -/
def Reg.CU_CFG_MRANGE : Fld := ⟨0x801, 8, 3, .rw, true, 0x4⟩

/-- Force range under R377; a change starts R384 (R393). -/
def Reg.CU_CFG_RANGE : Fld := ⟨0x801, 4, 3, .rw, true, 0x0⟩

/-- 0 DC, 1 SINE, 2 WAVE; 3 returns E_VALUE (R393). -/
def Reg.CU_CFG_SRC : Fld := ⟨0x801, 2, 2, .rw, true, 0x0⟩

/-- 0 force voltage, 1 force current; a change starts R384 (R393). -/
def Reg.CU_CFG_KIND : Fld := ⟨0x801, 1, 1, .rw, true, 0x0⟩

/-- Unit enable (R393). -/
def Reg.CU_CFG_EN : Fld := ⟨0x801, 0, 1, .rw, true, 0x0⟩

/-- Attach under R380 (R393). -/
def Reg.CU_ATTACH_EN : Fld := ⟨0x802, 16, 1, .rw, true, 0x0⟩

/-- Pin q in the unit's octant (R393). -/
def Reg.CU_ATTACH_PIN : Fld := ⟨0x802, 0, 12, .rw, true, 0x0⟩

/-- Force code, or SINE offset (R393). -/
def Reg.CU_LEVEL : Fld := ⟨0x803, 0, 18, .rw, true, 0x20000⟩

/-- SINE amplitude code, 0 to 131,071 (R393). -/
def Reg.CU_AMP : Fld := ⟨0x804, 0, 18, .rw, true, 0x0⟩

/-- Phase step under R388; reset 1 kHz (42,950) (R393). -/
def Reg.CU_FREQ : Fld := ⟨0x805, 0, 32, .rw, true, 0xA7C6⟩

/-- Compliance time to fault, 64 DCLK (40 ns) units (R393). -/
def Reg.CU_CLAMP_TIME : Fld := ⟨0x806, 16, 16, .rw, true, 0x19⟩

/-- Limit, 1 to 32,768; 0 and above return E_VALUE (R393). -/
def Reg.CU_CLAMP_LIM : Fld := ⟨0x806, 0, 16, .rw, true, 0x8000⟩

/-- Samples 2^n, n = 0 to 20 (R393). -/
def Reg.CU_MCFG_LOG2N : Fld := ⟨0x807, 16, 5, .rw, true, 0x0⟩

/-- Continuous measurement (R393). -/
def Reg.CU_MCFG_CONT : Fld := ⟨0x807, 0, 1, .rw, true, 0x0⟩

/-- Stop measurement without MDONE (R393). -/
def Reg.CU_CTL_STOP : Fld := ⟨0x808, 1, 1, .wo, true, 0x0⟩

/-- Start measurement under R391 (R393). -/
def Reg.CU_CTL_MEAS : Fld := ⟨0x808, 0, 1, .wo, true, 0x0⟩

/-- Under R392 (R393). -/
def Reg.CU_STAT_DEGEN : Fld := ⟨0x809, 13, 1, .ro, false, 0x0⟩

/-- Result written (R393). -/
def Reg.CU_STAT_MDONE : Fld := ⟨0x809, 12, 1, .w1c, false, 0x0⟩

/-- Thermal fault under R386 (R393). -/
def Reg.CU_STAT_EV_THERM : Fld := ⟨0x809, 11, 1, .w1c, false, 0x0⟩

/-- Compliance fault under R385 (R393). -/
def Reg.CU_STAT_EV_COMPL : Fld := ⟨0x809, 10, 1, .w1c, false, 0x0⟩

/-- Limit acting (R393). -/
def Reg.CU_STAT_COMPL : Fld := ⟨0x809, 9, 1, .ro, false, 0x0⟩

/-- Measurement running (R393). -/
def Reg.CU_STAT_MRUN : Fld := ⟨0x809, 8, 1, .ro, false, 0x0⟩

/-- 0 OFF, 1 OPEN, 2 CLOSING, 3 CLOSED, 4 RANGING, 5 FAULT, 6 HELDOFF (R393). -/
def Reg.CU_STAT_STATE : Fld := ⟨0x809, 0, 3, .ro, false, 0x0⟩

/-- Mean code; read latches CU_MSTAMP (R393). -/
def Reg.CU_MRES : Fld := ⟨0x80A, 0, 18, .ro, false, 0x20000⟩

/-- Stamp [31:0], latched (R393). -/
def Reg.CU_MSTAMP_LO : Fld := ⟨0x80B, 0, 32, .ro, false, 0x0⟩

/-- Stamp [63:32], latched (R393). -/
def Reg.CU_MSTAMP_HI : Fld := ⟨0x80C, 0, 32, .ro, false, 0x0⟩

/-- In-phase amplitude, codes, two's complement (R393). -/
def Reg.CU_ACRES_I : Fld := ⟨0x80D, 0, 32, .ro, false, 0x0⟩

/-- Quadrature amplitude, codes, two's complement (R393). -/
def Reg.CU_ACRES_Q : Fld := ⟨0x80E, 0, 32, .ro, false, 0x0⟩

/-- Store address (R393). -/
def Reg.CU_WADDR : Fld := ⟨0x80F, 0, 14, .rw, true, 0x0⟩

/-- Store sample at CU_WADDR; a write advances CU_WADDR under R390 (R393). -/
def Reg.CU_WDATA : Fld := ⟨0x810, 0, 18, .rw, true, 0x0⟩

/-- Sample period, 16 DCLK (10 ns) units, 1 to 65,535 (R393). -/
def Reg.CU_WCFG_DIV : Fld := ⟨0x811, 16, 16, .rw, true, 0x1⟩

/-- Samples played, 1 to 16,384 (R393). -/
def Reg.CU_WCFG_LEN : Fld := ⟨0x811, 0, 15, .rw, true, 0x4000⟩

/-- Unit temperature, °C (R393). -/
def Reg.CU_TEMP : Fld := ⟨0x812, 0, 8, .ro, false, 0x0⟩

/-- The fields of 13_contact_units.md R393. -/
def Reg.fieldsR393 : List Fld := [
  Reg.CU_SEL, Reg.CU_CFG_MRANGE, Reg.CU_CFG_RANGE, Reg.CU_CFG_SRC, Reg.CU_CFG_KIND, Reg.CU_CFG_EN,
  Reg.CU_ATTACH_EN, Reg.CU_ATTACH_PIN, Reg.CU_LEVEL, Reg.CU_AMP, Reg.CU_FREQ, Reg.CU_CLAMP_TIME, Reg.CU_CLAMP_LIM,
  Reg.CU_MCFG_LOG2N, Reg.CU_MCFG_CONT, Reg.CU_CTL_STOP, Reg.CU_CTL_MEAS, Reg.CU_STAT_DEGEN, Reg.CU_STAT_MDONE,
  Reg.CU_STAT_EV_THERM, Reg.CU_STAT_EV_COMPL, Reg.CU_STAT_COMPL, Reg.CU_STAT_MRUN, Reg.CU_STAT_STATE, Reg.CU_MRES,
  Reg.CU_MSTAMP_LO, Reg.CU_MSTAMP_HI, Reg.CU_ACRES_I, Reg.CU_ACRES_Q, Reg.CU_WADDR, Reg.CU_WDATA, Reg.CU_WCFG_DIV,
  Reg.CU_WCFG_LEN, Reg.CU_TEMP]

/-! Registers of 13_contact_units.md R394. -/

/-- Bit u: unit u in FAULT (R394). -/
def Reg.CU_GSTAT_FAULT : Fld := ⟨0x870, 16, 16, .ro, false, 0x0⟩

/-- Sine table passed its check under R389 (R394). -/
def Reg.CU_GSTAT_SINE_OK : Fld := ⟨0x870, 0, 1, .ro, false, 0x0⟩

/-- The fields of 13_contact_units.md R394. -/
def Reg.fieldsR394 : List Fld := [Reg.CU_GSTAT_FAULT, Reg.CU_GSTAT_SINE_OK]

/-! Registers of 14_aux_masters.md R410. -/

/-- Master 0 to 7, or 0xFFFF; other values return E_VALUE (R410). -/
def Reg.AX_SEL : Fld := ⟨0x880, 0, 16, .rw, false, 0x0⟩

/-- H, DCLK, 8 to 65,535 (R410). -/
def Reg.AX_CFG_HALF : Fld := ⟨0x881, 16, 16, .rw, false, 0x20⟩

/-- MISO sample delay, DCLK (R410). -/
def Reg.AX_CFG_SDLY : Fld := ⟨0x881, 12, 4, .rw, false, 0x0⟩

/-- Bit c: CSc active high (R410). -/
def Reg.AX_CFG_CSPOL : Fld := ⟨0x881, 8, 4, .rw, false, 0x0⟩

/-- Master enable (R410). -/
def Reg.AX_CFG_EN : Fld := ⟨0x881, 3, 1, .rw, false, 0x0⟩

/-- Bit order under R397 (R410). -/
def Reg.AX_CFG_LSB : Fld := ⟨0x881, 2, 1, .rw, false, 0x0⟩

/-- CPOL in bit 1, CPHA in bit 0 (R410). -/
def Reg.AX_CFG_MODE : Fld := ⟨0x881, 0, 2, .rw, false, 0x0⟩

/-- G, DCLK (R410). -/
def Reg.AX_DLY_GAP : Fld := ⟨0x882, 16, 8, .rw, false, 0x8⟩

/-- T, DCLK (R410). -/
def Reg.AX_DLY_TRAIL : Fld := ⟨0x882, 8, 8, .rw, false, 0x8⟩

/-- L, DCLK (R410). -/
def Reg.AX_DLY_LEAD : Fld := ⟨0x882, 0, 8, .rw, false, 0x8⟩

/-- Hold select under R400 (R410). -/
def Reg.AX_XFER_KEEP : Fld := ⟨0x883, 20, 1, .rw, false, 0x0⟩

/-- Select 0 to 3 (R410). -/
def Reg.AX_XFER_CS : Fld := ⟨0x883, 16, 2, .rw, false, 0x0⟩

/-- Bits, 1 to 4,096 (R410). -/
def Reg.AX_XFER_LEN : Fld := ⟨0x883, 0, 13, .rw, false, 0x8⟩

/-- Under R401 (R410). -/
def Reg.AX_CTL_ABORT : Fld := ⟨0x884, 1, 1, .wo, false, 0x0⟩

/-- Start a transfer under R399 (R410). -/
def Reg.AX_CTL_START : Fld := ⟨0x884, 0, 1, .wo, false, 0x0⟩

/-- Rediscovery failed; AUX0 only (R410). -/
def Reg.AX_STAT_EV_DISC : Fld := ⟨0x885, 11, 1, .w1c, false, 0x0⟩

/-- Transfer aborted (R410). -/
def Reg.AX_STAT_EV_ABORT : Fld := ⟨0x885, 10, 1, .w1c, false, 0x0⟩

/-- HELD timeout (R410). -/
def Reg.AX_STAT_EV_TOUT : Fld := ⟨0x885, 9, 1, .w1c, false, 0x0⟩

/-- Transfer completed (R410). -/
def Reg.AX_STAT_DONE : Fld := ⟨0x885, 8, 1, .w1c, false, 0x0⟩

/-- 0 OFF, 1 IDLE, 2 BUSY, 3 HELD, 4 BOOT (R410). -/
def Reg.AX_STAT_STATE : Fld := ⟨0x885, 0, 3, .ro, false, 0x0⟩

/-- HELD timeout, 64 DCLK (40 ns) units; 0 returns E_VALUE (R410). -/
def Reg.AX_TOUT : Fld := ⟨0x886, 0, 32, .rw, false, 0x61A8⟩

/-- Transfers completed; wraps (R410). -/
def Reg.AX_CNT_CNT : Fld := ⟨0x887, 16, 16, .ro, false, 0x0⟩

/-- Bits exchanged in the last transfer (R410). -/
def Reg.AX_CNT_BITS : Fld := ⟨0x887, 0, 13, .ro, false, 0x0⟩

/-- Aperture: 0 buffer words 0 to 63, 1 words 64 to 127, 2 flash block; 3 returns E_VALUE (R410). -/
def Reg.AX_BUFCFG_VIEW : Fld := ⟨0x888, 0, 2, .rw, false, 0x0⟩

/-- Aperture under AX_BUFCFG_VIEW; RO in view 2 (R410). -/
def Reg.AX_BUF : Fld := ⟨0x8C0, 0, 32, .rw, false, 0x0⟩

/-- The fields of 14_aux_masters.md R410. -/
def Reg.fieldsR410 : List Fld := [
  Reg.AX_SEL, Reg.AX_CFG_HALF, Reg.AX_CFG_SDLY, Reg.AX_CFG_CSPOL, Reg.AX_CFG_EN, Reg.AX_CFG_LSB, Reg.AX_CFG_MODE,
  Reg.AX_DLY_GAP, Reg.AX_DLY_TRAIL, Reg.AX_DLY_LEAD, Reg.AX_XFER_KEEP, Reg.AX_XFER_CS, Reg.AX_XFER_LEN,
  Reg.AX_CTL_ABORT, Reg.AX_CTL_START, Reg.AX_STAT_EV_DISC, Reg.AX_STAT_EV_ABORT, Reg.AX_STAT_EV_TOUT,
  Reg.AX_STAT_DONE, Reg.AX_STAT_STATE, Reg.AX_TOUT, Reg.AX_CNT_CNT, Reg.AX_CNT_BITS, Reg.AX_BUFCFG_VIEW, Reg.AX_BUF]

/-! Registers of 14_aux_masters.md R411. -/

/-- Continuous-read timeout, 64 DCLK (40 ns) units (R411). -/
def Reg.AX_FLCFG_CTOUT : Fld := ⟨0x8A0, 16, 16, .rw, false, 0x19⟩

/-- 4-byte addresses (R411). -/
def Reg.AX_FLCFG_ADDR4 : Fld := ⟨0x8A0, 2, 1, .rw, false, 0x0⟩

/-- Continuous-read mode under R408 (R411). -/
def Reg.AX_FLCFG_CONT : Fld := ⟨0x8A0, 1, 1, .rw, false, 0x0⟩

/-- Mapped read enabled (R411). -/
def Reg.AX_FLCFG_EN : Fld := ⟨0x8A0, 0, 1, .rw, false, 0x0⟩

/-- Byte address [31:2] under R406 (R411). -/
def Reg.AX_FLADDR : Fld := ⟨0x8A1, 2, 30, .rw, false, 0x0⟩

/-- Discard the buffer; end continuous read (R411). -/
def Reg.AX_FLCTL_DROP : Fld := ⟨0x8A2, 1, 1, .wo, false, 0x0⟩

/-- Rerun discovery under R405 (R411). -/
def Reg.AX_FLCTL_DISCOVER : Fld := ⟨0x8A2, 0, 1, .wo, false, 0x0⟩

/-- Block load in progress (R411). -/
def Reg.AX_FLSTAT_BUSY : Fld := ⟨0x8A3, 9, 1, .ro, false, 0x0⟩

/-- CS0 held in continuous read (R411). -/
def Reg.AX_FLSTAT_HOLD : Fld := ⟨0x8A3, 8, 1, .ro, false, 0x0⟩

/-- Words of the block arrived, 0 to 64 (R411). -/
def Reg.AX_FLSTAT_LOADED : Fld := ⟨0x8A3, 0, 7, .ro, false, 0x0⟩

/-- Discovery passed (R411). -/
def Reg.AX_SFDP_OK : Fld := ⟨0x8A4, 31, 1, .ro, false, 0x0⟩

/-- SFDP major revision (R411). -/
def Reg.AX_SFDP_MAJOR : Fld := ⟨0x8A4, 16, 8, .ro, false, 0x0⟩

/-- SFDP minor revision (R411). -/
def Reg.AX_SFDP_MINOR : Fld := ⟨0x8A4, 8, 8, .ro, false, 0x0⟩

/-- log2 of density in bytes (R411). -/
def Reg.AX_SFDP_DENS : Fld := ⟨0x8A4, 0, 6, .ro, false, 0x0⟩

/-- Blocks loaded; wraps (R411). -/
def Reg.AX_FLCNT : Fld := ⟨0x8A5, 0, 32, .ro, false, 0x0⟩

/-- The fields of 14_aux_masters.md R411. -/
def Reg.fieldsR411 : List Fld := [
  Reg.AX_FLCFG_CTOUT, Reg.AX_FLCFG_ADDR4, Reg.AX_FLCFG_CONT, Reg.AX_FLCFG_EN, Reg.AX_FLADDR, Reg.AX_FLCTL_DROP,
  Reg.AX_FLCTL_DISCOVER, Reg.AX_FLSTAT_BUSY, Reg.AX_FLSTAT_HOLD, Reg.AX_FLSTAT_LOADED, Reg.AX_SFDP_OK,
  Reg.AX_SFDP_MAJOR, Reg.AX_SFDP_MINOR, Reg.AX_SFDP_DENS, Reg.AX_FLCNT]

/-! Registers of 15_boot.md R427. -/

/-- Vernissage entered from WAIT (R427). -/
def Reg.GL_BOOTSTAT_SUPV : Fld := ⟨0x010, 18, 1, .ro, false, 0x0⟩

/-- Read repeated at 25 MHz under R420 (R427). -/
def Reg.GL_BOOTSTAT_RETRY : Fld := ⟨0x010, 17, 1, .ro, false, 0x0⟩

/-- BOOTHALF used (R427). -/
def Reg.GL_BOOTSTAT_FASTCLK : Fld := ⟨0x010, 16, 1, .ro, false, 0x0⟩

/-- Signature verified against the fused key hash (R427). -/
def Reg.GL_BOOTSTAT_SIGNED : Fld := ⟨0x010, 15, 1, .ro, false, 0x0⟩

/-- Image carried HOLD (R427). -/
def Reg.GL_BOOTSTAT_HOLD : Fld := ⟨0x010, 14, 1, .ro, false, 0x0⟩

/-- Code of R421 from the last load; 0 none (R427). -/
def Reg.GL_BOOTSTAT_ERR : Fld := ⟨0x010, 8, 4, .ro, false, 0x0⟩

/-- 2 LOAD, 3 LOADED, 4 WAIT, 5 VERN, 6 READY (R427). -/
def Reg.GL_BOOTSTAT_STAGE : Fld := ⟨0x010, 0, 3, .ro, false, 0x2⟩

/-- End the load with code 9 (R427). -/
def Reg.GL_BOOTCTL_SKIP : Fld := ⟨0x011, 2, 1, .wo, false, 0x0⟩

/-- Run the load again (R427). -/
def Reg.GL_BOOTCTL_RELOAD : Fld := ⟨0x011, 1, 1, .wo, false, 0x0⟩

/-- Start Vernissage (R427). -/
def Reg.GL_BOOTCTL_VERNISSAGE : Fld := ⟨0x011, 0, 1, .wo, false, 0x0⟩

/-- Byte offset under R421 (R427). -/
def Reg.GL_BOOTERR : Fld := ⟨0x012, 0, 32, .ro, false, 0x0⟩

/-- V − P, µs, rounded down; 0 before V; saturates (R427). -/
def Reg.GL_BOOTTIME : Fld := ⟨0x013, 0, 32, .ro, false, 0x0⟩

/-- IMAGEID [31:0] of the image applied; read latches [63:32] (R427). -/
def Reg.GL_IMAGEID_LO : Fld := ⟨0x014, 0, 32, .ro, false, 0x0⟩

/-- Latched [63:32] (R427). -/
def Reg.GL_IMAGEID_HI : Fld := ⟨0x015, 0, 32, .ro, false, 0x0⟩

/-- Serial number [31:0] (R427). -/
def Reg.GL_SERIAL_LO : Fld := ⟨0x016, 0, 32, .ro, false, 0x0⟩

/-- Serial number [63:32] (R427). -/
def Reg.GL_SERIAL_HI : Fld := ⟨0x017, 0, 32, .ro, false, 0x0⟩

/-- Rows with uncorrectable errors (R427). -/
def Reg.GL_FUSESTAT_FAILROWS : Fld := ⟨0x018, 16, 16, .ro, false, 0x0⟩

/-- Rows corrected (R427). -/
def Reg.GL_FUSESTAT_CORRECTED : Fld := ⟨0x018, 0, 16, .ro, false, 0x0⟩

/-- The fields of 15_boot.md R427. -/
def Reg.fieldsR427 : List Fld := [
  Reg.GL_BOOTSTAT_SUPV, Reg.GL_BOOTSTAT_RETRY, Reg.GL_BOOTSTAT_FASTCLK, Reg.GL_BOOTSTAT_SIGNED,
  Reg.GL_BOOTSTAT_HOLD, Reg.GL_BOOTSTAT_ERR, Reg.GL_BOOTSTAT_STAGE, Reg.GL_BOOTCTL_SKIP, Reg.GL_BOOTCTL_RELOAD,
  Reg.GL_BOOTCTL_VERNISSAGE, Reg.GL_BOOTERR, Reg.GL_BOOTTIME, Reg.GL_IMAGEID_LO, Reg.GL_IMAGEID_HI,
  Reg.GL_SERIAL_LO, Reg.GL_SERIAL_HI, Reg.GL_FUSESTAT_FAILROWS, Reg.GL_FUSESTAT_CORRECTED]

/-! Registers of 16_power_reset.md R445. -/

/-- State under R430 (R445). -/
def Reg.PW_STAT_MEM1 : Fld := ⟨0x100, 24, 2, .ro, false, 0x0⟩

/-- State (R445). -/
def Reg.PW_STAT_MEM0 : Fld := ⟨0x100, 22, 2, .ro, false, 0x0⟩

/-- State (R445). -/
def Reg.PW_STAT_HINGE : Fld := ⟨0x100, 20, 2, .ro, false, 0x0⟩

/-- State (R445). -/
def Reg.PW_STAT_HOST : Fld := ⟨0x100, 18, 2, .ro, false, 0x0⟩

/-- State (R445). -/
def Reg.PW_STAT_CORE : Fld := ⟨0x100, 16, 2, .ro, false, 0x0⟩

/-- Octant o in [2o+1:2o] (R445). -/
def Reg.PW_STAT_OCT : Fld := ⟨0x100, 0, 16, .ro, false, 0x0⟩

/-- Self-refresh entry time, µs, 1 to 255; 0 returns E_VALUE (R445). -/
def Reg.PW_MEMCFG_SRT : Fld := ⟨0x101, 16, 8, .rw, false, 0xA⟩

/-- Deepest state of MEM1 (R445). -/
def Reg.PW_MEMCFG_MAXST1 : Fld := ⟨0x101, 2, 2, .rw, false, 0x3⟩

/-- Deepest state of MEM0 (R445). -/
def Reg.PW_MEMCFG_MAXST0 : Fld := ⟨0x101, 0, 2, .rw, false, 0x3⟩

/-- Deepest state of octant o = word − 0x108 (R445). -/
def Reg.PW_OCTCFG_MAXST : Fld := ⟨0x108, 24, 2, .rw, false, 0x3⟩

/-- Time in NAP before DARK, 100 µs units, 1 to 255 (R445). -/
def Reg.PW_OCTCFG_DARKT : Fld := ⟨0x108, 16, 8, .rw, false, 0xA⟩

/-- Time in IDLE before NAP, µs, 1 to 255 (R445). -/
def Reg.PW_OCTCFG_NAPT : Fld := ⟨0x108, 8, 8, .rw, false, 0x64⟩

/-- Time without activity before IDLE, 64 DCLK (40 ns) units, 1 to 255; 0 in any timer returns E_VALUE (R445). -/
def Reg.PW_OCTCFG_IDLET : Fld := ⟨0x108, 0, 8, .rw, false, 0x19⟩

/-- Returns to RUN from NAP or DARK; wraps (R445). -/
def Reg.PW_OCTSTAT_WAKES : Fld := ⟨0x110, 16, 16, .ro, false, 0x0⟩

/-- 0 none, 1 receive transition, 2 station source, 3 descriptor, 4 monitor arm, 5 contact unit, 6 span change, 7 chain write, 8 permission change (R445). -/
def Reg.PW_OCTSTAT_LASTCAUSE : Fld := ⟨0x110, 12, 4, .ro, false, 0x0⟩

/-- Bit 0 transmitter, 1 monitor, 2 contact unit, 3 span change or shadow rule (R445). -/
def Reg.PW_OCTSTAT_HOLD : Fld := ⟨0x110, 4, 4, .ro, false, 0x0⟩

/-- Permission under R433 (R445). -/
def Reg.PW_OCTSTAT_PERMIT : Fld := ⟨0x110, 2, 2, .ro, false, 0x3⟩

/-- Must be 0x0A5F under R439 (R445). -/
def Reg.PW_RSTCTL_CONFIRM : Fld := ⟨0x120, 16, 16, .wo, false, 0x0⟩

/-- SOFT reset (R445). -/
def Reg.PW_RSTCTL_SOFT : Fld := ⟨0x120, 15, 1, .wo, false, 0x0⟩

/-- Bit 8 CORE, 9 HOST, 10 HINGE, 11 MEM0, 12 MEM1 (R445). -/
def Reg.PW_RSTCTL_DOM : Fld := ⟨0x120, 8, 5, .wo, false, 0x0⟩

/-- Bit o: OCTo reset (R445). -/
def Reg.PW_RSTCTL_OCT : Fld := ⟨0x120, 0, 8, .wo, false, 0x0⟩

/-- PERST# assertions since POR; saturates (R445). -/
def Reg.PW_RSTSTAT_PERST : Fld := ⟨0x121, 16, 8, .ro, false, 0x0⟩

/-- SOFT resets since POR; saturates (R445). -/
def Reg.PW_RSTSTAT_SOFT : Fld := ⟨0x121, 8, 8, .ro, false, 0x0⟩

/-- Last kind: 1 POR, 2 SOFT, 3 CORE, 4 HOST, 5 PERST#, 6 HINGE, 7 MEM0, 8 MEM1, 9 OCT, 10 CHAIN, 11 TAKEOVER (R445). -/
def Reg.PW_RSTSTAT_LAST : Fld := ⟨0x121, 0, 4, .ro, false, 0x1⟩

/-- Segments freed under R441; saturates (R445). -/
def Reg.PW_LOST_SEG : Fld := ⟨0x122, 16, 16, .ro, false, 0x0⟩

/-- Records discarded under R441; saturates (R445). -/
def Reg.PW_LOST_REC : Fld := ⟨0x122, 0, 16, .ro, false, 0x0⟩

/-- The fields of 16_power_reset.md R445. -/
def Reg.fieldsR445 : List Fld := [
  Reg.PW_STAT_MEM1, Reg.PW_STAT_MEM0, Reg.PW_STAT_HINGE, Reg.PW_STAT_HOST, Reg.PW_STAT_CORE, Reg.PW_STAT_OCT,
  Reg.PW_MEMCFG_SRT, Reg.PW_MEMCFG_MAXST1, Reg.PW_MEMCFG_MAXST0, Reg.PW_OCTCFG_MAXST, Reg.PW_OCTCFG_DARKT,
  Reg.PW_OCTCFG_NAPT, Reg.PW_OCTCFG_IDLET, Reg.PW_OCTSTAT_WAKES, Reg.PW_OCTSTAT_LASTCAUSE, Reg.PW_OCTSTAT_HOLD,
  Reg.PW_OCTSTAT_PERMIT, Reg.PW_RSTCTL_CONFIRM, Reg.PW_RSTCTL_SOFT, Reg.PW_RSTCTL_DOM, Reg.PW_RSTCTL_OCT,
  Reg.PW_RSTSTAT_PERST, Reg.PW_RSTSTAT_SOFT, Reg.PW_RSTSTAT_LAST, Reg.PW_LOST_SEG, Reg.PW_LOST_REC]

/-! Registers of 17_almanac.md R460. -/

/-- Write entries to the ring; writing 1 returns E_VALUE unless AL_CFG_RING is ACTIVE and of kind event (R460). -/
def Reg.AL_CFG_EN : Fld := ⟨0x1C0, 8, 1, .rw, true, 0x0⟩

/-- Almanac ring; E_STATE while EN is 1 (R460). -/
def Reg.AL_CFG_RING : Fld := ⟨0x1C0, 0, 8, .rw, true, 0x0⟩

/-- Checkpoint cut under R456 (R460). -/
def Reg.AL_CTL_CUT : Fld := ⟨0x1C1, 0, 1, .wo, false, 0x0⟩

/-- Entries in the queue, 0 to 16,384 (R460). -/
def Reg.AL_STAT_QUEUED : Fld := ⟨0x1C2, 16, 15, .ro, false, 0x0⟩

/-- State digests differ under R449 (R460). -/
def Reg.AL_STAT_MIRDIFF : Fld := ⟨0x1C2, 5, 1, .w1c, false, 0x0⟩

/-- A LAPSE was formed (R460). -/
def Reg.AL_STAT_LAPSE : Fld := ⟨0x1C2, 4, 1, .w1c, false, 0x0⟩

/-- Checkpoint being signed (R460). -/
def Reg.AL_STAT_SIGNING : Fld := ⟨0x1C2, 3, 1, .ro, false, 0x0⟩

/-- Formation halted under R452 (R460). -/
def Reg.AL_STAT_HALT : Fld := ⟨0x1C2, 2, 1, .ro, false, 0x0⟩

/-- Own chain suspended under R457 (R460). -/
def Reg.AL_STAT_SUSP : Fld := ⟨0x1C2, 1, 1, .ro, false, 0x0⟩

/-- Key material absent (R460). -/
def Reg.AL_STAT_NOKEY : Fld := ⟨0x1C2, 0, 1, .ro, false, 0x0⟩

/-- Entries committed, [31:0]; read latches [63:32] (R460). -/
def Reg.AL_CMT_LO : Fld := ⟨0x1C3, 0, 32, .ro, false, 0x0⟩

/-- Latched [63:32] (R460). -/
def Reg.AL_CMT_HI : Fld := ⟨0x1C4, 0, 32, .ro, false, 0x0⟩

/-- CPCOUNT of the last committed checkpoint, [31:0] (R460). -/
def Reg.AL_CPCOUNT : Fld := ⟨0x1C5, 0, 32, .ro, false, 0x0⟩

/-- Entries not formed since POR; saturates (R460). -/
def Reg.AL_NOTFORMED : Fld := ⟨0x1C6, 0, 32, .ro, false, 0x0⟩

/-- Hash of the last committed entry; word i holds bytes 4i to 4i + 3, byte 4i in [31:24] (R460). -/
def Reg.AL_HEAD : Fld := ⟨0x1C8, 0, 32, .ro, false, 0x0⟩

/-- x in words 0 to 7, y in words 8 to 15, byte order as AL_HEAD (R460). -/
def Reg.AL_PUBKEY : Fld := ⟨0x1D0, 0, 32, .ro, false, 0x0⟩

/-- Certificate length, bytes (R460). -/
def Reg.AL_CERTLEN : Fld := ⟨0x1E0, 0, 12, .ro, false, 0x0⟩

/-- Certificate byte address [10:2] (R460). -/
def Reg.AL_CERTADDR : Fld := ⟨0x1E1, 2, 9, .rw, false, 0x0⟩

/-- Bytes at AL_CERTADDR, the first in [31:24]; a single read advances AL_CERTADDR by 4; 0 past AL_CERTLEN (R460). -/
def Reg.AL_CERTDATA : Fld := ⟨0x1E2, 0, 32, .ro, false, 0x0⟩

/-- The fields of 17_almanac.md R460. -/
def Reg.fieldsR460 : List Fld := [
  Reg.AL_CFG_EN, Reg.AL_CFG_RING, Reg.AL_CTL_CUT, Reg.AL_STAT_QUEUED, Reg.AL_STAT_MIRDIFF, Reg.AL_STAT_LAPSE,
  Reg.AL_STAT_SIGNING, Reg.AL_STAT_HALT, Reg.AL_STAT_SUSP, Reg.AL_STAT_NOKEY, Reg.AL_CMT_LO, Reg.AL_CMT_HI,
  Reg.AL_CPCOUNT, Reg.AL_NOTFORMED, Reg.AL_HEAD, Reg.AL_PUBKEY, Reg.AL_CERTLEN, Reg.AL_CERTADDR, Reg.AL_CERTDATA]

/-! Registers of 18_electrical_package.md R478. -/

/-- Die of the last trip: 0 core, 1 to 4 SIO0 to SIO3, 5 and 6 HBM3 stacks 0 and 1; kept under R474 (R478). -/
def Reg.GL_THERM_TRIPDIE : Fld := ⟨0x00C, 27, 3, .ro, false, 0x0⟩

/-- Trips under R474; saturates at 7; kept under R474 (R478). -/
def Reg.GL_THERM_TRIPS : Fld := ⟨0x00C, 24, 3, .ro, false, 0x0⟩

/-- Hotter HBM3 stack, °C (R478). -/
def Reg.GL_THERM_THBM : Fld := ⟨0x00C, 16, 8, .ro, false, 0x0⟩

/-- Hottest SIO die, °C (R478). -/
def Reg.GL_THERM_TSIO : Fld := ⟨0x00C, 8, 8, .ro, false, 0x0⟩

/-- Core die, °C (R478). -/
def Reg.GL_THERM_TCORE : Fld := ⟨0x00C, 0, 8, .ro, false, 0x0⟩

/-- Hysteresis, °C, 1 to 15; 0 returns E_VALUE (R478). -/
def Reg.GL_THERMCFG_HYST : Fld := ⟨0x00D, 8, 4, .rw, false, 0x3⟩

/-- Warning limit, °C, 60 to 105; other values return E_VALUE (R478). -/
def Reg.GL_THERMCFG_WARN : Fld := ⟨0x00D, 0, 8, .rw, false, 0x64⟩

/-- The fields of 18_electrical_package.md R478. -/
def Reg.fieldsR478 : List Fld := [
  Reg.GL_THERM_TRIPDIE, Reg.GL_THERM_TRIPS, Reg.GL_THERM_THBM, Reg.GL_THERM_TSIO, Reg.GL_THERM_TCORE,
  Reg.GL_THERMCFG_HYST, Reg.GL_THERMCFG_WARN]

/-- All fields of the map (R479). -/
def Reg.fields : List Fld :=
  Reg.fieldsR29 ++
  Reg.fieldsR30 ++
  Reg.fieldsR31 ++
  Reg.fieldsR33 ++
  Reg.fieldsR34 ++
  Reg.fieldsR60 ++
  Reg.fieldsR61 ++
  Reg.fieldsR62 ++
  Reg.fieldsR63 ++
  Reg.fieldsR65 ++
  Reg.fieldsR97 ++
  Reg.fieldsR127 ++
  Reg.fieldsR163 ++
  Reg.fieldsR163b ++
  Reg.fieldsR164 ++
  Reg.fieldsR209 ++
  Reg.fieldsR211 ++
  Reg.fieldsR221 ++
  Reg.fieldsR266 ++
  Reg.fieldsR266b ++
  Reg.fieldsR291 ++
  Reg.fieldsR292 ++
  Reg.fieldsR293 ++
  Reg.fieldsR329 ++
  Reg.fieldsR330 ++
  Reg.fieldsR355 ++
  Reg.fieldsR357 ++
  Reg.fieldsR358 ++
  Reg.fieldsR375 ++
  Reg.fieldsR376 ++
  Reg.fieldsR393 ++
  Reg.fieldsR394 ++
  Reg.fieldsR410 ++
  Reg.fieldsR411 ++
  Reg.fieldsR427 ++
  Reg.fieldsR445 ++
  Reg.fieldsR460 ++
  Reg.fieldsR478

end Sys2Proof.Machine
end

