-- ==== Sys2Proof/Machine/State.lean ====
section
/-!
DEFINITION. The state of one device, as plain data: the queue of waiting commands and everything the spec gives the
machine. Registers live in `regs` by instance and word; state that a register only shows lives in its own field.
-/
namespace Sys2Proof.Machine

/-- Why a command stops with a fault. The device has no such command: every operation of the table has an effect in every
state, so no meaning raises one. -/
inductive Fault where
  /-- Raised by no meaning. Safe: it stops the machine. -/
  | none
  deriving DecidableEq, Repr

/-- Why a command is refused. -/
inductive Refusal where
  /-- Raised by an arm of `exec` whose command has no meaning yet. Safe: the machine stops. -/
  | notModelled (mnemonic : String)
  deriving DecidableEq, Repr

/-- The state of the device. -/
structure State where
  /-- Commands that wait, first in, first out. -/
  pending : List Instr := []
  /-- DCLK edges since edge P, and the tick counter C at that edge (R35). -/
  now     : Nat := 0
  c       : Stamp := 0
  /-- The strap of the pair role (R240). -/
  strap   : Role := .solo
  /-- Registers by instance * 4096 + word; an unlisted one holds its reset value. -/
  regs    : Sparse Word := []
  clk     : Clock := {}
  boot    : Boot := {}
  chain   : Chain := {}
  tb      : Timebase := {}
  hinge   : Hinge := {}
  link    : Link := {}
  power   : Power := {}
  flash   : Flash := {}
  almanac : Almanac := {}
  pins    : Sparse Pin := []
  ports   : Sparse Port := []
  rings   : Sparse Ring := []
  groups  : Sparse Group := []
  mons    : Sparse Monitor := []
  cus     : Sparse Cu := []
  auxs    : Sparse Aux := []
  octs    : Sparse Octant := []
  /-- Sources by the value of CA_SRCSEL that names them (R269). -/
  srcs    : Sparse Src := []
  tgts    : Sparse Tgt := []
  /-- Ring staging (R200), and the edge of the staging-low restriction (R230). -/
  staging : List Rec := []
  stagingLow : Bool := false
  /-- TXDONE, TXECHO and transmit PROFILE records that wait for room in staging, oldest first (R200, R230). -/
  unbuilt : List Rec := []
  /-- Counter moves that wait for a commit (R216). -/
  gated   : List Gated := []
  gapWaits : List GapWait := []
  /-- Mailbox writes and MSI-X messages on their way to the link (R283). -/
  msgs    : List Msg := []
  /-- Flush reads in flight, oldest first; the edge of the last; whether records were issued since (R215). -/
  flushes : List Flush := []
  flushAt : Option Nat := none
  flushDue : Bool := false
  /-- The BULK ring that holds the turn (R198). -/
  bulkAt  : Nat := 0
  /-- Captures in progress and segments in the Canvas (R365 to R369). -/
  segments : List Segment := []
  /-- The upload area: next byte to allocate, and the space in use, oldest first (R369). -/
  upHead  : Nat := 0
  extents : List Extent := []
  /-- Sequence of events (R216) and of confirmations (R195). -/
  nextUid : Nat := 0
  nextOrder : Nat := 0
  /-- The model's own counter of free values taken (log entry 3). -/
  free    : Nat := 0
  /-- Everything the device has put out, oldest first. -/
  out     : List Out := []
  deriving DecidableEq, Repr

/-- The device when POR_N has risen and Gesso begins (R412): nothing locked, every register at its Reset column. -/
def State.reset : State := {}

end Sys2Proof.Machine
end

