-- ==== Sys2Proof/Machine/Ops.lean ====
section
/-!
DEFINITION. The named operations every meaning is written over: sparse stores, registers and their fields, stamps and
time, event numbers, free values and the output list.
-/
namespace Sys2Proof.Machine

/-! ### Sparse stores -/

/-- The value at a key: the listed one, else the default of that key. -/
def Sparse.get (d : Nat → α) : Sparse α → Nat → α
  | [], k => d k
  | (j, v) :: t, k => if j = k then v else Sparse.get d t k

/-- Remove a key. -/
def Sparse.drop : Sparse α → Nat → Sparse α
  | [], _ => []
  | (j, v) :: t, k => if j = k then Sparse.drop t k else (j, v) :: Sparse.drop t k

/-- List a value at its place in the rising order. -/
def Sparse.insert : Sparse α → Nat → α → Sparse α
  | [], k, v => [(k, v)]
  | (j, w) :: t, k, v =>
    if k < j then (k, v) :: (j, w) :: t
    else if k = j then (k, v) :: t
    else (j, w) :: Sparse.insert t k v

/-- Write a key in canonical form: the default of the key is not listed. -/
def Sparse.put [DecidableEq α] (d : Nat → α) (m : Sparse α) (k : Nat) (v : α) : Sparse α :=
  if v = d k then Sparse.drop m k else Sparse.insert m k v

/-- Keys rise strictly from `lo` on, and no entry equals the default of its key. -/
def Sparse.wfFrom [DecidableEq α] (d : Nat → α) : Nat → Sparse α → Bool
  | _, [] => true
  | lo, (k, v) :: t => decide (lo ≤ k) && decide (v ≠ d k) && Sparse.wfFrom d (k + 1) t

/-- The canonical form of a sparse store. -/
abbrev Sparse.wf [DecidableEq α] (d : Nat → α) (m : Sparse α) : Bool := Sparse.wfFrom d 0 m

/-! ### Parts by number -/

def State.pin (s : State) (q : Nat) : Pin := Sparse.get (fun _ => {}) s.pins q
def State.setPin (s : State) (q : Nat) (v : Pin) : State := { s with pins := Sparse.put (fun _ => {}) s.pins q v }
def State.modPin (s : State) (q : Nat) (f : Pin → Pin) : State := s.setPin q (f (s.pin q))

def State.port (s : State) (p : Nat) : Port := Sparse.get (fun _ => {}) s.ports p
def State.setPort (s : State) (p : Nat) (v : Port) : State := { s with ports := Sparse.put (fun _ => {}) s.ports p v }
def State.modPort (s : State) (p : Nat) (f : Port → Port) : State := s.setPort p (f (s.port p))

def State.ring (s : State) (n : Nat) : Ring := Sparse.get (fun _ => {}) s.rings n
def State.setRing (s : State) (n : Nat) (v : Ring) : State := { s with rings := Sparse.put (fun _ => {}) s.rings n v }
def State.modRing (s : State) (n : Nat) (f : Ring → Ring) : State := s.setRing n (f (s.ring n))

def State.group (s : State) (g : Nat) : Group := Sparse.get (fun _ => {}) s.groups g
def State.setGroup (s : State) (g : Nat) (v : Group) : State :=
  { s with groups := Sparse.put (fun _ => {}) s.groups g v }
def State.modGroup (s : State) (g : Nat) (f : Group → Group) : State := s.setGroup g (f (s.group g))

def State.mon (s : State) (q : Nat) : Monitor := Sparse.get (fun _ => {}) s.mons q
def State.setMon (s : State) (q : Nat) (v : Monitor) : State := { s with mons := Sparse.put (fun _ => {}) s.mons q v }
def State.modMon (s : State) (q : Nat) (f : Monitor → Monitor) : State := s.setMon q (f (s.mon q))

def State.cu (s : State) (i : Nat) : Cu := Sparse.get (fun _ => {}) s.cus i
def State.setCu (s : State) (i : Nat) (v : Cu) : State := { s with cus := Sparse.put (fun _ => {}) s.cus i v }
def State.modCu (s : State) (i : Nat) (f : Cu → Cu) : State := s.setCu i (f (s.cu i))

def State.aux (s : State) (m : Nat) : Aux := Sparse.get (fun _ => {}) s.auxs m
def State.setAux (s : State) (m : Nat) (v : Aux) : State := { s with auxs := Sparse.put (fun _ => {}) s.auxs m v }
def State.modAux (s : State) (m : Nat) (f : Aux → Aux) : State := s.setAux m (f (s.aux m))

def State.oct (s : State) (o : Nat) : Octant := Sparse.get (fun _ => {}) s.octs o
def State.setOct (s : State) (o : Nat) (v : Octant) : State := { s with octs := Sparse.put (fun _ => {}) s.octs o v }
def State.modOct (s : State) (o : Nat) (f : Octant → Octant) : State := s.setOct o (f (s.oct o))

def State.src (s : State) (n : Nat) : Src := Sparse.get (fun _ => {}) s.srcs n
def State.setSrc (s : State) (n : Nat) (v : Src) : State := { s with srcs := Sparse.put (fun _ => {}) s.srcs n v }
def State.modSrc (s : State) (n : Nat) (f : Src → Src) : State := s.setSrc n (f (s.src n))

def State.tgt (s : State) (t : Nat) : Tgt := Sparse.get (fun _ => {}) s.tgts t
def State.setTgt (s : State) (t : Nat) (v : Tgt) : State := { s with tgts := Sparse.put (fun _ => {}) s.tgts t v }
def State.modTgt (s : State) (t : Nat) (f : Tgt → Tgt) : State := s.setTgt t (f (s.tgt t))

/-! ### Registers -/

/-- The first word of a repeated word: PTADDR, PINCFG, PINSTAT, OCTCFG, OCTSTAT, AL_HEAD, AL_PUBKEY, AX_BUF, the Cue
rules and the reply store (R479). -/
def baseWord (w : Nat) : Nat :=
  if 0x108 ≤ w ∧ w ≤ 0x10F then 0x108
  else if 0x110 ≤ w ∧ w ≤ 0x117 then 0x110
  else if 0x1C8 ≤ w ∧ w ≤ 0x1CF then 0x1C8
  else if 0x1D0 ≤ w ∧ w ≤ 0x1DF then 0x1D0
  else if 0x421 ≤ w ∧ w ≤ 0x424 then 0x421
  else if 0x601 ≤ w ∧ w ≤ 0x604 then 0x601
  else if 0x608 ≤ w ∧ w ≤ 0x60B then 0x608
  else if 0x8C0 ≤ w ∧ w ≤ 0x8FF then 0x8C0
  else if 0x990 ≤ w ∧ w ≤ 0x9CF then 0x990
  else if 0x910 ≤ w ∧ w ≤ 0x98F then
    if 1 ≤ w % 16 ∧ w % 16 ≤ 4 then 0x911
    else if 5 ≤ w % 16 ∧ w % 16 ≤ 8 then 0x915
    else 0x910 + w % 16
  else w

/-- The fields of a word; none of an unimplemented word (R479). -/
def wordFields (w : Nat) : List Fld :=
  let b := baseWord w
  Reg.fields.filter (fun f => f.word == b)

/-- The value the Reset columns give a word of an instance; fused and fixed values from `Config` (log entries 4, 6). -/
def resetWord (key : Nat) : Word :=
  let w := key % 4096
  let i := key / 4096
  if w = 0x001 then Config.stepCore ++ Config.stepSio ++ (0x2000#16)
  else if w = 0x087 then (Config.passThru.zeroExtend 16) ++ (Config.passIn.zeroExtend 16)
  else if w = 0x0A1 then ((Config.outPath i).zeroExtend 16) ++ ((Config.inPath i).zeroExtend 16)
  else if w = 0x60D then Config.slewDelay 3 ++ Config.slewDelay 2 ++ Config.slewDelay 1 ++ 0#8
  else if w = 0x016 then Config.serial.truncate 32
  else if w = 0x017 then (Config.serial >>> 32).truncate 32
  else if 0x1D0 ≤ w ∧ w ≤ 0x1DF then Config.pubKey (w - 0x1D0)
  else if w = 0x1E0 then Config.certLength.zeroExtend 32
  else (wordFields w).foldl (fun a f => a ||| BitVec.ofNat 32 (f.reset * 2 ^ f.lo)) 0

/-- The stored word of an instance. -/
def State.reg (s : State) (i w : Nat) : Word := Sparse.get resetWord s.regs (i * 4096 + w)

/-- Store a word of an instance. -/
def State.setReg (s : State) (i w : Nat) (v : Word) : State :=
  { s with regs := Sparse.put resetWord s.regs (i * 4096 + w) v }

/-- The value of a field in a word. -/
def Fld.get (f : Fld) (v : Word) : Nat := v.toNat / 2 ^ f.lo % 2 ^ f.width

/-- A word with one field replaced; a value too wide is cut to the field. -/
def Fld.set (f : Fld) (v : Word) (x : Nat) : Word :=
  (v &&& ~~~ f.mask) ||| (BitVec.ofNat 32 (x % 2 ^ f.width * 2 ^ f.lo))

/-- The stored value of a field of an instance. -/
def State.rd (s : State) (f : Fld) (i : Nat := 0) : Nat := f.get (s.reg i f.word)

/-- A one-bit field reads 1. -/
def State.on (s : State) (f : Fld) (i : Nat := 0) : Bool := s.rd f i == 1

/-- Store a field of an instance. -/
def State.wr (s : State) (f : Fld) (x : Nat) (i : Nat := 0) : State := s.setReg i f.word (f.set (s.reg i f.word) x)

/-- Store a one-bit field. -/
def State.wrBit (s : State) (f : Fld) (b : Bool) (i : Nat := 0) : State := s.wr f (if b then 1 else 0) i

/-- Count in a field that saturates at its largest value. -/
def State.incSat (s : State) (f : Fld) (i : Nat := 0) (n : Nat := 1) : State :=
  s.wr f (min (s.rd f i + n) (2 ^ f.width - 1)) i

/-- Count in a field that wraps. -/
def State.incWrap (s : State) (f : Fld) (i : Nat := 0) (n : Nat := 1) : State := s.wr f (s.rd f i + n) i

/-! ### Time and stamps -/

/-- DCLK is valid: the PLL holds lock (R413). -/
def State.clocked (s : State) : Bool := s.clk.locked

/-- Gesso has ended and no loss of lock has stopped the engines (R19, R413). -/
def State.running (s : State) : Bool := s.clk.locked && !s.clk.stopped && s.boot.stage != .gesso

/-- Let DCLK edges pass up to edge `n`: C advances by 16 ticks at each (R35). -/
def State.advance (s : State) (n : Nat) : State :=
  if s.now < n then { s with now := n, c := s.c + BitVec.ofNat 64 (ticksPerEdge * (n - s.now)) } else s

/-- The value of C at a DCLK edge, on the scale in force now. -/
def State.cAt (s : State) (n : Nat) : Stamp :=
  s.c + BitVec.ofNat 64 (ticksPerEdge * n) - BitVec.ofNat 64 (ticksPerEdge * s.now)

/-- Stamp order under R36: `b` is later than `a` when `b - a` modulo 2^64 lies in 1 to 2^63 − 1. -/
def sLt (a b : Stamp) : Bool := a != b && !(b - a).msb

/-- `a` is not later than `b`. -/
def sLe (a b : Stamp) : Bool := !sLt b a

/-- The earlier and the later of two stamps. -/
def sMin (a b : Stamp) : Stamp := if sLt b a then b else a
def sMax (a b : Stamp) : Stamp := if sLt a b then b else a

/-- `b - a` in ticks as a signed number. -/
def sDiff (a b : Stamp) : Int := (b - a).toInt

/-- A number of ticks as a stamp distance. -/
def ticks (n : Nat) : Stamp := BitVec.ofNat 64 n

/-- The transition instant: the mean of the two crossings, rounded down (R72). -/
def PinEvent.t (e : PinEvent) : Stamp := e.s1 + ticks ((e.s2 - e.s1).toNat / 2)

/-- First DCLK edge, from now on, at which C is `t` or later. -/
def State.edgeAt (s : State) (t : Stamp) : Nat :=
  if sLe t s.c then s.now else s.now + ((t - s.c).toNat + 15) / 16

/-- First DCLK edge at which C is `t` or later, in the past too; edge 0 when that lies before edge P. -/
def State.edgeOf (s : State) (t : Stamp) : Nat := ((s.now : Int) - (s.c - t).toInt / 16).toNat

/-- Let time pass to the first DCLK edge at which C is `t` or later. -/
def State.advanceTo (s : State) (t : Stamp) : State := s.advance (s.edgeAt t)

/-- The pair offset subtracted from stamps, signed (R41, R53). -/
def State.pairOfs (s : State) : Stamp := ((BitVec.ofNat 16 (s.rd Reg.TB_PAIROFS_OFS)).signExtend 64)

/-- The stamp of the present DCLK edge: C less the pair offset (R35). -/
def State.stamp (s : State) : Stamp := s.c - s.pairOfs

/-- A crossing on the sampler's scale of pin q, referred to the pin (R41). -/
def State.toPin (s : State) (q : Nat) (x : Stamp) : Stamp :=
  x - (BitVec.ofNat 64 (s.rd Reg.TB_PINPATH_IN_PATH q)) - s.pairOfs

/-- The inverse of `toPin`. -/
def State.toSampler (s : State) (q : Nat) (x : Stamp) : Stamp :=
  x + (BitVec.ofNat 64 (s.rd Reg.TB_PINPATH_IN_PATH q)) + s.pairOfs

/-- Round `a / b` to the nearest integer, halves away from zero (R481). -/
def roundDiv (a b : Nat) : Nat := (2 * a + b) / (2 * b)

/-- The signed form of `roundDiv`. -/
def roundDivInt (a : Int) (b : Nat) : Int :=
  if 0 ≤ a then (roundDiv a.toNat b : Int) else - (roundDiv (-a).toNat b : Int)

/-! ### Event numbers, free values, output -/

/-- Take a fresh event number (R216). -/
def State.fresh (s : State) : Nat × State := (s.nextUid, { s with nextUid := s.nextUid + 1 })

/-- Take the next place in the order of confirmation (R195). -/
def State.takeOrder (s : State) : Nat × State := (s.nextOrder, { s with nextOrder := s.nextOrder + 1 })

/-- Take a free value (log entry 3). -/
def State.takeFree (s : State) : BitVec 64 × State := (Config.freeValue s.free, { s with free := s.free + 1 })

/-- Put something out. -/
def State.emit (s : State) (o : Out) : State := { s with out := s.out ++ [o] }

/-- `n` little-endian bytes of a number (records are little-endian throughout). -/
def leBytes : Nat → Nat → List Byte
  | 0, _ => []
  | n + 1, x => BitVec.ofNat 8 x :: leBytes n (x / 256)

/-- The number little-endian bytes hold. -/
def ofLe : List Byte → Nat
  | [] => 0
  | b :: t => b.toNat + 256 * ofLe t

/-- `n` big-endian bytes of a number. -/
def beBytes (n x : Nat) : List Byte := (leBytes n x).reverse

/-- A list padded with zero bytes, or cut, to a length. -/
def padTo (n : Nat) (l : List Byte) : List Byte := l.take n ++ List.replicate (n - l.length) 0

/-- Bytes `a` to `a + n - 1` of a list; missing ones read 0. -/
def slice (l : List Byte) (a n : Nat) : List Byte := padTo n (l.drop a)

/-! ### Numbering (R2) -/

def octOfPin (q : Nat) : Nat := q / 512
def groupOfPin (q : Nat) : Nat := q / 64
def stationOfPin (q : Nat) : Nat := q / 4
/-- Receive and transmit pin of a port: P1 and P0 of the station for port A, P3 and P2 for port B. -/
def rxPin (p : Nat) : Nat := 2 * p + 1
def txPin (p : Nat) : Nat := 2 * p
/-- Octant of a port. -/
def octOfPort (p : Nat) : Nat := p / 256

/-- The receive state, or the one frozen in HELD (R93). -/
def Port.rxNow (x : Port) : RxState := if x.rx = .held then x.rxHeld else x.rx

/-- The receive side is OFF or STARVED, or frozen in STARVED. -/
def Port.rxIdle (x : Port) : Bool := x.rxNow == .off || x.rxNow == .starved

/-- The settings for a character that starts at an instant: those before the last boundary up to it (R69). -/
def Port.setAt (x : Port) (t : Stamp) : Settings :=
  match x.setOld with
  | some (b, old) => if sLe t b then old else x.set
  | none => x.set

/-- The octant of a pin is in RUN, and the link of its die has not failed: its receive, transmit and monitor functions work
(R13, R28). -/
def State.pinRuns (s : State) (q : Nat) : Bool := (s.oct (octOfPin q)).state == .run && !(s.oct (octOfPin q)).failed

end Sys2Proof.Machine
end

