-- ==== Sys2Proof/Machine/Hash.lean ====
section
/-!
DEFINITION. The checksums the spec gives in full, CRC-8 and CRC-16 of the chain (R307, R309) and CRC-32C of decision
blocks (R243), and SHA-256, which the Almanac and the image name and FIPS 180-4 defines (PRESUMED, log entry 7).
-/
namespace Sys2Proof.Machine

/-- The bits of an `n`-bit number, most significant first. -/
def msbBits : Nat → Nat → List Bool
  | 0, _ => []
  | n + 1, x => x.testBit n :: msbBits n x

/-- The number a list of bits spells, most significant first. -/
def ofMsb (l : List Bool) : Nat := l.foldl (fun a b => 2 * a + b.toNat) 0

/-- One bit of a left-shifting CRC. -/
def crcStep {w : Nat} (poly : BitVec w) (r : BitVec w) (b : Bool) : BitVec w :=
  if r.msb == b then r <<< 1 else (r <<< 1) ^^^ poly

/-- CRC-8 over bits, most significant first (R307). -/
def crc8 (bits : List Bool) : BitVec 8 := bits.foldl (crcStep 0x07#8) 0xFF#8

/-- CRC-16 over data words, each most significant bit first (R309). -/
def crc16 (ws : List Word) : BitVec 16 :=
  (ws.flatMap (fun w => msbBits 32 w.toNat)).foldl (crcStep 0x1021#16) 0xFFFF#16

/-- One bit of the reflected CRC-32C. -/
def crc32cBit (r : BitVec 32) : BitVec 32 :=
  if r.getLsbD 0 then (r >>> 1) ^^^ 0x82F63B78#32 else r >>> 1

/-- CRC-32C over bytes, reflected, initial value and final XOR all ones (R243; parameters PRESUMED, log entry 8). -/
def crc32c (bytes : List Byte) : BitVec 32 :=
  bytes.foldl (fun r b =>
    let x := r ^^^ b.zeroExtend 32
    crc32cBit (crc32cBit (crc32cBit (crc32cBit (crc32cBit (crc32cBit (crc32cBit (crc32cBit x)))))))) 0xFFFFFFFF#32
    ^^^ 0xFFFFFFFF#32

/-! ### SHA-256 -/

/-- The primes below a bound, which the constants are drawn from. -/
def primesBelow (n : Nat) : List Nat :=
  (List.range n).filter (fun p => decide (2 ≤ p) && (List.range p).all (fun d => decide (d < 2) || p % d != 0))

/-- The first 32 bits behind the point of the `k`-th root of a prime, for a root below 8: the largest `a` with `a ^ k` at most
`p` shifted left by `32 k`, found bit by bit. -/
def rootFraction (k p : Nat) : BitVec 32 :=
  BitVec.ofNat 32 ((List.range 35).foldr (fun b a => if (a + 2 ^ b) ^ k ≤ p * 2 ^ (32 * k) then a + 2 ^ b else a) 0)

/-- The 64 round constants, from the cube roots of the first 64 primes. -/
def shaK : List (BitVec 32) := (primesBelow 312).map (rootFraction 3)

/-- The initial hash value, from the square roots of the first eight primes. -/
def shaInit : List (BitVec 32) := (primesBelow 20).map (rootFraction 2)

/-- The message with its padding, as 32-bit words. -/
def shaPad (m : List Byte) : List Byte :=
  let n := m.length
  m ++ [0x80#8] ++ List.replicate ((119 - n % 64) % 64) 0#8 ++ beBytes 8 (8 * n)

/-- Big-endian words of bytes. -/
def beWords : List Byte → List (BitVec 32)
  | a :: b :: c :: d :: t => (a ++ b ++ c ++ d) :: beWords t
  | _ => []

/-- Word k of a list, zero beyond its end. -/
def wordAt (l : List (BitVec 32)) (k : Nat) : BitVec 32 := l.getD k 0

/-- Extend the message schedule by `n` words; the list holds the newest word first. -/
def shaSchedule : Nat → List (BitVec 32) → List (BitVec 32)
  | 0, w => w
  | n + 1, w =>
    let a := wordAt w 14
    let b := wordAt w 1
    let s0 := a.rotateRight 7 ^^^ a.rotateRight 18 ^^^ (a >>> 3)
    let s1 := b.rotateRight 17 ^^^ b.rotateRight 19 ^^^ (b >>> 10)
    shaSchedule n ((wordAt w 15 + s0 + wordAt w 6 + s1) :: w)

/-- One round on the eight working words. -/
def shaRound (v : List (BitVec 32)) (kw : BitVec 32 × BitVec 32) : List (BitVec 32) :=
  match v with
  | [a, b, c, d, e, f, g, h] =>
    let s1 := e.rotateRight 6 ^^^ e.rotateRight 11 ^^^ e.rotateRight 25
    let ch := (e &&& f) ^^^ (~~~ e &&& g)
    let t1 := h + s1 + ch + kw.1 + kw.2
    let s0 := a.rotateRight 2 ^^^ a.rotateRight 13 ^^^ a.rotateRight 22
    let maj := (a &&& b) ^^^ (a &&& c) ^^^ (b &&& c)
    [t1 + s0 + maj, a, b, c, d + t1, e, f, g]
  | _ => v

/-- The blocks of 16 words of a padded message. -/
def shaBlocks : Nat → List (BitVec 32) → List (List (BitVec 32))
  | 0, _ => []
  | n + 1, l => l.take 16 :: shaBlocks n (l.drop 16)

/-- One block. -/
def shaBlock (h : List (BitVec 32)) (blk : List (BitVec 32)) : List (BitVec 32) :=
  let w := (shaSchedule 48 blk.reverse).reverse
  let v := (shaK.zip w).foldl shaRound h
  (h.zip v).map (fun x => x.1 + x.2)

/-- SHA-256 of a byte string: 32 bytes. -/
def sha256 (m : List Byte) : List Byte :=
  let p := shaPad m
  let r := (shaBlocks (p.length / 64) (beWords p)).foldl shaBlock shaInit
  r.flatMap (fun w => beBytes 4 w.toNat)

end Sys2Proof.Machine
end

