-- ==== Sys2Proof/Machine/Sources.lean ====
section
/-!
DEFINITION. Events of Carillon sources (09_carillon.md R274, R276, R277, R286): what a record, an alert or a device event does to
its source. A source is named by the value of CA_SRCSEL that names it.
-/
namespace Sys2Proof.Machine

/-- Enabled: EN is 1 and PRIO above 0 (R276). -/
def State.srcOn (s : State) (n : Nat) : Bool := s.on Reg.CA_SCFG_EN n && decide (0 < s.rd Reg.CA_SCFG_PRIO n)

/-- The link is up (R206): L0 or L1. -/
def Link.up (l : Link) : Bool := l.pm == .l0 || l.pm == .l1

/-- A sleep condition of R286 holds: one of R206. -/
def State.sleeping (s : State) : Bool := s.link.d3hot || !s.link.bme || !s.link.up

/-- Ripe (R274): the count is reached, or the timer, or events do not wait (COUNT 1, TIME 0, a sleep condition). -/
def State.ripe (s : State) (n : Nat) (x : Src) : Bool :=
  decide (0 < x.held) &&
  (decide (s.rd Reg.CA_SCOAL_COUNT n ≤ x.held) || s.rd Reg.CA_SCOAL_TIME n == 0 || s.sleeping ||
   (match x.timer with
    | some t => decide (t + 160 * s.rd Reg.CA_SCOAL_TIME n ≤ s.now)
    | none => false))

/-- One event of a source at a stamp (R274, R277); `rec` is the record that counts. Events of a disabled source are not
held. -/
def State.srcEvent (s : State) (n : Nat) (stamp : Stamp) (rec : Option Nat := none) : State :=
  if !s.srcOn n then s else
  s.modSrc n (fun x =>
    let x := { x with held := min (x.held + 1) 65535, timer := x.timer.or (some s.now), recs := x.recs ++ rec.toList }
    match x.state with
    | .pend | .active => x
    | .idle | .hold => if s.ripe n x then { x with state := .pend, stamp := stamp } else { x with state := .hold })

end Sys2Proof.Machine
end

