-- ==== Sys2Proof/Machine/Records.lean ====
section
/-!
DEFINITION. Records: their bytes (R178 to R190), ring staging (R200, R201), commit-gated counters (R216), open items and
the horizon point (R193, R194), GAP records (R190, R234 to R236).
-/
namespace Sys2Proof.Machine

/-! ### Bytes of a record -/

/-- TYPE codes (R180). -/
def RecType.code : RecType → Nat
  | .chr => 0x01 | .varnish => 0x02 | .pentimento => 0x03 | .brk => 0x04 | .edge => 0x05 | .overflow => 0x06
  | .profile => 0x07 | .meter => 0x08 | .txdesc => 0x09 | .txdone => 0x0A | .txecho => 0x0B | .cue => 0x0C
  | .event => 0x0D | .breach => 0x0E | .gap => 0x0F | .capture => 0x10 | .almanac => 0x11

/-- COUNT of the header: characters in the record (R178). -/
def RecBody.count : RecBody → Nat
  | .chars _ _ cs => cs.length
  | .raw _ => 0

/-- Delta of a character in units of 8 ticks (R183). -/
def deltaOf (base : Stamp) (c : RecChar) : Nat := ((c.stamp - base).toNat + 4) / 8

/-- Bytes 16 to 63 of a record (R183, R184). -/
def RecBody.bytes (base : Stamp) : RecBody → List Byte
  | .chars true cf cs =>
    padTo 40 (cs.map (fun c => c.data.truncate 8)) ++ leBytes 2 cf.toNat ++ leBytes 2 0 ++
      leBytes 4 ((cs.getLast?.map (·.stamp)).getD base - base).toNat
  | .chars false cf cs =>
    padTo 16 (cs.map (fun c => c.data.truncate 8)) ++ leBytes 2 cf.toNat ++
      padTo 30 ((cs.drop 1).flatMap (fun c => leBytes 2 (deltaOf base c)))
  | .raw b => padTo 48 b

/-- The header word of a record for a PHASE (R178, R179). -/
def Rec.header (r : Rec) (phase : Bool) : Nat :=
  let low := if r.prov then r.lane * 2 ^ 9
    else (if r.breach || r.type = .breach then 2 ^ 11 else 0) + (if r.late then 2 ^ 10 else 0) +
      (if r.err then 2 ^ 9 else 0)
  r.seq.toNat * 2 ^ 32 + r.port * 2 ^ 21 + r.partner * 2 ^ 19 + r.body.count * 2 ^ 13 +
    (if r.type = .gap then 2 ^ 12 else 0) + low + (if r.type = .pentimento then 2 ^ 8 else 0) +
    (if r.type = .varnish then 2 ^ 7 else 0) + (if r.prov then 2 ^ 6 else 0) + (if phase then 2 ^ 5 else 0) +
    r.type.code

/-- The 64 bytes of a record. -/
def Rec.bytes (r : Rec) (phase : Bool) : List Byte :=
  leBytes 8 (r.header phase) ++ leBytes 8 r.base.toNat ++ r.body.bytes r.base

/-! ### Commit-gated counters (R216) -/

/-- The replies that have no character on the line: those that wait, behind the one committed for the end of a character. -/
def Port.waiting (x : Port) : List Reply :=
  (match x.ahead with | some { what := .reply r, .. } => [r] | _ => []) ++ x.replies

/-- Events that an uncommitted record, an entry not yet built, or a Cue match without its record still carries. -/
def State.heldEvents (s : State) : List Nat :=
  s.staging.flatMap (·.events) ++ s.unbuilt.flatMap (·.events) ++
  s.ports.flatMap (fun x =>
    (x.2.entries.filter (fun e => !e.built)).map (·.uid) ++ x.2.waiting.map (·.uid) ++
    (match x.2.sending with
     | some { job := .reply r, .. } => [r.uid]
     | _ => []))

/-- The field a gated move names. -/
def Gated.fld (g : Gated) : Fld := ⟨g.word, g.lo, g.width, .ro, false, 0⟩

/-- Words that hold commit-gated counters and results (R216). -/
def gatedWord (w : Nat) : Bool :=
  decide (0x407 ≤ w ∧ w ≤ 0x413) || decide (0x910 ≤ w ∧ w ≤ 0x98F ∧ w % 16 = 12) ||
  [0x417, 0x418, 0x41B, 0x41F, 0x426, 0x507, 0x509, 0x50B, 0x50C, 0x50D, 0x70F, 0x710, 0x902].contains w

/-- Apply a gated move to the register it names. -/
def State.move (s : State) (g : Gated) : State :=
  if !gatedWord g.word then s else
  match g.move with
  | .wrap => s.incWrap g.fld g.inst g.amount
  | .sat => s.incSat g.fld g.inst g.amount
  | .set => s.wr g.fld g.amount g.inst

/-- Apply, in order, the moves none of whose events is still held. -/
def State.settle (s : State) : State :=
  let held := s.heldEvents
  let ready := fun (g : Gated) => g.waits.all (fun e => !held.contains e)
  (s.gated.filter ready).foldl State.move { s with gated := s.gated.filter (fun g => !ready g) }

/-- A counted event (R216): the move of a field that waits for these events, `own` when they are its own records'; at once
when none is held. -/
def State.count (s : State) (m : Move) (f : Fld) (i : Nat) (n : Nat) (waits : List Nat) (own : Bool := true) : State :=
  State.settle { s with gated := s.gated ++ [⟨f.word, f.lo, f.width, i, m, n, waits, own⟩] }

/-- Records of the port's own kinds (R216): not EVENT, CAPTURE and ALMANAC records that name it. -/
def Rec.ofPort (r : Rec) (p : Nat) : Bool :=
  r.port == p && r.type != .event && r.type != .capture && r.type != .almanac

/-- Events of records and entries of a port that are not committed (R216). -/
def State.portEvents (s : State) (p : Nat) : List Nat :=
  (s.staging.filter (·.ofPort p)).flatMap (·.events) ++ (s.unbuilt.filter (·.ofPort p)).flatMap (·.events) ++
  ((s.port p).entries.filter (fun e => !e.built)).map (·.uid)

/-- Events of records of a ring that are not committed (R216). -/
def State.ringEvents (s : State) (n : Nat) : List Nat :=
  (s.staging.filter (fun r => r.ring == n)).flatMap (·.events) ++ (s.unbuilt.filter (fun r => r.ring == n)).flatMap (·.events)

/-- A counted event that produces no record, on a port counter (R216). -/
def State.countPort (s : State) (m : Move) (f : Fld) (p : Nat) (n : Nat := 1) : State :=
  s.count m f p n (s.portEvents p) false

/-- The record that was to carry event `u` will not be written: its counts wait for the records of the port that were formed
before the event instead (R216). -/
def State.rewait (s : State) (u : Nat) (before : List Nat) : State :=
  State.settle { s with gated := s.gated.map (fun g =>
    if g.waits.contains u then { g with waits := g.waits.filter (· != u) ++ before, own := false } else g) }

/-- Events whose records a reset discards before they are written: their own counts never move (R210, R216); counts that only
waited for them go on. -/
def State.forget (s : State) (us : List Nat) : State :=
  { s with gated := s.gated.filter (fun g => !(g.own && g.waits.any us.contains)) }

/-! ### Staging (R200, R201, R230) -/

/-- Records of the part kept for EVENT, CAPTURE and ALMANAC records (R201). -/
def Rec.ofEventPart (r : Rec) : Bool := r.type == .event || r.type == .capture || r.type == .almanac

/-- BREACH and GAP records hold places outside staging (R235). -/
def Rec.ofPlace (r : Rec) : Bool := r.type == .breach || r.type == .gap

/-- Bytes of record staging apart from descriptors, and its event part (R26, R201). -/
def stagingRecords : Nat := (4 * 1024 * 1024 - 256 * 1024) / 64
def eventRecords : Nat := 256 * 1024 / 64

/-- A confirmed record in ring staging (R218): no provisional record, which staging does not hold (R101, R103), and no BREACH
or GAP record that waits in its place (R235). -/
def Rec.inStaging (r : Rec) : Bool := !r.prov && !(r.ofPlace && r.slot.isNone)

/-- Free records in the general part, and in the event part. -/
def State.stagingFree (s : State) : Nat :=
  stagingRecords - (s.staging.filter (fun r => !r.ofEventPart && r.inStaging)).length
def State.eventFree (s : State) : Nat := eventRecords - (s.staging.filter (·.ofEventPart)).length

/-- Follow the staging-low restriction: below 512 KiB free it begins, at 1 MiB it ends (R230). -/
def State.noteStaging (s : State) : State :=
  let f := s.stagingFree
  if f < 8192 then { s with stagingLow := true }
  else if 16384 ≤ f then { s with stagingLow := false } else s

/-- Put a record into staging. -/
def State.stage (s : State) (r : Rec) : State := State.noteStaging { s with staging := s.staging ++ [r] }

/-- Roles (R240), and the pair states that decide what a member does (R241, R242, R246). -/
def State.isShadow (s : State) : Bool := s.rd Reg.HG_CFG_ROLE == 2
def State.isPrimary (s : State) : Bool := s.rd Reg.HG_CFG_ROLE == 1
/-- The shadow of an engaged pair, the primary of one. -/
def State.engagedShadow (s : State) : Bool := s.isShadow && s.hinge.state == .engaged
def State.engagedPrimary (s : State) : Bool := s.isPrimary && s.hinge.state == .engaged
/-- The primary while ENGAGING or ENGAGED: what it decides is sent to the shadow (R242, R246). -/
def State.mirrors (s : State) : Bool :=
  s.isPrimary && (s.hinge.state == .engaged || s.hinge.state == .engaging)

/-- A member in one of the states that a pair shares. -/
def PairState.paired (x : PairState) : Bool := x == .engaging || x == .engaged || x == .degraded

/-- A shadow beside a primary: until a takeover it confirms nothing of its own and sends nothing (R245, R262). -/
def State.shadowing (s : State) : Bool := s.isShadow && s.hinge.state.paired

/-- The last decision block that covers what a port has confirmed so far; 0 when none does (R243, R246). -/
def State.coveredTo (s : State) (p : Nat) : Nat :=
  if s.mirrors then (s.port p).blockNo + ((s.port p).block.length + 15) / 16 else 0


/-- Decision blocks describe receive and transmit records of a port (R243, R246). -/
def Rec.described (r : Rec) : Bool := !r.ofEventPart && !r.ofPlace

/-- The record mark of a record that the primary has built (R242). -/
def State.sendMark (s : State) (r : Rec) : State :=
  if s.mirrors then s.emit (.hinge (.mark r.ring r.body.count r.type r.uid)) else s

/-- A record waits for the shadow's acknowledgement of its mark, or of a decision block that describes it (R246). -/
def State.waitsAck (s : State) (r : Rec) : Bool := r.marked || decide ((s.port r.port).blockAck < r.blocks)

/-- The primary stops waiting for acknowledgements (R247). -/
def State.freeHeld (s : State) : State :=
  { s with staging := s.staging.map (fun r => { r with marked := false, blocks := 0 }),
           unbuilt := s.unbuilt.map (fun r => { r with blocks := 0 }) }

/-- Form a record with a fresh event of its own: the event's number and the state; its latency runs from `since`, the present
edge when none is given (R197). While the primary mirrors, the record is an open item until it is acknowledged, and its mark
goes to the shadow (R242, R246). -/
def State.form (s : State) (r : Rec) (since : Option Nat := none) : Nat × State :=
  let u := s.nextUid
  let r := { r with uid := u, events := r.events ++ [u], order := s.nextOrder, since := since.getD s.now, marked := s.mirrors,
                    blocks := if r.described then s.coveredTo r.port else 0 }
  (u, (State.stage { s with nextUid := u + 1, nextOrder := s.nextOrder + 1 } r).sendMark r)

/-- `n` counts in an RG_CFG_IRQ of 2: ERR, LATE, BREACH, GAP or RETRACT (R204). -/
def Rec.flagged (r : Rec) : Bool :=
  r.err || r.late || r.breach || r.type == .breach || r.type == .gap || r.type == .pentimento

/-- A record is an event of its ring's source under RG_CFG_IRQ (R204). -/
def State.ringCounts (s : State) (r : Rec) : Bool :=
  let irq := s.rd Reg.RG_CFG_IRQ r.ring
  irq == 1 || (irq == 2 && r.flagged)

/-- A record that becomes eligible while the device may not write raises its ring's source now, and counts no event when it is
issued (R206). -/
def State.raiseMute (s : State) (r : Rec) : State :=
  if s.sleeping && !r.counted && s.ringCounts r then
    let s : State := { s with staging := s.staging.map (fun x => if x.uid = r.uid then { x with counted := true } else x) }
    s.srcEvent (r.ring + 1) s.stamp (some r.uid)
  else s

/-- Form a BREACH or GAP record, which is eligible at once (R196, R206). -/
def State.formPlace (s : State) (r : Rec) : Nat × State :=
  let (u, s) := s.form { r with eligible := true, eligAt := s.now }
  (u, s.raiseMute { r with uid := u })

/-- Records leave staging: what waited for them moves. -/
def State.unstage (s : State) (p : Rec → Bool) : State :=
  (State.noteStaging { s with staging := s.staging.filter (fun r => !p r) }).settle

/-- Staging admits a record now: it has room, and while it is low only records of LOSSLESS rings are built (R200, R230). -/
def State.admits (s : State) (r : Rec) : Bool :=
  decide (0 < s.stagingFree) && (!s.stagingLow || s.rd Reg.RG_CFG_CLASS r.ring == 0)

/-- Form a transmit record of a port (R200): it waits for room in staging, behind those of its port that wait already; in a
shadow it waits for the primary's (R245). -/
def State.formTx (s : State) (r : Rec) : Nat × State :=
  if s.admits r && !s.shadowing && !s.unbuilt.any (fun x => x.port == r.port) then s.form r else
  let u := s.nextUid
  (u, { s with nextUid := u + 1, nextOrder := s.nextOrder + 1,
               unbuilt := s.unbuilt ++ [{ r with uid := u, events := r.events ++ [u], order := s.nextOrder, since := s.now,
                                                 blocks := s.coveredTo r.port }] })

/-- A transmit record that has waited goes into staging (R200, R246). -/
def State.buildTx (s : State) (r : Rec) : State :=
  let r := { r with marked := s.mirrors }
  (State.stage { s with unbuilt := s.unbuilt.filter (fun x => x.uid != r.uid) } r).sendMark r

/-! ### Rings of a port (R192) -/

/-- Ring of partner k of a port (PT_PTRING). -/
def State.partnerRing (s : State) (p k : Nat) : Nat := (s.rd Reg.PT_PTRING p) / 256 ^ k % 256

/-- Partner k is enabled: its address entry, or the catch-all for partner 3 (R151, R192). -/
def State.partnerOn (s : State) (p k : Nat) : Bool :=
  s.rd (Reg.PT_PTADDR_EN.at k) p == 1 || (k == 3 && s.on Reg.PT_PTCFG_CATCH p)

/-- The distinct rings of a port's port-level records: RING0 and those of its enabled partners. -/
def State.portRings (s : State) (p : Nat) : List Nat :=
  (s.partnerRing p 0 :: ([0, 1, 2, 3].filter (s.partnerOn p)).map (s.partnerRing p)).eraseDups

/-- The partner a port-level record in ring n refers to: partner 0 in RING0, else the lowest enabled one (R192). -/
def State.ringPartner (s : State) (p n : Nat) : Nat :=
  if s.partnerRing p 0 = n then 0
  else ([1, 2, 3].find? (fun k => s.partnerOn p k && s.partnerRing p k == n)).getD 0

/-- The completion ring of a port's transmit records: RG_PAIR of its submission ring. -/
def State.txRing (s : State) (p : Nat) : Nat := s.rd Reg.RG_PAIR (s.rd Reg.PT_TXCFG_RING p)

/-- Next sequence number of a stream (R113). -/
def Port.seq (x : Port) (k : Nat) : Word :=
  match k with | 0 => x.seq0 | 1 => x.seq1 | 2 => x.seq2 | _ => x.seq3

/-- A stream's sequence number set. -/
def Port.withSeq (x : Port) (k : Nat) (v : Word) : Port :=
  match k with
  | 0 => { x with seq0 := v } | 1 => { x with seq1 := v } | 2 => { x with seq2 := v } | _ => { x with seq3 := v }

/-! ### Open items and the horizon point -/

/-- The earliest stamp of a list. -/
def earliest (l : List Stamp) : Option Stamp :=
  match l with | [] => none | a :: t => some (t.foldl sMin a)

/-- The stamp that what a shadow has undecided holds open (R193, R245). -/
def Own.stamp : Own → Stamp
  | .entry e => e.stamps.headD 0
  | .chr c _ _ _ => c.stamp
  | .win w => w.base
  | .ended _ base _ _ => base
  | .profile _ _ t => t

/-- The receive-side open items of a port (R193), in a shadow what it has not decided among them. -/
def State.rxItem (s : State) (p : Nat) (x : Port) : List Stamp :=
  let pin := s.pin (rxPin p)
  let fresh := pin.recorder.drop (pin.recorder.length - pin.fresh)
  (match x.rxNow with
   | .track => (x.trk.cur.map (·.stamp)).toList ++ (x.breaking.map (·.2)).toList
   | .acq | .reacq =>
     match x.acq with
     | some a =>
       a.starts ++ (pin.recorder.filter (fun e => decide (a.began ≤ e.edge))).map (·.s1)
     | none => []
   | _ => []) ++
  (if x.rx = .held ∨ x.replay then (fresh.head?.map (·.s1)).toList else []) ++
  (x.entries.filter (fun e => !e.built)).map (·.base) ++ x.own.map Own.stamp

/-- An EVENT record stored after a loss whose GAP record still waits for its place: the record waits behind it (R236). -/
def State.eventGapWaits (s : State) (r : Rec) : Bool :=
  s.gapWaits.any (fun w => w.cause == 2 && w.ring == r.ring && decide (w.order ≤ r.order))

/-- The open items of a ring: the stamp held, and the port of the item if it is a port's (R138, R161, R193, R200, R236, R246,
R372). -/
def State.openItems (s : State) (n : Nat) : List (Stamp × Option Nat) :=
  s.ports.flatMap (fun (p, x) =>
    (if (s.portRings p).contains n then (s.rxItem p x).map (fun t => (t, some p)) else []) ++
    (match x.sending with
     | some { job := .desc _, first := some t, .. } => if s.txRing p = n then [(t, some p)] else []
     | some { job := .reply r, .. } => if s.partnerRing p r.partner = n then [(r.matched.stamp, some p)] else []
     | _ => []) ++
    ((x.waiting.filter (fun r => s.partnerRing p r.partner == n)).map (fun r => (r.matched.stamp, some p)))) ++
  ((s.staging.filter (fun r => r.ring == n && s.waitsAck r)).map (fun r => (r.base, some r.port))) ++
  ((s.unbuilt.filter (fun r => r.ring == n)).map (fun r => (r.base, some r.port))) ++
  ((s.staging.filter (fun r => r.ring == n && r.type == .event && s.eventGapWaits r)).map (fun r => (r.base, none))) ++
  (if s.on Reg.LM_UPCFG_EN && s.rd Reg.LM_UPCFG_RING == n then
     s.segments.map (fun g => (g.trig.stamp, none)) ++
     s.mons.flatMap (fun (_, m) => (m.trig.map (fun t => (t.stamp, none))).toList)
   else []) ++
  (if s.on Reg.AL_CFG_EN && s.rd Reg.AL_CFG_RING == n then
     (s.almanac.queue.filter (fun e => e.built.isNone)).map (fun e => (e.stamp, none)) else [])

/-- The open item that sets O(N): the earliest, the first listed at a tie. -/
def State.earliestItem (s : State) (n : Nat) : Option (Stamp × Option Nat) :=
  match s.openItems n with
  | [] => none
  | a :: t => some (t.foldl (fun b x => if sLt x.1 b.1 then x else b) a)

/-- HP(N) of a ring at the present edge; it never moves backward (R194). After a takeover C counts less the pair offset (R258). -/
def State.hp (s : State) (n : Nat) : Stamp :=
  let h := s.stamp - ticks (s.rd Reg.RG_HZ n * 1024) - 1
  let m := match s.earliestItem n with
    | some (t, _) => sMin h (t - 1)
    | none => h
  match (s.ring n).hp with
  | some old => sMax old m
  | none => m

/-- Keep the horizon point reached. -/
def State.noteHp (s : State) (n : Nat) : State := s.modRing n (fun r => { r with hp := some (s.hp n) })

/-! ### GAP records -/

/-- Body of a GAP record (R190). -/
def gapBody (l : Loss) (cause : Nat) (isOpen : Bool) : List Byte :=
  leBytes 4 l.chars ++ leBytes 4 l.others ++ leBytes 8 l.first.toNat ++ leBytes 8 l.last.toNat ++
    [BitVec.ofNat 8 cause, if isOpen then 1#8 else 0#8]

/-- What a GAP record says of an interval: one that continued and closes with no further loss has no first and last lost
entry, and its FIRST and LAST are free values (R190, R234, log entry 3). -/
def State.gapLoss (s : State) (l : Loss) : Loss × State :=
  if l.chars + l.others = 0 then
    let (a, s) := s.takeFree
    let (b, s) := s.takeFree
    ({ l with first := a, last := b }, s)
  else (l, s)

/-- Form a GAP record: base stamp HP(N), eligible at once (R196); PT_RXLOST, RG_GAPLOST and RG_STAT_GAP move when it is
committed (R234). -/
def State.formGap (s : State) (w : GapWait) : State :=
  let s := s.noteHp w.ring
  let (loss, s) := s.gapLoss w.loss
  let (u, s) := s.formPlace
    { uid := 0, ring := w.ring, type := .gap, port := w.port, partner := w.partner, seq := w.loss.seq,
      base := s.hp w.ring, body := .raw (gapBody loss w.cause w.isOpen) }
  let s := if w.cause = 1 then s.count .sat Reg.PT_RXLOST w.port w.loss.counted [u] else s
  (s.count .sat Reg.RG_GAPLOST w.ring (w.loss.chars + w.loss.others) [u]).count .set Reg.RG_STAT_GAP w.ring 1 [u]

/-- The GAP place of a ring is taken by a GAP record not yet written (R235, R236). -/
def State.gapPlaceTaken (s : State) (n : Nat) : Bool :=
  s.staging.any (fun r => r.ring == n && r.type == .gap && r.slot.isNone)

/-- A GAP record due: formed when the place of its ring is free, else it waits (R236). -/
def State.dueGap (s : State) (w : GapWait) : State :=
  if s.gapPlaceTaken w.ring || s.gapWaits.any (fun x => x.ring == w.ring) then { s with gapWaits := s.gapWaits ++ [w] }
  else s.formGap w

/-- Close the loss interval of a stream when its next entry is stored, which is confirmed as number `order` (R234). -/
def State.closeLoss (s : State) (p k order : Nat) : State :=
  match (s.port p).losses.find? (fun x => x.1 == k) with
  | none => s
  | some (_, l) =>
    (s.modPort p (fun x => { x with losses := Sparse.drop x.losses k })).dueGap
      { ring := s.partnerRing p k, port := p, partner := k, loss := l, isOpen := false, cause := 1, order := order }

/-- A loss of one entry: opens the interval, adds to it, or is the first of an interval that continues (R234). -/
def Loss.add (l : Option Loss) (chars others counted : Nat) (stamp : Stamp) (seq : Word) (now : Nat) : Loss :=
  match l with
  | none => ⟨chars, others, counted, stamp, stamp, seq, now⟩
  | some l =>
    { l with chars := l.chars + chars, others := l.others + others, counted := l.counted + counted,
             first := if l.chars + l.others = 0 then stamp else l.first, last := stamp }

/-- A lost entry of a port's stream (R149, R234). -/
def State.loseEntry (s : State) (p k : Nat) (isChar counts : Bool) (stamp : Stamp) (seq : Word) : State :=
  s.modPort p (fun x =>
    let old := (x.losses.find? (fun y => y.1 == k)).map (·.2)
    { x with losses :=
        Sparse.insert (Sparse.drop x.losses k) k (Loss.add old isChar.toNat (!isChar).toNat counts.toNat stamp seq s.now) })

end Sys2Proof.Machine
end

