-- ==== Sys2Proof/Machine/Flags.lean ====
section
/-!
DEFINITION. Status codes of the chain (R318), the roles and conditions other chapters ask for, and EVENT records (R188,
R271).
-/
namespace Sys2Proof.Machine

/-- Status codes (R318). -/
abbrev Code := BitVec 4
def Code.ok : Code := 0x0
def Code.noreg : Code := 0x1
def Code.value : Code := 0x2
def Code.state : Code := 0x3
def Code.ro : Code := 0x4
def Code.crc : Code := 0x5
def Code.notready : Code := 0x6
def Code.range : Code := 0x7
def Code.mirror : Code := 0x8
def Code.position : Code := 0x9

/-- Check results: the first code that is not OK. -/
def Code.andThen (a b : Code) : Code := if a = Code.ok then b else a

/-- OK when the condition holds, else the code. -/
def Code.unless (ok : Bool) (c : Code) : Code := if ok then Code.ok else c

/-- The device may issue memory requests (R206); a RELEASED member stops them (R257), and a shadow that follows a primary
issues none (R248; for ENGAGING and DEGRADED DEDUCED, log entry 35). -/
def State.mayRequest (s : State) : Bool :=
  !s.link.d3hot && s.link.bme && s.link.up && s.power.host != .dark && s.running && s.hinge.state != .released &&
  !s.shadowing

/-- Leave ASPM L1: a request is pending (R205). The exit takes no time here (DESIGN CHOICE, log entry 22). -/
def State.leaveL1 (s : State) : State :=
  if s.link.pm = .l1 ∧ !s.link.d3hot then
    ({ s with link := { s.link with pm := .l0, idleFrom := s.now }, power := { s.power with host := .run } } : State).emit .linkL0
  else s

/-- A request is pending at this edge: the link leaves L1, and the idle time of R205 starts again. -/
def State.request (s : State) : State :=
  let s := s.leaveL1
  { s with link := { s.link with idleFrom := s.now } }

/-- Read requests for `n` bytes of transmit data: each at most Max Read Request Size, none across a 4 KiB boundary (R208). -/
def State.readPieces : Nat → BitVec 64 → Nat → State → State
  | 0, _, _, s => s
  | fuel + 1, a, n, s =>
    if n = 0 then s else
    let k := min n (min (max 1 s.link.mrrs) (4096 - a.toNat % 4096))
    State.readPieces fuel (a + BitVec.ofNat 64 k) (n - k) (s.emit (.readReq a k))

/-- The data of a descriptor have been read (R205, R208). -/
def State.dataRead (s : State) (a : BitVec 64) (n : Nat) : State := State.readPieces n a n s.request

/-- MSI-X Enable is 1 and Function Mask is 0. -/
def Link.msix (l : Link) : Bool := l.msixEn && !l.funcMask

/-- The number that the next EVENT record of a ring will carry (R182, R190): those issued and those in staging before it. -/
def State.nextEventSeq (s : State) (n : Nat) : Word :=
  (s.ring n).nEvent +
    BitVec.ofNat 32 (s.staging.filter (fun r => r.ring == n && r.type == .event && r.slot.isNone)).length

/-- EVENT record of a device event (R188, R192, R201): written when RG_EVRING_EN is 1; lost, and added to the event ring's
loss interval, when the event part of staging is full. Its SEQ it takes when it is issued (R182). -/
def State.eventRecord (s : State) (n : Nat) (detail : Nat) (port : Option Nat) : State :=
  if !s.on Reg.RG_EVRING_EN then s else
  let r := s.rd Reg.RG_EVRING_RING
  if s.eventFree = 0 then
    s.modRing r (fun x => { x with loss := some (Loss.add x.loss 0 1 1 s.stamp (s.nextEventSeq r) s.now) })
  else
    let s := match (s.ring r).loss with
      | none => s
      | some l => (s.modRing r (fun x => { x with loss := none })).dueGap
          { ring := r, port := 0, partner := 3, loss := l, isOpen := false, cause := 2, order := s.nextOrder }
    (s.form
      { uid := 0, ring := r, type := .event, port := port.getD 0, partner := 3, base := s.stamp,
        body := .raw (leBytes 2 n ++ [if port.isSome then 1#8 else 0#8, 0#8] ++ leBytes 4 detail) }).2

end Sys2Proof.Machine
end

