-- ==== Sys2Proof/Machine/Carillon.lean ====
section
/-!
DEFINITION. Carillon (09_carillon.md): sources, coalescing, software pending, targets, claims, message decisions, the checks
of its registers, and the commands that are its own events. A source is named by the value of CA_SRCSEL that names it.
-/
namespace Sys2Proof.Machine

/-! ### Sources -/

/-- A private source: 512 to 543, the bank in bits [15:12] (R269). -/
def srcPrivate (n : Nat) : Bool := decide (512 ≤ n % 4096 ∧ n % 4096 ≤ 543)

/-- A station source (R268). -/
def srcStation (n : Nat) : Bool := decide (1024 ≤ n ∧ n ≤ 2047)

/-- CA_SRCSEL names an implemented source (R269). -/
def srcValid (n : Nat) : Bool :=
  decide ((1 ≤ n ∧ n ≤ 283) ∨ (1024 ≤ n ∧ n ≤ 2047)) || (srcPrivate n && decide (n < 65536))

/-- Every implemented source, in the order of its CA_SRCSEL value. -/
def allSources : List Nat :=
  (List.range 283).map (· + 1) ++ (List.range 32).map (· + 512) ++ (List.range 1024).map (· + 1024) ++
  ((List.range 15).flatMap (fun t => (List.range 32).map (fun i => (t + 1) * 4096 + 512 + i)))

/-- The level sources among the device events (R270). -/
def srcLevelKind (n : Nat) : Bool :=
  n == 259 || decide (260 ≤ n ∧ n ≤ 265) || decide (269 ≤ n ∧ n ≤ 271) || n == 280

/-- CA_SCFG_SENSE as it reads: fixed for every source but a station's (R272). -/
def State.sense (s : State) (n : Nat) : Nat :=
  if srcStation n then s.rd Reg.CA_SCFG_SENSE n else if srcLevelKind n then 0 else 1

/-- The target of a source: its bank for a private one (R268). -/
def State.srcTarget (s : State) (n : Nat) : Nat := if srcPrivate n then n / 4096 else s.rd Reg.CA_SCFG_TGT n

/-- A software set (R275): accepted whether or not the source is enabled. -/
def State.softSet (s : State) (n : Nat) : State :=
  s.modSrc n (fun x =>
    match x.state with
    | .idle | .hold => { x with state := .pend, mark := true, stamp := s.stamp }
    | .pend | .active => { x with mark := true })

/-- A level input pends an IDLE source while it is asserted, and an unmarked PEND source falls back to IDLE when it is not
(R277). -/
def State.refreshLevel (s : State) (n : Nat) : State :=
  if s.sense n != 0 then s else
  let x := s.src n
  if s.srcOn n && x.input && x.state == .idle then s.setSrc n { x with state := .pend, stamp := x.inputStamp }
  else if !x.input && x.state == .pend && !x.mark then s.setSrc n { x with state := .idle }
  else s

/-- The input of a level source takes a value at a stamp. -/
def State.srcLevel (s : State) (n : Nat) (b : Bool) (stamp : Stamp) : State :=
  let x := s.src n
  if x.input == b then s
  else (s.setSrc n { x with input := b, inputStamp := if b then stamp else x.inputStamp }).refreshLevel n

/-- Raise an event device source with its EVENT record (R270, R271). -/
def State.raiseEvent (s : State) (n detail : Nat) (port : Option Nat := none) : State :=
  (s.eventRecord n detail port).srcEvent n s.stamp

/-- Assert or release a level device source; each assertion forms an EVENT record (R271). -/
def State.raiseLevel (s : State) (n : Nat) (b : Bool) (detail : Nat) : State :=
  if (s.src n).input == b then s
  else (if b then s.eventRecord n detail none else s).srcLevel n b s.stamp

/-- EN written 0: HELD, timer, mark and pending state clear; ACTIVE stays (R276, R277). -/
def State.srcDisable (s : State) (n : Nat) : State :=
  s.modSrc n (fun x =>
    { x with held := 0, timer := none, mark := false, cut := false, recs := [],
             state := if x.state = .active then .active else .idle })

/-- CLRPEND of a source that is not ACTIVE (R275); a level input still asserted pends it again (R277; DEDUCED, log
entry 11). -/
def State.srcClear (s : State) (n : Nat) : State :=
  (s.modSrc n (fun x =>
    { x with held := 0, timer := none, mark := false, cut := false, recs := [], state := .idle })).refreshLevel n

/-- A sleep condition begins (R286): every enabled source in HOLD becomes PEND with CUT. -/
def State.cutCoalescing (s : State) : State :=
  (s.srcs.map (·.1)).foldl (fun s n =>
    let x := s.src n
    if x.state == .hold && s.srcOn n then s.setSrc n { x with state := .pend, cut := true, stamp := s.stamp } else s) s

/-! ### Targets -/

/-- Running priority of a target: that of the top of its stack (R278). -/
def Tgt.running (t : Tgt) : Nat := (t.stack.getLast?.map (·.prio)).getD 0

/-- The records a ring source of a pin-type target reports are committed (R282). -/
def State.recordsCommitted (s : State) (x : Src) : Bool :=
  x.recs.all (fun u => !s.staging.any (fun r => r.uid == u))

/-- Source n is deliverable to its target (R278, R282, R290). -/
def State.deliverable (s : State) (n : Nat) : Bool :=
  let x := s.src n
  let t := s.srcTarget n
  let p := s.rd Reg.CA_SCFG_PRIO n
  s.srcOn n && x.state == .pend && decide ((s.tgt t).running < p) && decide (s.rd Reg.CA_TCFG_THRESH t < p) &&
  !s.on Reg.CA_TCFG_MASK t && decide ((s.tgt t).stack.length < 8) &&
  (s.on Reg.CA_TCFG_KIND t || s.recordsCommitted x) &&
  (!s.engagedShadow || decide (275 ≤ n ∧ n ≤ 279))

/-- `a` wins over `b`: higher priority, earlier pending stamp, lower number (R278). -/
def State.beats (s : State) (a b : Nat) : Bool :=
  let pa := s.rd Reg.CA_SCFG_PRIO a
  let pb := s.rd Reg.CA_SCFG_PRIO b
  if pa ≠ pb then decide (pb < pa)
  else if (s.src a).stamp ≠ (s.src b).stamp then sLt (s.src a).stamp (s.src b).stamp
  else decide (a % 4096 < b % 4096)

/-- The winner of a target among its deliverable sources (R278). -/
def State.winner (s : State) (t : Nat) : Option Nat :=
  ((s.srcs.map (·.1)).filter (fun n => s.srcTarget n == t && s.deliverable n)).foldl
    (fun b n => match b with
      | none => some n
      | some m => if s.beats n m then some n else some m) none

/-- Move a source to ACTIVE and push it onto its target's stack (R277, R278). -/
def State.activate (s : State) (t n : Nat) (slot : Option Nat) : State :=
  let s := s.modTgt t (fun x => { x with stack := x.stack ++ [⟨n, s.rd Reg.CA_SCFG_PRIO n, slot⟩], last := n % 4096 })
  let s := s.modSrc n (fun x =>
    { x with state := .active, held := 0, timer := none, mark := false, cut := false, recs := [] })
  (s.incWrap Reg.CA_SCNT n).incWrap Reg.CA_TCNT t

/-- A read of CA_CLAIM: the winner of a pin-type target, now ACTIVE; 0 when there is none or the target is message-type
(R281). -/
def State.claim (s : State) (t : Nat) : Nat × State :=
  if s.on Reg.CA_TCFG_KIND t then (0, s) else
  match s.winner t with
  | none => (0, s)
  | some n => (n % 4096, s.activate t n none)

/-- End-of-interrupt naming a source at a target (R277, R279). -/
def State.endOfInterrupt (s : State) (t n : Nat) : State :=
  match (s.tgt t).stack.find? (fun e => e.source % 4096 == n) with
  | none => s.incSat Reg.CA_TSTAT_BADW t
  | some e =>
    let s := s.modTgt t (fun x => { x with stack := x.stack.filter (fun y => y.source != e.source) })
    let k := e.source
    s.modSrc k (fun x =>
      let lvl := s.sense k == 0 && x.input && s.srcOn k
      if s.ripe k x || lvl || x.mark then { x with state := .pend, stamp := if lvl then x.inputStamp else s.stamp }
      else if 0 < x.held then { x with state := .hold }
      else { x with state := .idle })

/-- The lowest mailbox slot that no entry of the stack holds (R283). -/
def Tgt.freeSlot (t : Tgt) : Nat :=
  ((List.range 8).find? (fun k => !t.stack.any (fun e => e.slot == some k))).getD 7

/-- Bytes of a mailbox slot (R284). -/
def mailboxBytes (n prio : Nat) (x : Src) (slot : Nat) (level : Bool) : List Byte :=
  leBytes 2 (n % 4096) ++ [BitVec.ofNat 8 prio,
    BitVec.ofNat 8 (1 + (if x.mark then 2 else 0) + (if x.cut then 4 else 0))] ++
  leBytes 2 (if level then 0 else x.held) ++ [BitVec.ofNat 8 slot, 0#8] ++ leBytes 8 x.stamp.toNat

/-- A mask accepted at this edge: messages decided and not yet queued carry WINDOW (R285). -/
def State.markWindow (s : State) (p : Msg → Bool) : State :=
  { s with msgs := s.msgs.map (fun m =>
      if p m then { m with bytes := m.bytes.mapIdx (fun i b => if i = 3 then b ||| 8#8 else b) } else m) }

/-- CH_ATTN is pulled low (R280). -/
def State.targetAttn (s : State) (t : Nat) : Bool := !s.on Reg.CA_TCFG_KIND t && (s.winner t).isSome
def State.attn (s : State) : Bool :=
  (List.range 16).any s.targetAttn || s.on Reg.GL_CLKSTAT_LOCK_LOST || s.hinge.attnTk

/-- The input of a station source after debounce and INV (R291). -/
def State.stationLevel (s : State) (st : Nat) : Bool :=
  (s.pin (4 * st + 3)).srcIn != s.on Reg.CA_SCFG_INV (1024 + st)

/-! ### Register checks and effects -/

/-- Values the Carillon registers accept (R269, R272, R291, R294). -/
def caValue (s : State) (all : Bool) (i w : Nat) (d : Word) : Bool :=
  match w with
  | 0x200 => d.toNat == 0xFFFF || srcValid d.toNat
  | 0x201 => all || srcStation i ||
      (Reg.CA_SCFG_SENSE.get d == s.sense i && Reg.CA_SCFG_INV.get d == 0 &&
       (!srcPrivate i || Reg.CA_SCFG_TGT.get d == i / 4096))
  | 0x202 => Reg.CA_SCOAL_COUNT.get d != 0
  | 0x203 => all || srcStation i || Reg.CA_SDEB.get d == 0
  | 0x220 => d.toNat < 16 || d.toNat == 0xFFFF
  | 0x229 => !all
  | _ => true

/-- Relations between words of one target (R294). -/
def caCross (s : State) (i w : Nat) : Bool :=
  if w = 0x221 ∨ w = 0x222 ∨ w = 0x223 then
    !s.on Reg.CA_TCFG_KIND i || s.rd Reg.CA_TMBOX_LO i != 0 || s.rd Reg.CA_TMBOX_HI i != 0
  else true

/-- Writes the state refuses (R275, R294). -/
def caState (s : State) (i w : Nat) (d : Word) : Bool :=
  match w with
  | 0x201 => srcPrivate i || (s.src i).state != .active || Reg.CA_SCFG_TGT.get d == s.rd Reg.CA_SCFG_TGT i
  | 0x204 => Reg.CA_SCTL_CLRPEND.get d == 0 || (s.src i).state != .active
  | 0x221 => (s.tgt i).stack.isEmpty || Reg.CA_TCFG_KIND.get d == s.rd Reg.CA_TCFG_KIND i
  | _ => true

/-- The word stored for an instance: fields fixed for it keep their values (R294). -/
def caData (s : State) (i w : Nat) (d : Word) : Word :=
  match w with
  | 0x201 =>
    let d := if srcStation i then d else Reg.CA_SCFG_INV.set (Reg.CA_SCFG_SENSE.set d 0) 0
    if srcPrivate i then Reg.CA_SCFG_TGT.set d (s.rd Reg.CA_SCFG_TGT i) else d
  | 0x203 => if srcStation i then d else 0
  | _ => d

/-- What follows a stored word (R276, R277, R285). -/
def caApply (s : State) (i w : Nat) (old : Word) : State :=
  match w with
  | 0x201 =>
    let masked := s.rd Reg.CA_SCFG_PRIO i == 0 || !s.on Reg.CA_SCFG_EN i ||
      s.srcTarget i != (if srcPrivate i then i / 4096 else Reg.CA_SCFG_TGT.get old)
    let s := if masked then s.markWindow (fun m => m.source == i) else s
    let s := if s.on Reg.CA_SCFG_EN i then s else s.srcDisable i
    let s := if srcStation i then
        let lv := s.stationLevel (i - 1024)
        s.modSrc i (fun x => { x with input := lv, inputStamp := if lv && !x.input then s.stamp else x.inputStamp })
      else s
    s.refreshLevel i
  | 0x202 => s.modSrc i (fun x => if x.state == .hold && s.ripe i x then { x with state := .pend, stamp := s.stamp } else x)
  | 0x221 =>
    s.markWindow (fun m => m.target == i &&
      (s.on Reg.CA_TCFG_MASK i || decide (s.rd Reg.CA_SCFG_PRIO m.source ≤ s.rd Reg.CA_TCFG_THRESH i)))
  | 0x227 => if s.on Reg.CA_MSIX_CTL_VMASK i then s.markWindow (fun m => m.target == i) else s
  | _ => s

/-- Actions of the WO and W1S fields (R275, R279). CLRPEND acts before SETPEND of the same write (DESIGN CHOICE, log
entry 12). -/
def caAct (s : State) (i w : Nat) (d : Word) : State :=
  match w with
  | 0x204 =>
    let s := if Reg.CA_SCTL_CLRPEND.get d == 1 then s.srcClear i else s
    if Reg.CA_SCTL_SETPEND.get d == 1 then s.softSet i else s
  | 0x229 => s.endOfInterrupt i (Reg.CA_EOI.get d)
  | 0x22C => (List.range 32).foldl (fun s b => if d.getLsbD b then s.softSet (i * 4096 + 512 + b) else s) s
  | _ => s

/-- CA_PRIV as it reads: pending state of the bank (R292). -/
def State.privWord (s : State) (t : Nat) : Word :=
  (List.range 32).foldl (fun a b => if (s.src (t * 4096 + 512 + b)).state = .pend then a ||| (1#32 <<< b) else a) 0

/-- A message-type target has a deliverable source and may take no message decision: the PBA bit of its vector (R283). -/
def State.messageWaits (s : State) (t : Nat) : Bool :=
  s.on Reg.CA_TCFG_KIND t && (s.winner t).isSome && !(s.mayRequest && s.link.msix && !s.on Reg.CA_MSIX_CTL_VMASK t)

/-- CA_TSTAT as it reads. -/
def State.tstatWord (s : State) (t : Nat) : Word :=
  let x := s.tgt t
  BitVec.ofNat 32 (x.running * 2 ^ 28 + x.stack.length * 2 ^ 24 + x.last * 2 ^ 12 + (if s.messageWaits t then 256 else 0) +
    s.rd Reg.CA_TSTAT_BADW t)

/-- The views of the CA_ block: state its registers only show. -/
def caView (s : State) (i w : Nat) (v : Word) : Word :=
  match w with
  | 0x201 => Reg.CA_SCFG_SRC.set (Reg.CA_SCFG_TGT.set (Reg.CA_SCFG_SENSE.set v (s.sense i)) (s.srcTarget i)) (i % 4096)
  | 0x205 =>
    let x := s.src i
    let st := match x.state with | .idle => 0 | .hold => 1 | .pend => 2 | .active => 3
    let noin := srcStation i && decide ((s.pin (4 * (i - 1024) + 3)).owner ≠ .gpioIn)
    BitVec.ofNat 32 (x.held * 2 ^ 16 + (if x.mark then 32 else 0) + (if noin then 16 else 0) +
      (if (if srcStation i then s.stationLevel (i - 1024) else x.input) then 8 else 0) + st)
  | 0x228 => 0
  | 0x22A => s.tstatWord i
  | 0x22B => BitVec.ofNat 32 (((s.tgt i).stack.mapIdx (fun k e => e.prio * 16 ^ k)).sum)
  | 0x22C => s.privWord i
  | 0x2F0 =>
    BitVec.ofNat 32 ((if s.hinge.attnTk then 2 ^ 17 else 0) + (if s.on Reg.GL_CLKSTAT_LOCK_LOST then 2 ^ 16 else 0) +
      ((List.range 16).map (fun t => if s.targetAttn t then 2 ^ t else 0)).sum)
  | _ => v

/-! ### The commands -/

/-- COALESCE_RIPE (R274): the timer of a held source reaches CA_SCOAL_TIME; time passes to that edge. -/
def execCoalesceRipe (n : SourceIx) (s : State) : Host.Outcome State Fault Refusal :=
  if !s.running then .next s else
  let x := s.src n.val
  match x.state, x.timer with
  | .hold, some t =>
    let s := s.advance (t + 160 * s.rd Reg.CA_SCOAL_TIME n.val)
    .next (s.setSrc n.val { x with state := .pend, stamp := s.stamp })
  | _, _ => .next s

/-- The debounced input of a station source takes a level (R272, R273), with the stamp of the pin's transition. INV acts on a
level, not on edges. -/
def State.stationInput (s : State) (st : Nat) (level : Bool) (stamp : Stamp) : State :=
  let n := 1024 + st
  let s := s.modPin (4 * st + 3) (fun x => { x with srcIn := level })
  if s.sense n = 0 then s.srcLevel n (s.stationLevel st) stamp
  else
    let s := s.modSrc n (fun x => { x with input := s.stationLevel st, inputStamp := stamp })
    if (level && s.sense n != 2) || (!level && s.sense n != 1) then s.srcEvent n stamp else s

/-- Edge from which the samples of a pin stand at a full level, "between" samples taken for the level before them (R273, R346;
log entry 108). -/
def Pin.standsFrom (x : Pin) (level : Bool) : Nat :=
  let tail := (x.history.reverse.takeWhile (fun h => h.2 != (if level then .low else .high))).reverse
  ((tail.find? (fun h => h.2 != .between)).map (·.1)).getD 0

/-- The transitions of a pin that a debounce filter has still to see after its octant's sleep: the last before the octant left
RUN at this edge, whose time ran on, and those since (R273). -/
def Pin.unfiltered (x : Pin) (left : Nat) : List PinEvent :=
  let l := x.recorder.filter (fun e => !e.glitch)
  (l.filter (fun e => decide (e.edge ≤ left))).getLast?.toList ++ l.filter (fun e => decide (left < e.edge))

/-- The filter of a station source processes what its pin has recorded while the octant slept, at the stamps recorded (R273):
each level that stood for CA_SDEB * 64 DCLK. -/
def State.replayInput (s : State) (st left : Nat) : State :=
  let l := (s.pin (4 * st + 3)).unfiltered left
  (l.zip ((l.drop 1).map (·.edge) ++ [s.now])).foldl (fun s (e, until_) =>
    if e.high != (s.pin (4 * st + 3)).srcIn && decide (e.edge + 64 * s.rd Reg.CA_SDEB (1024 + st) ≤ until_) then
      s.stationInput st e.high e.t
    else s) s

/-- STATION_INPUT_CHANGE (R273): the samples of P3 have shown a new full level for CA_SDEB * 64 DCLK while GPIO input holds
the pin and the octant is in RUN. -/
def execStationInputChange (st : Fin 1024) (level : Bool) (s : State) : Host.Outcome State Fault Refusal :=
  if !s.running then .next s else
  let q := 4 * st.val + 3
  let x := s.pin q
  let stamp := (if level then x.lastHigh else x.lastLow).getD s.stamp
  if x.owner = .gpioIn && s.pinRuns q && x.level == some level && x.srcIn != level then
    .next ((s.advance (x.standsFrom level + 64 * s.rd Reg.CA_SDEB (1024 + st.val))).stationInput st.val level stamp)
  else .next s

/-- MESSAGE_DECISION (R283, R284): a message-type target activates its winner and forms the mailbox write and the MSI-X
message. -/
def execMessageDecision (t : Fin 16) (s : State) : Host.Outcome State Fault Refusal :=
  if s.on Reg.CA_TCFG_KIND t.val && s.mayRequest && s.link.msix && !s.on Reg.CA_MSIX_CTL_VMASK t.val then
    match s.winner t.val with
    | none => .next s
    | some n =>
      let x := s.src n
      let slot := (s.tgt t.val).freeSlot
      let m : Msg := ⟨t.val, slot, n, mailboxBytes n (s.rd Reg.CA_SCFG_PRIO n) x slot (s.sense n == 0), x.recs, s.now⟩
      let s := s.activate t.val n (some slot)
      .next { s with msgs := s.msgs ++ [m] }
  else .next s

/-- A host write to SETPEND of a target page names a source of that target, or counts in BADW (R288, R289). -/
def State.hostSetpend (s : State) (t n : Nat) : State :=
  let k := if srcPrivate n then t * 4096 + n else n
  if srcValid k && s.srcTarget k == t then s.softSet k else s.incSat Reg.CA_TSTAT_BADW t

end Sys2Proof.Machine
end

