-- ==== Sys2Proof/Machine/Almanac.lean ====
section
/-!
DEFINITION. The Almanac (17_almanac.md): entries, the queue, session digests, checkpoints, pair entries and lapses, and the
commands that are its own events.
-/
namespace Sys2Proof.Machine

/-- Entries the queue holds at most (R451). -/
def alQueueSize : Nat := 16384

/-- The key material is absent (R455). -/
def State.noKey (s : State) : Bool := s.on Reg.AL_STAT_NOKEY

/-- The public key as 64 bytes, x then y (R455, R460). -/
def pubKeyBytes : List Byte := (List.range 16).flatMap (fun k => beBytes 4 (Config.pubKey k).toNat)

/-- KEYID: SHA-256 of the public key, 0 without key material (R448, R455). -/
def State.keyId (s : State) : List Byte := if s.noKey then List.replicate 32 0 else sha256 pubKeyBytes

/-- The device's own chain is suspended: it is an engaged shadow (R457). -/
def State.alSuspended (s : State) : Bool := s.almanac.saved.isSome

/-- The own chain of a member, as it is saved while suspended (R457). -/
def Almanac.save (a : Almanac) : SavedHead :=
  { index := a.index, hash := a.hash, cpcount := a.cpcount, cpFrom := a.cpFrom, cutAt := a.cutAt, cutAsked := a.cutAsked,
    queue := a.queue, halt := a.halt, haltFrom := a.haltFrom, haltTo := a.haltTo, haltCount := a.haltCount,
    lapseDue := a.lapseDue }

/-- The own chain again, from where it was saved (R458, R459). -/
def Almanac.restore (a : Almanac) : Almanac :=
  match a.saved with
  | some h =>
    { a with index := h.index, hash := h.hash, cpcount := h.cpcount, cpFrom := h.cpFrom, cutAt := h.cutAt, cutAsked := h.cutAsked,
             queue := h.queue, halt := h.halt, haltFrom := h.haltFrom, haltTo := h.haltTo, haltCount := h.haltCount,
             lapseDue := h.lapseDue, saved := none }
  | none => a

/-- The own chain is suspended, and the primary's head and queue are held in its place (R457). -/
def Almanac.suspend (a primary : Almanac) : Almanac :=
  { a with index := primary.index, hash := primary.hash, cpcount := primary.cpcount, cpFrom := primary.cpFrom, cutAsked := false,
           queue := primary.queue, halt := false, haltCount := 0, lapseDue := none, saved := some a.save }

/-- Bytes of an entry (R447). -/
def alBytes (index : Nat) (stamp : Stamp) (kind nrec efl : Nat) (prev body : List Byte) : List Byte :=
  leBytes 8 index ++ leBytes 8 stamp.toNat ++ [BitVec.ofNat 8 kind, BitVec.ofNat 8 nrec, BitVec.ofNat 8 efl] ++
    leBytes 5 0 ++ padTo 32 prev ++ padTo (40 * nrec - 56) body

/-- Replace bytes from an offset on. -/
def splice (l : List Byte) (a : Nat) (b : List Byte) : List Byte := l.take a ++ b ++ l.drop (a + b.length)

/-- Complete what can be completed: PREV in INDEX order up to the first unsigned CHECKPOINT (R456). -/
def alResolve : List Byte → List AlEntry → List Byte × List AlEntry
  | h, [] => (h, [])
  | h, e :: t =>
    if e.ready then
      let r := alResolve h t
      (r.1, e :: r.2)
    else
      let b := splice e.bytes 24 h
      if e.kind = 7 ∧ !e.signed then (h, { e with bytes := b } :: t)
      else
        let r := alResolve (sha256 b) t
        (r.1, { e with bytes := b, ready := true } :: r.2)

def Almanac.resolve (a : Almanac) : Almanac :=
  let r := alResolve a.hash a.queue
  { a with hash := r.1, queue := r.2 }

/-- An entry of the primary that a shadow holds in full, by its bytes: it stands in the queue under event `u`, and the head
follows it (R457). -/
def Almanac.follow (a : Almanac) (b : List Byte) (u now : Nat) : Almanac :=
  let n := ofLe (slice b 0 8)
  let kind := ofLe (slice b 16 1)
  let e : AlEntry :=
    { index := n, stamp := BitVec.ofNat 64 (ofLe (slice b 8 8)), kind := kind, nrec := ofLe (slice b 17 1),
      port := if kind = 6 then ofLe (slice b 56 2) else 0, since := now, bytes := b, ready := true, signed := true,
      built := some u }
  let later := a.queue.any (fun x => x.ready && decide (n < x.index))
  let q := if a.queue.any (fun x => x.index == n) then a.queue.map (fun x => if x.index = n then e else x) else a.queue ++ [e]
  let a : Almanac :=
    { a with index := max a.index (n + 1), hash := if later then a.hash else sha256 b, queue := q,
             cpcount := if kind = 7 then max a.cpcount (ofLe (slice b 56 8)) else a.cpcount,
             cpFrom := if kind = 7 then max a.cpFrom (n + 1) else a.cpFrom }
  a.resolve

/-- Formation is halted, or the queue is full (R452). HALT is set by the first entry that is not formed (DEDUCED, log entry
115). -/
def Almanac.full (a : Almanac) : Bool := a.halt || decide (alQueueSize ≤ a.queue.length)

/-- Form an entry at the present edge; with the queue full or formation halted it is counted instead (R452); in a
suspended chain none is formed (R457). -/
def State.formEntry (s : State) (kind nrec port : Nat) (body : List Byte) : State :=
  let a := s.almanac
  if s.alSuspended then s
  else if a.full then
    let s := s.incSat Reg.AL_NOTFORMED
    { s with almanac := { a with halt := true, haltFrom := if a.halt then a.haltFrom else s.stamp, haltTo := s.stamp,
                                 haltCount := a.haltCount + 1 } }
  else
    let efl := s.rd Reg.TB_STAT_EPOCH_VALID + (if s.noKey then 2 else 0)
    let e : AlEntry :=
      { index := a.index, stamp := s.stamp, kind := kind, nrec := nrec, port := port, since := s.now,
        bytes := alBytes a.index s.stamp kind nrec efl [] body }
    { s with almanac := { a with index := a.index + 1, queue := a.queue ++ [e] }.resolve }

/-! ### Session digests -/

/-- Bytes of a session element (R453). -/
def Element.bytes (e : Element) : List Byte :=
  [BitVec.ofNat 8 e.partner, e.flags] ++ leBytes 2 e.data.toNat ++ leBytes 4 e.seq.toNat

/-- One session element of a port (R453). -/
def State.element (s : State) (p : Nat) (e : Element) : State :=
  s.modPort p (fun x => if x.sessionOpen then { x with elements := x.elements ++ [e] } else x)

/-- Elements of one partner in serial order from the first of the interval; they are taken in that order (R113). -/
def elementsOf (l : List Element) (k : Nat) : List Element := l.filter (fun e => e.partner == k)

/-- Body of a SESSION entry (R448, R454). -/
def sessionBody (p : Nat) (x : Port) (fin : Bool) : List Byte :=
  let ord := (List.range 4).flatMap (elementsOf x.elements)
  let sum := (x.elements.filter (fun e => !e.flags.getLsbD 4)).foldl (fun a e => a + e.stamp) (0 : Stamp)
  leBytes 2 p ++ [if fin then 1#8 else 0#8, 0#8] ++ leBytes 4 x.session ++
  sha256 (ord.flatMap Element.bytes) ++ leBytes 8 sum.toNat ++
  (List.range 4).flatMap (fun k => leBytes 4 (((elementsOf x.elements k).head?.map (·.seq)).getD (x.seq k)).toNat) ++
  (List.range 4).flatMap (fun k => leBytes 4 (elementsOf x.elements k).length)

/-- Form a SESSION entry of a port; its interval ends (R454). The elements of a session that goes on keep accumulating where
the entry is not formed (R452). -/
def State.sessionEntry (s : State) (p : Nat) (fin : Bool) : State :=
  let x := s.port p
  let body := sessionBody p x fin
  let keep := s.almanac.full && !fin
  (s.modPort p (fun x => { x with elements := if keep then x.elements else [], sessionOpen := x.sessionOpen && !fin })).formEntry
    6 4 p body

/-- Elements that an interim SESSION entry has taken, as many of each partner as it counts, leave the accumulator (R454, R457). -/
def takenElements : List Nat → List Element → List Element
  | _, [] => []
  | c, e :: t =>
    if 0 < c.getD e.partner 0 then takenElements (c.set e.partner (c.getD e.partner 0 - 1)) t else e :: takenElements c t

/-- The accumulator of a shadow follows a SESSION entry of the primary (R457). -/
def State.followSession (s : State) (b : List Byte) : State :=
  if slice b 16 1 ≠ [6#8] then s else
  s.modPort (ofLe (slice b 56 2)) (fun x =>
    if x.session % 2 ^ 32 = ofLe (slice b 60 4) then
      { x with elements := takenElements ((List.range 4).map (fun k => ofLe (slice b (120 + 4 * k) 4))) x.elements }
    else x)

/-- A session begins: the SESSION number increments; the first after POR is 1 (R453; DEDUCED, log entry 13). -/
def State.sessionBegin (s : State) (p : Nat) : State :=
  s.modPort p (fun x => { x with session := x.session + 1, sessionOpen := true, elements := [] })

/-! ### Entries of the other kinds (R448) -/

def State.genesisEntry (s : State) : State :=
  s.formEntry 1 3 0 (leBytes 8 Config.serial.toNat ++ s.keyId)

def State.epochEntry (s : State) (e : Stamp) : State :=
  s.formEntry 2 3 0 (leBytes 8 e.toNat ++ leBytes 4 (s.rd Reg.TB_SYNC_DLY) ++ leBytes 4 (s.rd Reg.TB_PASS_IN))

def State.calibEntry (s : State) (sub old new : Nat) : State :=
  s.formEntry 3 3 0 ([BitVec.ofNat 8 sub] ++ leBytes 3 0 ++ leBytes 4 old ++ leBytes 4 new)

def State.configEntry (s : State) (source : Nat) (digest : List Byte) (imageId : Nat) : State :=
  s.formEntry 4 3 0 ([BitVec.ofNat 8 source] ++ leBytes 7 0 ++ padTo 32 digest ++ leBytes 8 imageId)

/-- PAIR entry (R448, R458): SUB, the takeover's registers, and the other chain's head. -/
def State.pairEntry (s : State) (sub otherIdx : Nat) (otherHash : List Byte) : State :=
  let info := s.reg 0 0x18F
  s.formEntry 5 4 0
    ([BitVec.ofNat 8 sub, BitVec.ofNat 8 (Reg.HG_TKINFO_CAUSE.get info)] ++ leBytes 2 (Reg.HG_TKINFO_CUT.get info) ++
     leBytes 4 (Reg.HG_TKINFO_LAT.get info) ++ leBytes 8 (if sub = 1 then s.hinge.tkStamp.toNat else 0) ++
     leBytes 8 otherIdx ++ padTo 32 otherHash ++ s.keyId)

def State.lapseEntry (s : State) (cause notFormed fromIdx toIdx sessCut : Nat) (a b : Stamp) : State :=
  (s.formEntry 8 3 0
    ([BitVec.ofNat 8 cause] ++ leBytes 3 0 ++ leBytes 4 notFormed ++ leBytes 8 fromIdx ++ leBytes 8 toIdx ++
     leBytes 4 sessCut ++ leBytes 4 0 ++ leBytes 8 a.toNat ++ leBytes 8 b.toNat)).wr Reg.AL_STAT_LAPSE 1

/-! ### Checkpoints -/

/-- A checkpoint is being signed (R456). -/
def Almanac.signing (a : Almanac) : Bool := a.queue.any (fun e => e.kind == 7 && !e.signed)

/-- The cut K (R456): interim SESSION entries in port order unless fewer than 4,096 places are free, then the CHECKPOINT. One
that cannot be formed counts under R452 alone. -/
def State.cut (s : State) : State :=
  let s := if 4096 ≤ alQueueSize - s.almanac.queue.length then
      (s.ports.filter (fun x => x.2.sessionOpen && !x.2.elements.isEmpty)).foldl (fun s x => s.sessionEntry x.1 false) s
    else s
  let a : Almanac := { s.almanac with cutAt := s.now, cutAsked := false }
  let body := leBytes 8 (a.cpcount + 1) ++ leBytes 8 a.cpFrom
  let a : Almanac := if a.full then a else { a with cpcount := a.cpcount + 1, cpFrom := a.index + 1 }
  ({ s with almanac := a } : State).formEntry 7 4 0 body

/-- The records of an entry (R450), built into staging as one event. -/
def State.buildEntry (s : State) (e : AlEntry) : State :=
  let u := s.nextUid
  let mark : AlEntry → AlEntry := fun x => if x.index = e.index then { x with built := some u } else x
  let s : State := { s with nextUid := u + 1, almanac := { s.almanac with queue := s.almanac.queue.map mark } }
  (List.range e.nrec).foldl (fun s k =>
    (s.form { uid := 0, ring := s.rd Reg.AL_CFG_RING, type := .almanac, port := e.port, partner := 3,
              seq := BitVec.ofNat 32 e.index, base := e.stamp, events := [u], marked := s.mirrors,
              body := .raw ([BitVec.ofNat 8 k, BitVec.ofNat 8 e.nrec] ++ leBytes 6 0 ++ slice e.bytes (40 * k) 40) }
      (some e.since)).2) s

/-- RECORD_BUILD of the Almanac: the oldest complete entry not yet built, while AL_CFG_EN is 1 and the event part of
staging has room (R200, R450). -/
def State.buildAlmanac (s : State) : State :=
  if !s.on Reg.AL_CFG_EN || s.alSuspended then s else
  match s.almanac.queue.find? (fun e => e.built.isNone) with
  | some e => if e.ready && decide (e.nrec ≤ s.eventFree) then s.buildEntry e else s
  | none => s

/-- Entries whose records are all committed leave the queue: AL_CMT, AL_HEAD and AL_CPCOUNT move, and a committed
CHECKPOINT raises source 283 (R451, R456, R460), in a shadow the primary alone (DEDUCED, log entry 115). -/
def State.commitEntries (s : State) : State :=
  let held := s.staging.flatMap (·.events)
  let done := fun (e : AlEntry) => match e.built with | some u => !held.contains u | none => false
  (s.almanac.queue.filter done).foldl (fun s e =>
    let a := s.almanac
    let s : State := { s with almanac :=
      { a with queue := a.queue.filter (fun x => x.index != e.index), committed := a.committed + 1,
               headCommitted := sha256 e.bytes } }
    if e.kind = 7 then
      let n := ofLe (slice e.bytes 56 8)
      let s := s.wr Reg.AL_CPCOUNT n
      if s.alSuspended then s else s.raiseEvent 283 (n % 2 ^ 32)
    else s) s

/-! ### Register checks and views -/

/-- AL_CFG (R460): EN needs an ACTIVE event ring. -/
def alValue (s : State) (w : Nat) (d : Word) : Bool :=
  match w with
  | 0x1C0 =>
    let r := Reg.AL_CFG_RING.get d
    Reg.AL_CFG_EN.get d == 0 || ((s.ring r).state == .active && s.rd Reg.RG_CFG_KIND r == 2)
  | _ => true

def alState (s : State) (w : Nat) (d : Word) : Bool :=
  match w with
  | 0x1C0 => !s.on Reg.AL_CFG_EN || Reg.AL_CFG_RING.get d == s.rd Reg.AL_CFG_RING
  | _ => true

def alAct (s : State) (w : Nat) (d : Word) : State :=
  match w with
  | 0x1C1 => if Reg.AL_CTL_CUT.get d == 1 then { s with almanac := { s.almanac with cutAsked := true } } else s
  | _ => s

/-- A word of big-endian bytes from an offset. -/
def beWordAt (l : List Byte) (a : Nat) : Word := (beWords (slice l a 4)).getD 0 0

/-- The four certificate bytes at AL_CERTADDR, 0 past AL_CERTLEN (R460). -/
def State.certWord (s : State) : Word :=
  let a := s.rd Reg.AL_CERTADDR * 4
  beWordAt ((List.range 4).map (fun k => if a + k < Config.certLength.toNat then Config.certByte (a + k) else 0)) 0

def alView (s : State) (w : Nat) (v : Word) : Word :=
  let a := s.almanac
  if w = 0x1C2 then
    Reg.AL_STAT_QUEUED.set (Reg.AL_STAT_SIGNING.set (Reg.AL_STAT_HALT.set (Reg.AL_STAT_SUSP.set v
      s.alSuspended.toNat) a.halt.toNat) a.signing.toNat) a.queue.length
  else if w = 0x1C3 then BitVec.ofNat 32 a.committed
  else if w = 0x1C4 then a.cmtHold
  else if 0x1C8 ≤ w ∧ w ≤ 0x1CF then beWordAt a.headCommitted (4 * (w - 0x1C8))
  else if 0x1D0 ≤ w ∧ w ≤ 0x1DF then if s.noKey then 0 else v
  else if w = 0x1E2 then s.certWord
  else v

/-! ### The commands -/

/-- LAPSE_QUEUE (R452): formation resumes once 1,024 places are free. -/
def execLapseQueue (s : State) : Host.Outcome State Fault Refusal :=
  let a := s.almanac
  if a.halt && decide (1024 ≤ alQueueSize - a.queue.length) && s.running then
    let s : State := { s with almanac := { a with halt := false, haltCount := 0 } }
    .next (s.lapseEntry 1 a.haltCount a.index (a.index - 1) 0 a.haltFrom a.haltTo)
  else .next s

/-- CHECKPOINT_CUT (R456): at once after an AL_CTL_CUT, a TAKEOVER entry or 65,536 entries; else 1 s after the previous
cut, and time passes to that edge. -/
def execCheckpointCut (s : State) : Host.Outcome State Fault Refusal :=
  let a := s.almanac
  if !s.running || s.alSuspended then .next s
  else if a.cutAsked || decide (65536 ≤ a.index - a.cpFrom) then .next s.cut
  else .next (s.advance (a.cutAt + 1600000000)).cut

/-- CHECKPOINT_SIGNED (R456): the oldest unsigned CHECKPOINT receives r and s, 0 without key material; the entries after it
take their PREV. -/
def execCheckpointSigned (s : State) : Host.Outcome State Fault Refusal :=
  if !s.running then .next s else
  match s.almanac.queue.find? (fun e => e.kind == 7 && !e.signed) with
  | none => .next s
  | some e =>
    let sig := if s.noKey then List.replicate 64 (0 : Byte) else padTo 64 (Config.sign (sha256 (e.bytes.take 96)))
    let q := s.almanac.queue.map (fun x =>
      if x.index = e.index then { x with bytes := splice x.bytes 96 sig, signed := true } else x)
    .next { s with almanac := { s.almanac with queue := q }.resolve }

/-- LAPSE_RESET (R459): the first entry after a SOFT or CORE reset says what the reset discarded. -/
def execLapseReset (s : State) : Host.Outcome State Fault Refusal :=
  match s.almanac.lapseDue with
  | none => .next s
  | some (n, from_, a, b, cutn) =>
    if !s.running || s.alSuspended then .next s else
    let s : State := { s with almanac := { s.almanac with lapseDue := none } }
    .next (s.lapseEntry 2 0 from_ (from_ + n - 1) cutn a b)

end Sys2Proof.Machine
end

