-- ==== Sys2Proof/Machine/Operands.lean ====
section
/-!
DEFINITION. What the commands of ports and pins act on: palette words and the framing they give (R65 to R67, R78), the
pads and what a function drives (R335 to R337), a port's receive and transmit space (R146, R147), the storing of receive
entries and the flow decision (R143, R144, R149).
-/
namespace Sys2Proof.Machine

/-! ### Palettes and framing -/

def Settings.data (x : Settings) : Nat := Reg.PL_FRAME_DATA.get x.frame
def Settings.parity (x : Settings) : Nat := Reg.PL_FRAME_PARITY.get x.frame
def Settings.stop (x : Settings) : Nat := Reg.PL_FRAME_STOP.get x.frame
/-- Inverted polarity: mark is low (R65). -/
def Settings.inverted (x : Settings) : Bool := Reg.PL_FRAME_POL.get x.frame == 1
def Settings.msbFirst (x : Settings) : Bool := Reg.PL_FRAME_ORDER.get x.frame == 1
def Settings.compact (x : Settings) : Bool := Reg.PL_FRAME_FMT.get x.frame == 1
def Settings.addrMode (x : Settings) : Nat := Reg.PL_LINK_ADDR.get x.link
def Settings.flow (x : Settings) : Nat := Reg.PL_LINK_FLOW.get x.link
def Settings.rangeA (x : Settings) : Nat := Reg.PL_ACQ_RANGE.get x.acq
def Settings.lanes (x : Settings) : Nat := 2 ^ Reg.PL_ACQ_LANES.get x.acq
def Settings.confirm (x : Settings) : Nat := Reg.PL_ACQ_K.get x.acq

/-- A direct entry: one lane, range 0 (R68). -/
def Settings.direct (x : Settings) : Bool := x.lanes == 1 && x.rangeA == 0

/-- Bits of parity, 0 or 1. -/
def Settings.parityBits (x : Settings) : Nat := if x.parity = 0 then 0 else 1

/-- Twice the frame length F_b (R67). -/
def Settings.frame2 (x : Settings) : Nat :=
  2 * (1 + x.data + x.parityBits) + (match x.stop with | 0 => 2 | 1 => 3 | _ => 4)

/-- The nominal bit period in units of 2^-16 tick: PL_PERIOD counts sixteenths of a tick (R65). -/
def Settings.nominal (x : Settings) : Nat := x.period.toNat * 4096

/-- The settings an entry of the palette holds now (R65). -/
def State.palette (s : State) (e : Nat) : Settings :=
  { pal := e, gen := BitVec.ofNat 16 (s.rd Reg.PL_STAT_GEN e), period := s.reg e 0x301, frame := s.reg e 0x302,
    acq := s.reg e 0x303, link := s.reg e 0x304 }

/-- The settings a port's PT_RXCFG_PAL names. -/
def State.portPalette (s : State) (p : Nat) : Settings := s.palette (s.rd Reg.PT_RXCFG_PAL p)

/-- Instances of a word that hold something else than its reset value. -/
def State.listed (s : State) (w : Nat) : List Nat := ((s.regs.map (·.1)).filter (fun k => k % 4096 == w)).map (· / 4096)

/-- The ports with PT_RXCFG_EN or PT_TXCFG_EN at 1. -/
def State.enabledPorts (s : State) : List Nat :=
  (s.listed 0x401 ++ s.listed 0x414).eraseDups.filter (fun p => s.on Reg.PT_RXCFG_EN p || s.on Reg.PT_TXCFG_EN p)

/-- Stack 0 is requested (R431). -/
def State.mem0Wanted (s : State) : Bool := s.enabledPorts.any (fun p => decide (0 < s.rd Reg.PT_BUFCFG_QUOTA p))

/-- A request to stack 0, or a permission that makes its state too deep, starts its return (R431, R446). -/
def State.askMem0 (s : State) : State :=
  let p := s.power
  if p.mem0 != .run && p.wake0.isNone && (s.mem0Wanted || decide (s.rd Reg.PW_MEMCFG_MAXST0 < p.mem0.code)) then
    { s with power := { p with wake0 := some s.now } }
  else s

/-- An access of stack 0, which restarts its timers, and the request it may be (R431). -/
def State.touchMem0 (s : State) : State := ({ s with power := { s.power with mem0At := s.now } } : State).askMem0

/-- A divisor that is never 0: a range of at most 35 % keeps every lane's divisor above 0 (R66). -/
def perPercent (x : Settings) (num : Int) : Nat :=
  roundDiv (x.nominal * 100 * x.lanes) (max 1 ((100 * x.lanes : Int) + x.rangeA * num).toNat)

/-- Lane i of an entry: starting period, and the limits its sub-band gives, shortest first, in 2^-16 tick (R78). -/
def Settings.laneStart (x : Settings) (i : Nat) : Nat := perPercent x (2 * i + 1 - x.lanes)
def Settings.laneMax (x : Settings) (i : Nat) : Nat := perPercent x (2 * i - x.lanes)
def Settings.laneMin (x : Settings) (i : Nat) : Nat := perPercent x (2 * i + 2 - x.lanes)

/-- The slowest hypothesis of an entry (R65, R76). -/
def Settings.slowest (x : Settings) : Nat := roundDiv (x.nominal * 100) (100 - x.rangeA)

/-- The tracking band: nominal baud ±(A + 5) %, at most 40 %, the fastest capped at 105 Mbaud (R87). Shortest and longest
period in 2^-16 tick; 105 Mbaud is a period of 25,600,000,000 / 105,000,000 ticks. -/
def Settings.trackMin (x : Settings) : Nat :=
  max (roundDiv (x.nominal * 100) (100 + min 40 (x.rangeA + 5))) (roundDiv (25600 * 65536) 105)
def Settings.trackMax (x : Settings) : Nat := roundDiv (x.nominal * 100) (100 - min 40 (x.rangeA + 5))

/-! ### Frames on the line -/

/-- Ones of a value. -/
def ones (d : BitVec 9) : Nat := ((List.range 9).filter (fun i => d.getLsbD i)).length

/-- The parity bit of a value, as mark or space (R65). -/
def Settings.parityBit (x : Settings) (d : BitVec 9) : Bool :=
  match x.parity with
  | 1 => ones d % 2 == 1
  | 2 => ones d % 2 == 0
  | 3 => true
  | _ => false

/-- The bits of a frame in order, mark as true, the stop bit as one (R67, R133). -/
def Settings.frameBits (x : Settings) (d : BitVec 9) : List Bool :=
  [false] ++
  (List.range x.data).map (fun i => d.getLsbD (if x.msbFirst then x.data - 1 - i else i)) ++
  (if x.parity = 0 then [] else [x.parityBit d]) ++ [true]

/-- The level changes among bits that follow a level, from bit j on of a frame at `t`: stamp and pin level (R133). -/
def frameEdges (x : Settings) (t : Stamp) (bit : Nat) : Nat → Bool → List Bool → List (Stamp × Bool)
  | _, _, [] => []
  | j, prev, b :: rest =>
    (if b = prev then [] else [(t + ticks (roundDiv (j * bit) 65536), b != x.inverted)]) ++
      frameEdges x t bit (j + 1) b rest

/-- Every level change of a character that starts at `t` on a line at mark. -/
def Settings.edges (x : Settings) (d : BitVec 9) (t : Stamp) (bit : Nat) : List (Stamp × Bool) :=
  frameEdges x t bit 0 true (x.frameBits d)

/-- End of a frame that starts at `t`: t + F_b * P (R133). -/
def Settings.frameEnd (x : Settings) (t : Stamp) (bit : Nat) : Stamp := t + ticks (roundDiv (x.frame2 * bit) 131072)

/-- The character on the line: value, commanded start and end, bit period. -/
def Port.line (x : Port) : Option (BitVec 9 × Stamp × Stamp × Nat) :=
  match x.flowFlight with
  | some f => some (f.value, f.start, f.end_, f.bit)
  | none => x.sending.bind (fun sd => sd.flight.map (fun f => (f.1, f.2.1, f.2.2, sd.bit)))

/-- Flow mode and address mode of a port: those of the receive side while it is enabled, since a change of either takes
effect for both directions at the receive boundary (R162). -/
def Port.flowMode (x : Port) : Nat := if x.rxIdle then x.txSet.flow else x.set.flow
def Port.addrMode (x : Port) : Nat := if x.rxIdle then x.txSet.addrMode else x.set.addrMode

/-! ### Pads -/

/-- OUT_PATH of a pin with the addition of its drive strength (R43, R337). -/
def State.outPath (s : State) (q : Nat) : Nat :=
  s.rd Reg.TB_PINPATH_OUT_PATH q +
  (match Reg.ST_PINCFG_SLEW.get (s.pin q).cfgNow with
   | 0 => 0
   | k => (Config.slewDelay k).toNat)

/-- The launch stamp of an edge committed at the present DCLK edge with tap 0 (R43). -/
def State.ballStamp (s : State) (q : Nat) : Stamp := s.c + 192 + ticks (s.outPath q) - s.pairOfs

/-- DCLK edge N and tap u that launch an edge of pin q at a stamp (R43): N is none when it is already past. -/
def State.commitEdge (s : State) (q : Nat) (launch : Stamp) : Option Nat × Nat :=
  let x := launch - 192 - ticks (s.outPath q) + s.pairOfs
  let d := (x - s.c).toInt
  (if 0 ≤ d then some (s.now + (d / 16).toNat) else none, (d % 16).toNat)

/-- Station and pin number of a pin (R2). -/
def pinOf (q : Nat) : Nat := q % 4

/-- The port whose transmit, receive pin a pin is; the port A whose RTS, CTS it may carry (R331). -/
def txPortOf (q : Nat) : Nat := q / 2
def rxPortOf (q : Nat) : Nat := q / 2
def rtsPortOf (q : Nat) : Nat := 2 * (q / 4)

/-- RTS of a port A as a pin level (R163). -/
def State.rtsLevel (s : State) (p : Nat) : Bool := (s.port p).rts == s.on Reg.PT_FCCFG_RTSPOL p

/-- The level a driving owner holds at rest: transmit mark, RTS at the flow state, GPIO output (R340). -/
def State.ownerLevel (s : State) (q : Nat) : Option Bool :=
  match (s.pin q).owner with
  | .tx => some (!(s.port (txPortOf q)).txSet.inverted)
  | .rts => some (s.rtsLevel (rtsPortOf q))
  | .gpioOut => some ((s.rd Reg.ST_GPCFG_OUT (q / 4)).testBit (pinOf q))
  | _ => none

/-- Open drain: a high level turns the driver off (R336). -/
def Pin.openDrain (x : Pin) : Bool := Reg.ST_PINCFG_OD.get x.cfgNow == 1

/-- The level the pad shows outside: none for an open drain that drives high. -/
def Pin.outLevel (x : Pin) (b : Bool) : Option Bool := if x.openDrain && b then none else some b

/-- A level committed at this edge to a pad in DRIVE (R22, R335). -/
def State.drive (s : State) (q : Nat) (b : Bool) : State :=
  let x := s.pin q
  if x.pad = .drive ∧ x.driven ≠ some b then
    (s.setPin q { x with driven := some b, drivenAt := s.now }).emit (.pinLevel q (x.outLevel b) (s.ballStamp q))
  else s

/-- RTS of a port follows its flow decision (R142, R143): asserted while the receive side is enabled and not stopped. -/
def State.setRts (s : State) (p : Nat) : State :=
  let x := s.port p
  let on := x.rx != .off && !x.stopped
  let s := s.setPort p { x with rts := on }
  if (s.pin (2 * p + 2)).owner = .rts ∧ p % 2 = 0 then s.drive (2 * p + 2) (s.rtsLevel p) else s

/-! ### Receive and transmit space -/

/-- The Reserve quota in force, bytes; 0 with stack 0 failed, and while it is not in RUN (R14, R28, R148). -/
def State.quota (s : State) (p : Nat) : Nat :=
  if (s.rd Reg.GL_DIESTAT_HBM_OK).testBit 0 && s.power.mem0 == .run then s.rd Reg.PT_BUFCFG_QUOTA p * 65536 else 0

/-- Receive space of a port, bytes (R146), the space taken and the space free. -/
def State.rxSpace (s : State) (p : Nat) : Nat := 2048 + s.quota p * s.rd Reg.PT_BUFCFG_RXSHARE p / 8
def State.rxUsed (s : State) (p : Nat) : Nat := ((s.port p).entries.map (·.space)).sum
def State.rxFree (s : State) (p : Nat) : Nat := s.rxSpace p - s.rxUsed p

/-- Transmit space of a port, bytes (R147). -/
def State.txSpace (s : State) (p : Nat) : Nat := 2048 + s.quota p * (8 - s.rd Reg.PT_BUFCFG_RXSHARE p) / 8

/-- Bytes of descriptors whose data lie in, or are on their way to, the transmit space: those before the first that does not
fit, and the one in progress (R147). -/
def Port.txUsed (x : Port) : Nat :=
  ((x.queue.filter (fun d => d.data.isSome)).map (·.len)).sum +
  (match x.sending with | some { job := .desc d, .. } => d.len | _ => 0)

/-- The completions that are formed and not written: with the submission ring and the data bytes each still holds (R147). -/
def State.completing (s : State) : List Rec :=
  s.unbuilt.filter (fun r => r.desc.isSome) ++ s.staging.filter (fun r => r.desc.isSome && r.slot.isNone)

/-- Transmit space taken at a port: data fetched, until the completion is written (R147). -/
def State.txUsed (s : State) (p : Nat) : Nat :=
  (s.port p).txUsed + ((s.completing.filter (fun r => r.port == p)).map (fun r => (r.desc.map (·.2)).getD 0)).sum

/-- Places taken in the 128 of a submission ring's descriptor staging: each descriptor read whose completion is not written
(R147). -/
def State.descHeld (s : State) (n : Nat) : Nat :=
  (s.ports.map (fun x =>
    (x.2.queue.filter (fun d => d.ring == n)).length +
    (match x.2.sending with | some { job := .desc d, .. } => if d.ring = n then 1 else 0 | _ => 0))).sum +
  (s.completing.filter (fun r => r.desc.any (fun d => d.1 == n))).length

/-! ### Flow decision -/

/-- A flow character is due when the receive side's decision differs from what was last sent (R144); none while the
transmitter is OFF or STARVED. -/
def Port.flowWanted (x : Port) : Option Bool :=
  if x.tx = .off ∨ x.tx = .starved ∨ x.flowMode ≠ 2 then none
  else if x.stopped = x.xoffTx then none else some x.stopped

/-- A flow character becomes due behind those that wait (R144); none while the transmitter is OFF or STARVED. -/
def Port.pushFlow (x : Port) (xoff : Bool) : Port :=
  if x.tx = .off ∨ x.tx = .starved ∨ x.flowMode ≠ 2 then x else { x with flowDue := x.flowDue ++ [xoff] }

/-- Take a decision: RTS follows under RTS/CTS, a flow character becomes due under XON/XOFF (R143, R144). -/
def State.takeDecision (s : State) (p : Nat) (stop : Bool) : State :=
  (s.modPort p (fun x => ({ x with stopped := stop, sinceXoff := 0 } : Port).pushFlow stop)).setRts p

/-- The decision is compared with what was sent, when the transmitter or XON/XOFF flow control starts (R144). -/
def State.compareFlow (s : State) (p : Nat) : State :=
  (s.modPort p (fun x => { x with flowDue := x.flowWanted.toList })).setRts p

/-- Follow the pressure of a port on its LOSSLESS rings: from PT_FCTHR_OFF on, until the space rises to PT_FCTHR_ON (R229). -/
def State.notePressure (s : State) (p : Nat) : State :=
  let free := s.rxFree p
  if free ≤ s.rd Reg.PT_FCTHR_OFF p * 64 then s.modPort p (fun x => { x with pressure := true })
  else if s.rd Reg.PT_FCTHR_ON p * 64 ≤ free then s.modPort p (fun x => { x with pressure := false }) else s

/-- The release side of the flow decision: at every rise of the free space (R143). -/
def State.flowRelease (s : State) (p : Nat) : State :=
  let s := s.notePressure p
  if (s.port p).stopped && decide (s.rd Reg.PT_FCTHR_ON p * 64 ≤ s.rxFree p) then s.takeDecision p false else s

/-- The flow decision at the confirmation of an entry, after its space is counted (R143, R144): every 16 entries confirmed
while the space stays low, counted from the decision to stop, send XOFF again. -/
def State.flowConfirm (s : State) (p : Nat) : State :=
  if s.rxFree p ≤ s.rd Reg.PT_FCTHR_OFF p * 64 then
    let s := s.notePressure p
    if (s.port p).stopped then
      s.modPort p (fun x =>
        if x.flowMode = 2 then
          if 16 ≤ x.sinceXoff + 1 then ({ x with sinceXoff := 0 } : Port).pushFlow true
          else { x with sinceXoff := x.sinceXoff + 1 }
        else x)
    else s.takeDecision p true
  else s.flowRelease p

/-! ### Entries -/

/-- An entry of a decision block (R243), while the primary sends them. -/
def State.noteBlock (s : State) (p : Nat) (e : BlockEntry) : State :=
  if s.mirrors then
    s.modPort p (fun x => { x with block := x.block ++ [(s.now, e)] })
  else s

/-- What a shadow decoded or observed itself waits for the primary's decision block (R245). -/
def State.noteOwn (s : State) (p : Nat) (o : Own) : State :=
  if s.shadowing then s.modPort p (fun x => { x with own := x.own ++ [o] }) else s

/-- A Cue match is an entry of a decision block; a shadow makes the same match of the characters it decides (R243, R245). -/
def State.noteMatch (s : State) (p : Nat) (e : BlockEntry) : State :=
  if s.shadowing then s.modPort p (fun x => { x with matched := x.matched ++ [e] }) else s.noteBlock p e

/-- Store a confirmed receive entry, or lose it for want of space (R146, R149): the event it carries when stored. `streams`
are the streams whose loss interval it closes or opens, with the sequence number each refers to; `event` is the event it
carries when that exists already. -/
def State.store (s : State) (p : Nat) (kind : EntryKind) (base : Stamp) (space : Nat) (isChar : Bool)
    (streams : List (Nat × Word)) (event : Option Nat := none) : Option Nat × State :=
  if s.rxFree p < space then
    (none, (streams.foldl (fun (a : Bool × State) k => (false, a.2.loseEntry p k.1 isChar a.1 base k.2)) (true, s)).2)
  else
    let (u, s) := match event with | some u => (u, s) | none => s.fresh
    let (o, s) := s.takeOrder
    let e : Entry := ⟨u, kind, streams.map (·.1), base, s.now, space, o, false, s.coveredTo p⟩
    let s := (s.modPort p (fun x => { x with entries := x.entries ++ [e] })).touchMem0
    (some u, streams.foldl (fun s k => s.closeLoss p k.1 o) s)

/-- A varnished character takes its place in the receive space until its Varnish is written (R116, R146); it is carried by
that record, and never lost while the Varnish is stored (DEDUCED, log entry 68). -/
def State.storeVarnished (s : State) (p k u : Nat) (base : Stamp) : State :=
  let (o, s) := s.takeOrder
  s.modPort p (fun x => { x with entries := x.entries ++ [⟨u, .varnished, [k], base, s.now, 8, o, true, 0⟩] })

/-- The sequence number that the next character of a stream will take (R182). -/
def State.nextSeq (s : State) (p k : Nat) : Word := (s.port p).seq k

/-- What a decision block says of a port-level entry (R243): breaks, edges and overflows. -/
def portBlock (type : RecType) (base : Stamp) (body : List Byte) : Option BlockEntry :=
  match type with
  | .brk => some ⟨2, 0, 0, [base, BitVec.ofNat 64 (ofLe (slice body 0 8))]⟩
  | .edge => some ⟨3, 0, body.headD 0, [base, BitVec.ofNat 64 (ofLe (slice body 8 8))]⟩
  | .overflow => some ⟨4, BitVec.ofNat 32 (ofLe (slice body 0 4)), 0, [base, BitVec.ofNat 64 (ofLe (slice body 8 8))]⟩
  | _ => none

/-- A port-level entry of R192: once to each distinct ring of the port, SEQ by the lowest partner it carries; 64 bytes of
receive space, once (R146). The flow decision follows (R143). Answers the event when it is stored. -/
def State.portEntryNow (s : State) (p : Nat) (type : RecType) (base : Stamp) (body : List Byte) : Option Nat × State :=
  let rs := (s.portRings p).map (fun n => (n, s.ringPartner p n))
  let bodies := rs.map (fun (n, k) => (n, k, s.nextSeq p k, body))
  let s := match portBlock type base body with
    | some e => s.noteBlock p e
    | none => s
  let (u, s) := s.store p (.port type true bodies) base 64 false (rs.map (fun (_, k) => (k, s.nextSeq p k)))
  (u, s.flowConfirm p)

/-- The same for what the port decides itself: a shadow only notes it (R245). -/
def State.portEntry (s : State) (p : Nat) (type : RecType) (base : Stamp) (body : List Byte) : Option Nat × State :=
  if s.shadowing then
    (none, match portBlock type base body with
      | some e => s.noteOwn p (.entry e)
      | none => s)
  else s.portEntryNow p type base body

/-- Body of a PROFILE record (R187). -/
def profileBody (x : Settings) (dir : Nat) : List Byte :=
  [BitVec.ofNat 8 x.pal, BitVec.ofNat 8 dir] ++ leBytes 2 x.gen.toNat ++ leBytes 4 x.period.toNat ++
    leBytes 4 x.frame.toNat ++ leBytes 4 x.acq.toNat ++ leBytes 4 x.link.toNat

/-- The receive PROFILE record of a boundary (R69, R71). -/
def State.rxProfile (s : State) (p : Nat) (stamp : Stamp) : State :=
  (s.portEntry p .profile stamp (profileBody (s.port p).set 0)).2

/-- Space of an entry is freed when every record that carries its event has been issued (R146); the release side of the
flow decision follows. -/
def State.freeEntries (s : State) : State :=
  let staged := (s.staging.filter (fun r => r.slot.isNone)).flatMap (·.events)
  s.ports.foldl (fun s (p, x) =>
    let waiting := staged ++ (x.entries.filter (fun e => !e.built)).map (·.uid)
    if x.entries.any (fun e => e.built && !waiting.contains e.uid) then
      ((s.notePressure p).modPort p (fun x =>
        { x with entries := x.entries.filter (fun e => !(e.built && !waiting.contains e.uid)) })).touchMem0.flowRelease p
    else s) s

end Sys2Proof.Machine
end

