-- ==== Sys2Proof/Machine/Provisional.lean ====
section
/-!
DEFINITION. The provisional layer (04_provisional.md) as far as it needs no confirmation: early view, PROV records (R105 to
R109), settling rings and settling records (R112, R117, R120, R121), the end of an acquisition without a win, and the
command that drops an aged PROV record (R199).
-/
namespace Sys2Proof.Machine

/-- The partners with a delivery stream: partner 0 under address mode none, else those enabled (R105, R152, R153). -/
def State.streams (s : State) (p : Nat) : List Nat :=
  if (s.port p).set.addrMode = 0 then [0] else [0, 1, 2, 3].filter (s.partnerOn p)

/-- A ring opened with early view and not OFF (R101, R112). -/
def State.early (s : State) (n : Nat) : Bool := s.on Reg.RG_CFG_EARLY n && (s.ring n).state != .off

/-- The early-view rings a port delivers to. -/
def State.earlyRings (s : State) (p : Nat) : List Nat :=
  (((s.streams p).map (s.partnerRing p)).filter s.early).eraseDups

/-- Stream k of a port goes to an early-view ring. -/
def State.earlyStream (s : State) (p k : Nat) : Bool := s.early (s.partnerRing p k)

/-! ### PROV records -/

/-- CFLAGS of a character (R185). -/
def cflagsOf (fe pe noise d8 addr dir win replay : Bool) : BitVec 16 :=
  BitVec.ofNat 16 (fe.toNat + 2 * pe.toNat + 4 * noise.toNat + 8 * d8.toNat + 16 * addr.toNat + 32 * dir.toNat +
    64 * win.toNat + 128 * replay.toNat)

/-- D8 of a character: bit 8 under 9 data bits (R185). -/
def Settings.d8 (x : Settings) (d : BitVec 9) : Bool := x.data == 9 && d.getLsbD 8

/-- Noise as a record reports it: NOISE, or a misfit above 0.25 bit during acquisition (R85, R107). -/
def Chr.noisy (c : Chr) : Bool := c.noise || c.wide

/-- A character takes its place in an open record of these characters (R186, conditions 1 and 2). -/
def fitsRecord (compact : Bool) (base : Stamp) (cs : List RecChar) (c : RecChar) : Bool :=
  decide (cs.length < (if compact then 40 else 16)) &&
  (if compact then decide ((c.stamp - base).toNat ≤ 0xFFFFFFFF) else decide (deltaOf base c ≤ 0xFFFF))

/-- One PROV record while it is being packed: ring, partner, serial of its first character, CFLAGS, characters. -/
structure ProvRun where
  ring    : Nat
  partner : Nat
  serial  : Word
  cflags  : BitVec 16
  chars   : List RecChar
  deriving DecidableEq, Repr

/-- Pack the characters of an offer, in serial order, into PROV records: a record continues while ring, partner and CFLAGS
stay, the serials are consecutive and it has room (R107, R186). -/
def packProv (s : State) (p : Nat) (set : Settings) : List Shown → Option ProvRun → List ProvRun
  | [], cur => cur.toList
  | x :: t, cur =>
    match x.partner with
    | none => cur.toList ++ packProv s p set t none
    | some k =>
      if !s.earlyStream p k then cur.toList ++ packProv s p set t none else
      let rc : RecChar := ⟨x.chr.data, x.chr.stamp⟩
      let cf := cflagsOf x.chr.fe x.chr.pe x.chr.noisy (set.d8 x.chr.data) false false false false
      let new : ProvRun := ⟨s.partnerRing p k, k, x.serial, cf, [rc]⟩
      match cur with
      | some r =>
        if r.ring = new.ring ∧ r.partner = k ∧ r.cflags = cf ∧ x.serial = r.serial + BitVec.ofNat 32 r.chars.length ∧
           fitsRecord set.compact ((r.chars.head?.map (·.stamp)).getD 0) r.chars rc then
          packProv s p set t (some { r with chars := r.chars ++ [rc] })
        else r :: packProv s p set t (some new)
      | none => packProv s p set t (some new)

/-- Form the PROV records of an offer; they bypass the horizon, move no counter and carry no event of their own (R101,
R103). -/
def State.formProv (s : State) (p lane : Nat) (xs : List Shown) : State :=
  let set := (s.port p).set
  (packProv s p set xs none).foldl (fun s r =>
    let (u, s) := s.fresh
    let (o, s) := s.takeOrder
    let rc : Rec := { uid := u, ring := r.ring, type := .chr, port := p, partner := r.partner, seq := r.serial,
                      base := (r.chars.head?.map (·.stamp)).getD 0, body := .chars set.compact r.cflags r.chars,
                      prov := true, lane := lane, since := s.now, order := o, eligible := true }
    { s with staging := s.staging ++ [rc] }) s

/-- Drop the PROV records of a port that are not issued: settling names what a ring was shown, so none follows its
settling record (R115; DESIGN CHOICE, log entry 14). -/
def State.dropProv (s : State) (p : Nat) : State :=
  { s with staging := s.staging.filter (fun r => !(r.prov && r.port == p && r.slot.isNone)) }

/-! ### Settling records -/

/-- The settling rings of a port for a shown list (R112). -/
def State.settlingRings (s : State) (p : Nat) (shown : List Shown) : List Nat :=
  (s.earlyRings p ++ (shown.flatMap (·.rings)).filter s.early).eraseDups

/-- How many of these characters a ring was shown. -/
def shownIn (n : Nat) (xs : List Shown) : Nat := (xs.filter (fun x => x.rings.contains n)).length

/-- Body of a Varnish (R120). -/
def varnishBody (first last : Word) (lane shown : Nat) (next : List Word) (period : Nat) (win : Stamp) : List Byte :=
  leBytes 4 first.toNat ++ leBytes 4 last.toNat ++ [BitVec.ofNat 8 lane, BitVec.ofNat 8 shown] ++ leBytes 6 0 ++
    next.flatMap (fun w => leBytes 4 w.toNat) ++ leBytes 6 period ++ leBytes 2 0 ++ leBytes 8 win.toNat

/-- Body of a Pentimento (R121). -/
def pentimentoBody (first last : Word) (lane reason shown repl : Nat) (ev : Stamp) : List Byte :=
  leBytes 4 first.toNat ++ leBytes 4 last.toNat ++
    [BitVec.ofNat 8 lane, BitVec.ofNat 8 reason, BitVec.ofNat 8 shown, 0#8] ++ leBytes 2 repl ++ List.replicate 26 0 ++
    leBytes 8 ev.toNat

/-- Store a settling record for the rings given with their bodies: one entry of 64 bytes (R146). -/
def State.settleEntry (s : State) (p : Nat) (type : RecType) (seq : Word) (base : Stamp)
    (bodies : List (Nat × List Byte)) : Option Nat × State :=
  if bodies.isEmpty then (none, s) else
  let (u, s) := s.store p (.port type true (bodies.map (fun (n, b) => (n, 3, seq, b)))) base 64 false
    (bodies.map (fun (n, _) => (s.ringPartner p n, s.nextSeq p (s.ringPartner p n))))
  (u, s.flowConfirm p)

/-- Counter moves of a settling event: they wait for its record, or for the port's records when it has none (R216). -/
def State.countEvent (s : State) (m : Move) (f : Fld) (p : Nat) (n : Nat) (u : Option Nat) : State :=
  match u with
  | some u => s.count m f p n [u]
  | none => s.countPort m f p n

/-- The settlement of an acquisition that ended without a win at a stamp (R117, R118): one Pentimento names the whole shown list,
its serials count as retracted, and an ABANDON counts in PT_PVABAND. -/
def State.settleEnd (s : State) (p reason : Nat) (base stamp : Stamp) (shown : List Shown) : State :=
  match shown.head?, shown.getLast? with
  | some f, some l =>
    let rings := s.settlingRings p shown
    let (u, s) := s.settleEntry p .pentimento f.serial base
      (rings.map (fun n => (n, pentimentoBody f.serial l.serial 0xFF reason (shownIn n shown) 0 stamp)))
    let s := s.countEvent .wrap Reg.PT_PVRETR p shown.length u
    if reason = 2 then s.countEvent .sat Reg.PT_PVABAND p 1 u else s
  | _, _ => s

/-- An acquisition ends without a win at the present edge (R117, R118), and the primary reports the ending (R248). A shadow only
gives it up: its settlement follows the primary's (R125, R248). -/
def State.endAcquisition (s : State) (p reason : Nat) (base : Stamp) : State :=
  match (s.port p).acq with
  | none => s
  | some a =>
    if s.shadowing then
      s.modPort p (fun x => { x with acq := none, ending := if a.shown.isEmpty then x.ending else a.shown })
    else
      let s := if s.mirrors then s.emit (.hinge (.event p (.ended reason base s.stamp))) else s
      ((s.modPort p (fun x => { x with acq := none })).dropProv p).settleEnd p reason base s.stamp a.shown

/-- ABANDON at the present edge (R117). -/
def State.abandon (s : State) (p : Nat) : State := s.endAcquisition p 2 s.stamp

/-! ### The command -/

/-- PROV_EXPIRE (R199): the oldest provisional record not issued within 2,048 DCLK of its offer is not written. -/
def execProvExpire (s : State) : Host.Outcome State Fault Refusal :=
  if !s.running then .next s else
  match s.staging.find? (fun r => r.prov && r.slot.isNone) with
  | none => .next s
  | some r =>
    let s := s.advance (r.since + 2048)
    .next { s with staging := s.staging.filter (fun x => x.uid != r.uid) }

end Sys2Proof.Machine
end

