-- ==== Sys2Proof/Machine/Completion.lean ====
section
/-!
DEFINITION. What ends a transmit job: completion and echo records (R137, R139), CUE records (R161), dropped and cut
replies, and a transmitter that stops (R140).
-/
namespace Sys2Proof.Machine

/-- A TXDONE record (R137) for a descriptor, with what was sent of it. It goes to the RG_PAIR ring of PT_TXCFG_RING, and
for an invalid descriptor to that of the ring which holds it (R192). -/
def State.txDone (s : State) (p : Nat) (d : Desc) (status cause : Nat) (sd : Option Sending) : State :=
  let sent := (sd.map (·.sent)).getD 0
  let first := (sd.bind (·.first)).getD 0
  let obs := sd.bind (·.observed)
  let base := if sent = 0 then (if d.timed ∧ status ≠ 3 then d.launch else s.stamp) else obs.getD first
  let cfl := (if sent ≠ 0 ∧ obs.isNone then 1 else 0) + (if (sd.map (·.profile)).getD false then 2 else 0)
  let ring := if status = 3 then s.rd Reg.RG_PAIR d.ring else s.txRing p
  let (u, s) := s.formTx
    { uid := 0, ring := ring, type := .txdone, port := p, partner := d.partner, seq := d.tag, base := base,
      desc := some (d.ring, if d.data.isSome then d.len else 0),
      err := status == 3 || status == 4, late := status == 1,
      body := .raw (leBytes 4 sent ++ [BitVec.ofNat 8 status, BitVec.ofNat 8 cause, BitVec.ofNat 8 cfl, 0#8] ++
        leBytes 8 (if d.timed then d.launch.toNat else 0) ++
        leBytes 8 (if sent = 0 then 0 else ((sd.map Sending.lastEnd).getD 0).toNat) ++ leBytes 4 d.slot.toNat) }
  if status = 1 then s.count .sat Reg.PT_TXERR_LATE p 1 [u]
  else if status = 2 then s.count .sat Reg.PT_TXERR_FLUSHED p 1 [u] else s

/-- A transmit-echo record of one character, under the settings it was sent with (R139, R181). The echo of an address character
carries ADDR (DESIGN CHOICE, log entry 102). -/
def State.echo (s : State) (p : Nat) (d : Desc) (c : BitVec 9) (addr : Bool) (stamp : Stamp) : Nat × State :=
  let set := (s.port p).lineSet
  let cf := cflagsOf false false false (set.d8 c) addr true false false
  s.formTx { uid := 0, ring := s.txRing p, type := .txecho, port := p, partner := d.partner, seq := d.slot,
             base := stamp, body := .chars set.compact cf [⟨c, stamp⟩] }

/-- A CUE record (R161) as a receive entry of the matched character's stream, carrying the event of the match. -/
def State.cueRecord (s : State) (p rule kind : Nat) (late held : Bool) (code rlen : Nat) (rstamp : Stamp) (m : Chr)
    (partner : Nat) (seq : Word) (uid : Option Nat) : Option Nat × State :=
  let body := [BitVec.ofNat 8 rule, BitVec.ofNat 8 kind, BitVec.ofNat 8 (late.toNat + 2 * held.toNat), 0#8] ++
    leBytes 2 code ++ leBytes 2 rlen ++ leBytes 8 rstamp.toNat
  let (u, s) := s.store p (.port .cue false [(s.partnerRing p partner, partner, seq, body)]) m.stamp 64 false
    [(partner, s.nextSeq p partner)] uid
  (u, s.flowConfirm p)

/-- Count dropped replies in CQ_STAT_RDROP (R140, R159). -/
def State.countDropped (s : State) (p n : Nat) : State := if n = 0 then s else s.countPort .sat Reg.CQ_STAT_RDROP p n

/-- Replies and flow characters not yet started are dropped (R140); the counts of their matches no longer wait for their records
(R216). -/
def State.dropReplies (s : State) (p : Nat) : State :=
  let gone := (s.port p).replies
  let s := gone.foldl (fun s r => s.rewait r.uid r.before) s
  (s.modPort p (fun x => { x with replies := [], flowDue := [] })).countDropped p gone.length

/-- RSTAMP of a reply's record: the observed start of its first character, else 0 (R161). -/
def Sending.rstamp (sd : Sending) : Stamp := sd.observed.getD 0

/-- The level changes after the start edge of the character on the line go out, with their launch stamps (R133): all of
them, or those before it was cut. -/
def State.emitFrame (s : State) (p : Nat) (cut : Option Stamp) : State :=
  match (s.port p).line with
  | none => s
  | some (v, t, _, bit) =>
    let es := (((s.port p).lineSet.edges v t bit).drop 1).filter (fun e => cut.all (fun c => sLe e.1 c))
    es.foldl (fun s e => s.emit (.pinLevel (txPin p) ((s.pin (txPin p)).outLevel e.2) e.1)) s

/-- The job in progress ends: a descriptor completes with a status, a reply writes its CUE record (R140, R161). -/
def State.endJob (s : State) (p status cause : Nat) : State :=
  match (s.port p).sending with
  | none => s
  | some sd =>
    match sd.job with
    | .desc d => (s.txDone p d status cause (some sd)).modPort p (fun x => { x with sending := none })
    | .reply r =>
      let (u, s) := s.cueRecord p r.rule 1 r.late sd.heldByFlow 0 sd.sent sd.rstamp r.matched r.partner r.seq (some r.uid)
      let s := if u.isSome then s else s.rewait r.uid r.before
      (s.modPort p (fun x => { x with sending := none })).settle

/-- Every queued descriptor completes with a status (R140). -/
def State.endQueue (s : State) (p status : Nat) : State :=
  let q := (s.port p).queue
  q.foldl (fun s d => s.txDone p d status 0 none) (s.modPort p (fun x => { x with queue := [], launchAt := none, launchOk := false }))

/-- The transmitter stops at this edge (R140): the job in progress and the queue complete with a status, replies are
dropped. A character in flight is cut. -/
def State.stopTx (s : State) (p status : Nat) (into : TxState) : State :=
  let s := s.emitFrame p (some s.stamp)
  let s := s.modPort p (fun x => { x with ahead := none, replies := x.waiting })
  let s := (s.endJob p status 0).endQueue p status
  (s.dropReplies p).modPort p (fun x =>
    { x with tx := into, stopAfter := none, flowFlight := none, launchAt := none, launchOk := false })

/-- The transmitter enters IDLE from OFF or STARVED: the flow decision is compared with what was sent (R144). -/
def State.startTx (s : State) (p : Nat) : State :=
  let set := s.portPalette p
  s.modPort p (fun x =>
    let x : Port := { x with tx := .idle, txSet := set, txPalWaits := false, markFrom := s.now + 4, stopAfter := none }
    { x with flowDue := x.flowWanted.toList })

end Sys2Proof.Machine
end

