-- ==== Sys2Proof/Machine/Lanes.lean ====
section
/-!
DEFINITION. Decoding (03_receive.md R72 to R82, R87, R88): a frame's bits, flags and offsets from the transitions after its
start, the score and refinement of a lane, the tracker's update, and how a port's receive side starts and stops. Periods
are in units of 2^-16 tick; offsets of bit centres are counted in quarter bits.
-/
namespace Sys2Proof.Machine

/-! ### One transition -/


/-- The event is a transition to mark, to space, under these settings (R65). -/
def PinEvent.toMark (x : Settings) (e : PinEvent) : Bool := !e.glitch && e.high != x.inverted
def PinEvent.toSpace (x : Settings) (e : PinEvent) : Bool := !e.glitch && e.high == x.inverted

/-- At least one bit period of mark before a start (R74): always when the line stands at mark since its level was taken. -/
def PinEvent.longMark (period : Nat) (e : PinEvent) : Bool :=
  match e.prev with
  | none => true
  | some a => decide ((period : Int) ≤ sDiff a e.t * 65536)

/-! ### A frame -/

/-- Quarter bits from the start to the centre of data or parity bit i, and to the stop-bit centres (R74). -/
def dataCentre (i : Nat) : Nat := 4 * i + 6
def Settings.stopCentres (x : Settings) : List Nat :=
  let c := 4 * (1 + x.data + x.parityBits) + 2
  match x.stop with | 0 => [c] | 1 => [c, c + 3] | _ => [c, c + 4]
def Settings.lastCentre (x : Settings) : Nat := x.stopCentres.getLast?.getD 0

/-- `a` quarter bits after t0 lie at or after instant t (both sides in 2^-18 tick). -/
def reached (period : Nat) (t0 : Stamp) (a : Nat) (t : Stamp) : Bool :=
  decide (sDiff t0 t * 262144 ≤ (a * period : Int))

/-- The line is at mark `a` quarter bits after the start: the new level from a transition's instant on (R73). -/
def Frame.markAt (x : Settings) (period : Nat) (f : Frame) (a : Nat) : Bool :=
  (f.evs.filter (fun e => !e.glitch && reached period f.t0 a e.t)).getLast?.any (fun e => e.toMark x)

/-- That centre lies between the two crossings of a transition or inside a glitch (R73). -/
def Frame.noiseAt (period : Nat) (f : Frame) (a : Nat) : Bool :=
  f.evs.any (fun e =>
    decide (sDiff f.t0 e.s1 * 262144 < (a * period : Int)) && decide ((a * period : Int) < sDiff f.t0 e.s2 * 262144))

/-- Ticks from a frame's start to a transition. -/
def Frame.offset (f : Frame) (e : PinEvent) : Nat := (e.t - f.t0).toNat

/-- n_k of a transition (R79): its offset in bit periods, rounded. -/
def bitIndex (period d : Nat) : Nat := roundDiv (d * 65536) period

/-- |e_k| of a transition in units of 2^-16 tick: times 1/P, in bits (R79). -/
def bitError (period d : Nat) : Nat := ((d * 65536 : Int) - (bitIndex period d * period : Int)).natAbs

/-- The transitions a character scores: those up to its last stop-bit centre, or up to the return to mark that completes a
held one (R75, R77, R79). -/
def Frame.scored (x : Settings) (period : Nat) (f : Frame) : List PinEvent :=
  f.evs.filter (fun e => !e.glitch && (f.held || reached period f.t0 x.lastCentre e.t))

/-- Events after the last stop-bit centre: they belong to what follows the character. -/
def Frame.leftover (x : Settings) (period : Nat) (f : Frame) : List PinEvent :=
  f.evs.filter (fun e => !reached period f.t0 x.lastCentre e.t)

/-- The stamp at which the last stop-bit centre lies, rounded up to a whole tick (R75). -/
def Frame.centre (x : Settings) (period : Nat) (f : Frame) : Stamp :=
  f.t0 + ticks ((x.lastCentre * period + 262143) / 262144)

/-- The bits of a frame: data, and the parity bit at mark. -/
def Frame.dataBits (x : Settings) (period : Nat) (f : Frame) : BitVec 9 :=
  (List.range x.data).foldl (fun a i =>
    if f.markAt x period (dataCentre i) then
      a ||| (1#9 <<< (if x.msbFirst then x.data - 1 - i else i))
    else a) 0

/-- The parity bit disagrees (R75). -/
def parityWrong (x : Settings) (d : BitVec 9) (par : Bool) : Bool :=
  match x.parity with
  | 0 => false
  | 1 => (ones d + par.toNat) % 2 != 0
  | 2 => (ones d + par.toNat) % 2 != 1
  | 3 => !par
  | _ => par

/-- The decoding of a frame at its stop-bit check (R73, R75, R79), by the tracker with NOISE beyond 0.375 bit (R88). -/
def Frame.decode (x : Settings) (period : Nat) (track : Bool) (f : Frame) : Chr :=
  let d := f.dataBits x period
  let par := f.markAt x period (dataCentre x.data)
  let errs := (f.scored x period).map (fun e => bitError period (f.offset e))
  let worst := errs.foldl max 0
  let centres := (List.range (x.data + x.parityBits)).map dataCentre ++ x.stopCentres
  { stamp := f.stamp, t0 := f.t0, centre := f.centre x period, data := d,
    fe := x.stopCentres.any (fun a => !f.markAt x period a),
    pe := parityWrong x d par,
    noise := centres.any (f.noiseAt period) || (track && decide (3 * period < 8 * worst)),
    misfit := roundDiv (256 * worst) (max 1 period), wide := !track && decide (period < 4 * worst), markFrom := f.markFrom }

/-- Data, parity and stop bits all read space (R77). -/
def Frame.allSpace (x : Settings) (period : Nat) (f : Frame) : Bool :=
  (((List.range (x.data + x.parityBits)).map dataCentre ++ x.stopCentres).all (fun a => !f.markAt x period a))

/-- Space has been held for F_b + 1 bit periods by instant t (R76). -/
def breakBy (x : Settings) (period : Nat) (t0 t : Stamp) : Bool :=
  decide (((x.frame2 + 2) * period : Int) ≤ sDiff t0 t * 131072)

/-- The instant at which it has, rounded up to a whole tick. -/
def breakAt (x : Settings) (period : Nat) (t0 : Stamp) : Stamp :=
  t0 + ticks (((x.frame2 + 2) * period + 131071) / 131072)

/-- A clean character (R79). -/
def Chr.clean (c : Chr) : Bool := !c.fe && !c.pe && !c.noise && !c.wide

/-- The last transition with n_k of 1 or more: its offset and index (R81, R87). -/
def Frame.lastIndexed (x : Settings) (period : Nat) (f : Frame) : Option (Nat × Nat) :=
  (((f.scored x period).map (fun e => (f.offset e, bitIndex period (f.offset e)))).filter (fun a => 1 ≤ a.2)).getLast?

/-! ### A decoder -/

/-- Keep a period in limits. -/
def clampTo (lo hi p : Nat) : Nat := max lo (min hi p)

/-- A decoder takes a start transition (R74). -/
def Decoder.begin_ (d : Decoder) (e : PinEvent) : Decoder :=
  { d with cur := some { t0 := e.t, stamp := e.s1, markFrom := e.prev }, sawMark := false }

/-- An event reaches a decoder that is not completing a held character: it belongs to the frame in progress, or may start
one (R74). -/
def Decoder.feed (x : Settings) (d : Decoder) (e : PinEvent) : Decoder :=
  match d.cur with
  | some f => { d with cur := some { f with evs := f.evs ++ [e] } }
  | none => if e.toSpace x && (d.sawMark || e.longMark d.period) then d.begin_ e else d

/-- A lane refines its period from the last indexed transition of a clean character, within its sub-band (R81). -/
def Decoder.refine (x : Settings) (i : Nat) (d : Decoder) (f : Frame) : Decoder :=
  match f.lastIndexed x d.period with
  | none => d
  | some (t, n) =>
    { d with period := clampTo (x.laneMin i) (x.laneMax i) (roundDiv (d.period * n + t * 65536) (2 * n)), start := none }

/-- A lane completes a character (R79 to R81): run and M, the refined period. -/
def Decoder.score (x : Settings) (i : Nat) (d : Decoder) (f : Frame) (c : Chr) : Decoder :=
  if c.clean then { d.refine x i f with run := d.run + 1, m := d.m + c.misfit, done := d.done ++ [c] }
  else { d with run := 0, m := 0, done := d.done ++ [c] }

/-- The tracker's update after a confirmed character (R87): P + e_L P / (4 n_L), where e_L P is t - n P, rounded as a whole. -/
def trackUpdate (x : Settings) (period : Nat) (f : Frame) (c : Chr) : Nat :=
  if c.fe || c.noise then period else
  match f.lastIndexed x period with
  | none => period
  | some (t, n) => clampTo x.trackMin x.trackMax (roundDiv (3 * n * period + t * 65536) (4 * n))

/-- A lane's held character completes at the return to mark, with FE and not clean (R77). -/
def Decoder.laneReturn (x : Settings) (i : Nat) (d : Decoder) (e : PinEvent) : Decoder :=
  match d.cur with
  | none => d
  | some f =>
    let f := { f with evs := f.evs ++ [e] }
    { (d.score x i f (f.decode x d.period false)) with cur := none, sawMark := false }

/-- What follows a check of a lane that holds a character: events behind its last centre may already show the return to
mark (R77). -/
def Decoder.settle (x : Settings) (i : Nat) (d : Decoder) (e : PinEvent) : Decoder :=
  if (d.cur.map (·.held)).getD false && e.toMark x then d.laneReturn x i e else d.feed x e

/-- The check of a lane: hold an all-space character, else complete the character and hand what follows to the search for
the next start (R77, R79). -/
def Decoder.laneCheck (x : Settings) (i : Nat) (d : Decoder) : Decoder :=
  match d.cur with
  | none => d
  | some f =>
    let after := f.leftover x d.period
    if f.allSpace x d.period then
      after.foldl (Decoder.settle x i)
        { d with cur := some { f with held := true, evs := f.evs.filter (fun e => !after.contains e) } }
    else
      let c := f.decode x d.period false
      let d := { (d.score x i f c) with cur := none, sawMark := !c.fe }
      after.foldl (Decoder.feed x) d

/-- Lane i is completing a held character when this event comes. -/
def Decoder.holds (d : Decoder) : Bool := (d.cur.map (·.held)).getD false

/-! ### Ranking (R82) -/

/-- Distance of a lane's period from the nominal, |PL_PERIOD / (16 P) - 1|, as a fraction: of a starting period it is that of
the hypothesis, |x_i| / 100, before any rounding. -/
def Settings.distance (x : Settings) (d : Decoder) : Nat × Nat :=
  match d.start with
  | some a => (a, 100 * x.lanes)
  | none => (((x.nominal : Int) - (d.period : Int)).natAbs, d.period)

/-- Lane a ranks above lane b. -/
def ranksAbove (x : Settings) (a b : Nat × Decoder) : Bool :=
  if a.2.run ≠ b.2.run then decide (b.2.run < a.2.run)
  else if a.2.m ≠ b.2.m then decide (a.2.m < b.2.m)
  else
    let da := (x.distance a.2).1 * (x.distance b.2).2
    let db := (x.distance b.2).1 * (x.distance a.2).2
    if da ≠ db then decide (da < db) else decide (a.1 < b.1)

/-- The highest-ranked of some lanes. -/
def topLane (x : Settings) (l : List (Nat × Decoder)) : Option (Nat × Decoder) :=
  l.foldl (fun b a => match b with | none => some a | some c => if ranksAbove x a c then some a else some c) none

def numbered (l : List Decoder) : List (Nat × Decoder) := l.mapIdx (fun i d => (i, d))

/-! ### Starting and stopping a receive side -/

/-- A full set of lanes (R78) and the first leader (R82). -/
def freshAcq (x : Settings) (sel : Option Nat) (last : Option Stamp) (now : Nat) : Acquisition :=
  let lanes := (List.range x.lanes).map (fun i =>
    ({ period := x.laneStart i, start := some (x.rangeA * (2 * i + 1 - x.lanes : Int).natAbs) } : Decoder))
  { lanes := lanes, leader := ((topLane x (numbered lanes)).map (·.1)).getD 0, provSel := sel,
    provEnd := last, began := now }

/-- The tracker as it starts under a direct entry: period PL_PERIOD, no character, no mark seen (R68, R90). -/
def freshTracker (x : Settings) : Decoder := { period := x.nominal }

/-- Start afresh under the settings in force (R70, R71, R90, R96): the tracker for a direct entry, else a set of lanes. The run of
framing errors starts at 0, under a direct entry too (log entry 94). -/
def Port.restart (x : Port) (now : Nat) : Port :=
  let x : Port := { x with setOld := none }
  if x.set.direct then
    { x with rx := .track, acq := none, trk := freshTracker x.set, feRun := 0, breaking := none, meter := {} }
  else
    { x with rx := .acq, acq := some (freshAcq x.set x.sel x.lastFrameEnd now), trk := {}, feRun := 0, breaking := none, meter := {} }

/-- The receive side starts from its configured state (R96): no partner selected, windows of the palette taken; it stands
HELD while the octant is not in RUN (R93). -/
def State.startRx (s : State) (p : Nat) : State :=
  let s := s.modPort p (fun x =>
    ({ x with set := s.portPalette p, palWaits := false, sel := none, lastFrameEnd := none, reacqHeld := false,
              replay := false, replayEnd := none } : Port).restart s.now)
  let s := s.modPin (rxPin p) (fun q => { q with fresh := 0, isOver := false, lost := 0 })
  let s := if s.pinRuns (rxPin p) then s else s.modPort p (fun x => { x with rxHeld := x.rx, rx := .held })
  s.setRts p

/-- The receive side stops (R96): the acquisition is abandoned, a character in progress goes without a record, the meter's
gate is discarded. -/
def State.stopRx (s : State) (p : Nat) (into : RxState) : State :=
  ((s.abandon p).modPort p (fun x =>
    { x with rx := into, rxHeld := .off, trk := {}, acq := none, breaking := none, meter := {}, palWaits := false,
             setOld := none, reacqHeld := false, replay := false, replayEnd := none })).setRts p

end Sys2Proof.Machine
end

