-- ==== Sys2Proof/Machine/Stations.lean ====
section
/-!
DEFINITION. Stations, pin functions and levels (11_stations_levels.md): who owns a pin (R331 to R334), pads and switching
(R335 to R342), reading the pad (R343 to R346), level groups and span changes (R347 to R354), the checks, effects and
views of the ST_ registers, and the commands that are its own events.
-/
namespace Sys2Proof.Machine

/-! ### Requests to an octant -/

/-- A request for RUN (R435), with the cause that PW_OCTSTAT_LASTCAUSE codes; an octant in RUN needs none. -/
def State.wakeOct (s : State) (o cause : Nat) : State :=
  let x := s.oct o
  if x.state = .run ∧ x.entering = none then s
  else if x.wakeAt.isSome then s
  else s.setOct o { x with wakeAt := some (s.now, cause), entering := if x.since = s.now then none else x.entering }

/-- Activity of an octant restarts its timers (R434). -/
def State.octActive (s : State) (o : Nat) : State := s.modOct o (fun x => { x with activeAt := s.now })

/-! ### Ownership -/

/-- The flow mode of a port's palette: as in force while it receives, else as its entry reads (R142, R162, R331). -/
def State.portFlow (s : State) (p : Nat) : Nat :=
  let x := s.port p
  if x.rxIdle then (s.portPalette p).flow else x.set.flow

/-- A contact unit claims a pin: attached to it, or opening its switch on it (R381, R382). -/
def State.cuClaims (s : State) (i q : Nat) : Bool :=
  s.rd Reg.CU_ATTACH_PIN i == q && (s.on Reg.CU_ATTACH_EN i || (s.cu i).opening)

/-- The claim of code 7 on a pin, by one of its octant's two units (R331, R380). -/
def State.cuPin (s : State) (q : Nat) : Bool :=
  s.cuClaims (2 * octOfPin q) q || s.cuClaims (2 * octOfPin q + 1) q

/-- RTS and CTS of port A of a station are claimed; they are starved when a unit holds one of their pins (R331, R332). -/
def State.flowClaim (s : State) (st : Nat) : Bool :=
  (s.on Reg.PT_RXCFG_EN (2 * st) || s.on Reg.PT_TXCFG_EN (2 * st)) && s.portFlow (2 * st) == 1
def State.flowStarved (s : State) (st : Nat) : Bool :=
  s.flowClaim st && (s.cuPin (4 * st + 2) || s.cuPin (4 * st + 3))
def State.flowHeld (s : State) (st : Nat) : Bool := s.flowClaim st && !s.flowStarved st

/-- ST_GPCFG_MODEk of a pin. -/
def State.gpMode (s : State) (q : Nat) : Nat := s.rd Reg.ST_GPCFG_MODE (q / 4) / 4 ^ (pinOf q) % 4

/-- The owner that R332 gives a pin, function by function in rank order. -/
def State.resolvedOwner (s : State) (q : Nat) : Owner :=
  let st := q / 4
  let k := pinOf q
  let gpio := match s.gpMode q with | 2 => Owner.gpioOut | 1 => .gpioIn | _ => .monitor
  if s.cuPin q then .cu
  else if s.flowHeld st ∧ k = 2 then .rts
  else if s.flowHeld st ∧ k = 3 then .cts
  else match k with
    | 0 => if s.on Reg.PT_TXCFG_EN (2 * st) && !s.flowStarved st then .tx else gpio
    | 1 => if s.on Reg.PT_RXCFG_EN (2 * st) && !s.flowStarved st then .rx else gpio
    | 2 => if s.on Reg.PT_TXCFG_EN (2 * st + 1) then .tx else gpio
    | _ => if s.on Reg.PT_RXCFG_EN (2 * st + 1) then .rx else gpio

/-- The functions of a pin's octant have taken their pins (R425), and its link has not failed (R13). -/
def State.pinsTaken (s : State) (q : Nat) : Bool :=
  decide (octOfPin q < s.boot.octTaken) && !(s.oct (octOfPin q)).failed

/-- The member's drivers of a pin's octant are enabled under its claim (R255). -/
def State.driverOn (s : State) (q : Nat) : Bool := decide (octOfPin q < s.hinge.drivers)

/-- GPIO input gains P3: the station source takes the pin's debounced level, with an edge when it differs (R273). -/
def State.gainInput (s : State) (q : Nat) : State :=
  if pinOf q = 3 then
    match (s.pin q).level with
    | some b =>
      if b != (s.pin q).srcIn && decide ((s.pin q).standsFrom b + 64 * s.rd Reg.CA_SDEB (1024 + q / 4) ≤ s.now) then
        s.stationInput (q / 4) b ((if b then (s.pin q).lastHigh else (s.pin q).lastLow).getD s.stamp)
      else s
    | none => s
  else s

/-- The old function loses the pin at switch edge W (R333, R339, R340). -/
def State.loseFunction (s : State) (q : Nat) : State :=
  match (s.pin q).owner with
  | .tx =>
    let p := txPortOf q
    if s.on Reg.PT_TXCFG_EN p then s.stopTx p 4 .starved
    else if ((s.port p).line).isSome then s.stopTx p 5 .off else s
  | .rx =>
    let p := rxPortOf q
    if s.on Reg.PT_RXCFG_EN p then s.stopRx p .starved else s
  | _ => s

/-- A contact unit obtains its pin at W (R381, R383): it closes its switch under a claim, else reads HELDOFF. -/
def State.cuGains (s : State) (q : Nat) : State :=
  let o := octOfPin q
  let i := if s.cuClaims (2 * o) q then 2 * o else 2 * o + 1
  s.modCu i (fun u =>
    { u with state := if s.driverOn q && !s.engagedShadow then .closing else .heldoff, swAt := s.now })

/-- The new function obtains the pin, from its configured state (R333, R334). -/
def State.gainFunction (s : State) (q : Nat) : State :=
  match (s.pin q).owner with
  | .tx => s.startTx (txPortOf q)
  | .rx => s.startRx (rxPortOf q)
  | .gpioIn => s.gainInput q
  | .cu => s.cuGains q
  | _ => s

/-- The level a pin drives now and the edge from which it stands: for a transmitter that of the bit on the line (R133), for a
keeper the level of the pad it follows (R335). -/
def State.drivenNow (s : State) (q : Nat) : Option Bool × Nat :=
  let x := s.pin q
  if x.pad = .keep then (x.level.or x.driven, x.drivenAt) else
  match (s.port (txPortOf q)).line with
  | some (v, t, _, bit) =>
    if x.owner = .tx ∧ x.driven.isSome then
      match (((s.port (txPortOf q)).txSet.edges v t bit).filter (fun e => sLe e.1 s.stamp)).getLast? with
      | some (u, b) => (some b, s.edgeOf u)
      | none => (x.driven, x.drivenAt)
    else (x.driven, x.drivenAt)
  | none => (x.driven, x.drivenAt)

/-- A pad that is to be held: out of DRIVE the hold latch takes the level the driver holds; an open drain that drives high is OFF
and stays so (R335, R340). -/
def State.held (s : State) (q : Nat) (x : Pin) : Pin :=
  if x.pad ≠ .drive then x else
  let l := s.drivenNow q
  if x.openDrain && l.1 == some true then { x with pad := .off, driven := none }
  else { x with pad := .hold, driven := l.1, drivenAt := l.2 }

/-- Switch a pin to its new owner at W, the present edge (R339, R340): the hold latch takes a driven level, the old function
stops; the new level follows 4 DCLK later. A contact unit has the driver off at once (R381). -/
def State.switchPin (s : State) (q : Nat) (new : Owner) : State :=
  let y := s.held q (s.pin q)
  let s := s.loseFunction q
  let s := s.modPin q (fun x =>
    { x with owner := new, switchWaits := false, switchAt := some s.now, drivenAt := y.drivenAt,
             pad := if new = .cu then .off else y.pad, driven := if new = .cu then none else y.driven })
  s.gainFunction q

/-- A transmitter holds the pin with a character in flight (R338, R339). -/
def State.inFlight (s : State) (q : Nat) : Bool :=
  (s.pin q).owner == .tx && ((s.port (txPortOf q)).line).isSome

/-- Resolve one pin: a change of owner switches at this edge, or waits for the character in flight unless ABRUPT is 1
(R339). A direction whose port is enabled and whose pin it does not hold reads STARVED (R333). -/
def State.resolvePin (s : State) (q : Nat) : State :=
  if !s.pinsTaken q then s else
  let new := s.resolvedOwner q
  let x := s.pin q
  let s :=
    if new = x.owner then (if x.switchWaits then s.setPin q { x with switchWaits := false } else s)
    else if s.inFlight q && !s.on (Reg.ST_PINCFG_ABRUPT.at (pinOf q)) (q / 4) then
      s.setPin q { x with switchWaits := true }
    else s.switchPin q new
  let s := if q % 2 = 0 ∧ s.on Reg.PT_TXCFG_EN (q / 2) ∧ (s.port (q / 2)).tx = .off ∧ (s.pin q).owner ≠ .tx then
      s.modPort (q / 2) (fun x => { x with tx := .starved }) else s
  if q % 2 = 1 ∧ s.on Reg.PT_RXCFG_EN (q / 2) ∧ (s.port (q / 2)).rx = .off ∧ (s.pin q).owner ≠ .rx then
    s.modPort (q / 2) (fun x => { x with rx := .starved }) else s

/-- Resolve the four pins of a station at this edge (R332). -/
def State.resolve (s : State) (st : Nat) : State :=
  (List.range 4).foldl (fun s k => s.resolvePin (4 * st + k)) s

/-! ### Pads -/

/-- The pad of a switched pin reaches its new state at W + 4 DCLK (R340): a driving owner commits its first level, with the
driver on under a claim and the keeper otherwise; a pad whose owner does not drive is OFF. -/
def State.landPin (s : State) (q : Nat) : State :=
  match s.ownerLevel q with
  | some b =>
    let on := s.driverOn q && !s.engagedShadow
    let s := s.modPin q (fun x =>
      { x with switchAt := none, pad := if on then .drive else .keep, driven := some b, drivenAt := s.now })
    if on then s.emit (.pinLevel q ((s.pin q).outLevel b) (s.ballStamp q)) else s
  | none => s.modPin q (fun x => { x with switchAt := none, pad := .off, driven := none })

/-- Engage the pad hold of an octant: every pad in DRIVE enters HOLD (R13, R19, R335, R435); without a claim its keeper
holds it (R256). -/
def State.holdOct (s : State) (o : Nat) : State :=
  { s with pins := s.pins.map (fun (q, x) => if octOfPin q = o then (q, s.held q x) else (q, x)) }

/-- The octant is back in RUN: its held pads follow the table of a switch with W this edge (R341), and open drains that were off
since they drove high; so do those that a keeper has held since before a takeover, when the drivers are enabled (R260). -/
def State.unholdOct (s : State) (o : Nat) : State :=
  { s with pins := s.pins.map (fun (q, x) =>
      if octOfPin q = o ∧ x.owner ≠ .monitor ∧ (x.pad = .hold ∨ (x.pad = .keep ∧ s.driverOn q) ∨
          (x.pad = .off ∧ x.openDrain ∧ (s.ownerLevel q).isSome)) then
        (q, { x with switchAt := some s.now })
      else (q, x)) }

/-- ST_PINCFGk takes effect at the pad (R336, R338). -/
def State.applyPinCfg (s : State) (q : Nat) (v : Word) : State :=
  let before := (s.pin q).driven.bind (s.pin q).outLevel
  let s := s.modPin q (fun x => { x with cfgNow := v, cfgWaits := none })
  let x := s.pin q
  match x.pad, x.driven with
  | .drive, some b => if x.outLevel b = before then s else s.emit (.pinLevel q (x.outLevel b) (s.ballStamp q))
  | _, _ => s

/-- A character of a transmitter has ended: a waiting ST_PINCFG write and a waiting switch take effect (R338, R339). -/
def State.afterFlight (s : State) (p : Nat) : State :=
  let q := txPin p
  let s := match (s.pin q).cfgWaits with | some v => s.applyPinCfg q v | none => s
  if (s.pin q).switchWaits then s.resolve (q / 4) else s

/-- The GPIO output level of a pin changes, by a write or a Cue action (R345). -/
def State.gpioOut (s : State) (q : Nat) (b : Bool) : State :=
  let st := q / 4
  let w := s.rd Reg.ST_GPCFG_OUT st
  let bit := 2 ^ (pinOf q)
  let w' := if b then w ||| bit else w - (w &&& bit)
  let s := s.wr Reg.ST_GPCFG_OUT w' st
  if (s.pin q).owner = .gpioOut then s.drive q b else s

/-! ### Level groups -/

/-- Pins of a level group (R347). -/
def groupPins (g : Nat) : List Nat := (List.range 64).map (· + 64 * g)

/-- The group is in a span change (R351). -/
def State.spanBusy (s : State) (g : Nat) : Bool := (s.group g).busyAt.isSome

/-- The zero code of a span (R348). -/
def zeroCode (span : BitVec 2) : BitVec 14 := if span = 3 then 0x0924 else 0

/-- The codes of a group's registers reach its DACs (R350, R352). -/
def State.loadCodes (s : State) (g : Nat) : State :=
  s.modGroup g (fun x =>
    { x with voh := BitVec.ofNat 14 (s.rd Reg.ST_LGVOH g), vol := BitVec.ofNat 14 (s.rd Reg.ST_LGVOL g),
             vthh := BitVec.ofNat 14 (s.rd Reg.ST_LGVTHH g), vthl := BitVec.ofNat 14 (s.rd Reg.ST_LGVTHL g) })

/-- A span change starts (R351, R352): pads in DRIVE or HOLD enter KEEP, samplers freeze; an open drain that drives high is OFF
(R335). Pads of a failed die stay in the hold that R13 engages. -/
def State.startSpan (s : State) (g : Nat) : State :=
  let s := (s.modGroup g (fun x => { x with busyAt := some s.now, step := 0, frozen := true })).wakeOct (g / 8) 6
  if (s.oct (g / 8)).failed then s else
  { s with pins := s.pins.map (fun (q, x) =>
      let y := s.held q x
      if groupOfPin q = g ∧ y.pad = .hold then (q, { y with pad := .keep }) else (q, x)) }

/-- The DACs of an octant's groups take their safe values (R28): the octant is DARK, or in reset. -/
def State.safeLevels (s : State) (o : Nat) : State :=
  (List.range 8).foldl (fun s k => s.modGroup (8 * o + k) (fun x =>
    { x with span := x.safe.span, voh := x.safe.voh, vol := x.safe.vol, vthh := x.safe.vthh, vthl := x.safe.vthl })) s

/-- The octant's groups have the span and codes of their registers again (R435). -/
def State.restoreLevels (s : State) (o : Nat) : State :=
  (List.range 8).foldl (fun s k =>
    let g := 8 * o + k
    if s.spanBusy g then s else
    (s.modGroup g (fun x => { x with span := BitVec.ofNat 2 (s.rd Reg.ST_LGCFG_SPAN g) })).loadCodes g) s

/-- A port, an armed monitor or an attached unit of the group forbids a span change (R351). -/
def State.groupInUse (s : State) (g : Nat) : Bool :=
  (List.range 32).any (fun j => s.on Reg.PT_RXCFG_EN (32 * g + j) || s.on Reg.PT_TXCFG_EN (32 * g + j)) ||
  s.mons.any (fun (q, m) => groupOfPin q == g && m.state != .off && m.state != .done) ||
  (List.range 16).any (fun i =>
    (s.on Reg.CU_ATTACH_EN i || (s.cu i).opening) && groupOfPin (s.rd Reg.CU_ATTACH_PIN i) == g)

/-! ### Register checks, effects and views -/

/-- Values the ST_ registers accept (R336, R355). -/
def stValue (w : Nat) (d : Word) : Bool :=
  match w with
  | 0x600 => d.toNat < 1024 || d.toNat == 0xFFFF
  | 0x601 | 0x602 | 0x603 | 0x604 => Reg.ST_PINCFG_PULL.get d != 3
  | 0x605 => (List.range 4).all (fun k => Reg.ST_GPCFG_MODE.get d / 4 ^ k % 4 != 3)
  | _ => true

/-- Relations the group is left in (R349). -/
def stCross (s : State) (g w : Nat) : Bool :=
  if 0x611 ≤ w ∧ w ≤ 0x614 then
    decide (s.rd Reg.ST_LGVOL g ≤ s.rd Reg.ST_LGVOH g) && decide (s.rd Reg.ST_LGVTHL g ≤ s.rd Reg.ST_LGVTHH g)
  else true

/-- Writes the state refuses (R338, R351). -/
def stState (s : State) (i w : Nat) (d : Word) : Bool :=
  if 0x610 ≤ w ∧ w ≤ 0x615 then
    !s.spanBusy i && (w != 0x610 || Reg.ST_LGCFG_SPAN.get d == s.rd Reg.ST_LGCFG_SPAN i || !s.groupInUse i)
  else if 0x601 ≤ w ∧ w ≤ 0x604 then
    !s.spanBusy (i / 16) && (s.pin (4 * i + (w - 0x601))).cfgWaits.isNone &&
      !(s.pin (4 * i + (w - 0x601))).switchWaits
  else if w = 0x605 ∨ w = 0x606 then !s.spanBusy (i / 16)
  else true

/-- What follows a stored word (R336, R338, R345, R350, R351). Codes of a burst with a span change are loaded by its
sequence. The ABRUPT bit written decides, and an octant that sleeps makes ST_PINCFG wait (DEDUCED, log entry 117). -/
def stApply (s : State) (i w : Nat) (old : Word) : State :=
  if 0x601 ≤ w ∧ w ≤ 0x604 then
    let q := 4 * i + (w - 0x601)
    let s := s.wakeOct (octOfPin q) 7
    let v := s.reg i w
    if s.inFlight q && Reg.ST_PINCFG_ABRUPT.get v == 0 then s.modPin q (fun x => { x with cfgWaits := some v })
    else if s.pinRuns q then s.applyPinCfg q v
    else s.modPin q (fun x => { x with cfgWaits := some v })
  else if w = 0x605 then
    let s := s.wakeOct (octOfPin (4 * i)) 7
    let s := s.resolve i
    (List.range 4).foldl (fun s k =>
      let q := 4 * i + k
      if (s.pin q).owner = .gpioOut then s.drive q ((s.rd Reg.ST_GPCFG_OUT i).testBit k) else s) s
  else if w = 0x610 then
    if Reg.ST_LGCFG_SPAN.get old = s.rd Reg.ST_LGCFG_SPAN i then s else s.startSpan i
  else if 0x611 ≤ w ∧ w ≤ 0x614 then
    if s.spanBusy i || (s.oct (i / 8)).state != .run then s else s.loadCodes i
  else s

/-- UNHOLD (R342): a pin in HOLD turns OFF. -/
def State.unhold (s : State) (q : Nat) : State :=
  if (s.pin q).pad = .hold then s.modPin q (fun x => { x with pad := .off, driven := none }) else s

def stAct (s : State) (i w : Nat) (d : Word) : State :=
  match w with
  | 0x60C =>
    if Reg.ST_CTL_UNHOLD.get d = 0 then s else
    (List.range 4).foldl (fun s k => if d.getLsbD k then s.unhold (4 * i + k) else s)
      (s.wakeOct (octOfPin (4 * i)) 7)
  | _ => s

/-- Codes of R331 and R335. -/
def Owner.code : Owner → Nat
  | .monitor => 0 | .gpioIn => 1 | .gpioOut => 2 | .rx => 3 | .tx => 4 | .cts => 5 | .rts => 6 | .cu => 7
def Pad.code : Pad → Nat
  | .off => 0 | .drive => 1 | .hold => 2 | .keep => 3

/-- The functions that claim a pin and are starved, one bit for each code (R333, R355). -/
def State.starvedBits (s : State) (q : Nat) : Nat :=
  if !s.pinsTaken q then 0 else
  let o := (s.pin q).owner
  let r := s.resolvedOwner q
  let st := q / 4
  let k := pinOf q
  let p := q / 2
  (if s.gpMode q = 1 ∧ o ≠ .gpioIn ∧ r ≠ .gpioIn then 1 else 0) + (if s.gpMode q = 2 ∧ o ≠ .gpioOut ∧ r ≠ .gpioOut then 2 else 0) +
  (if k % 2 = 1 ∧ s.on Reg.PT_RXCFG_EN p ∧ o ≠ .rx ∧ r ≠ .rx then 4 else 0) +
  (if k % 2 = 0 ∧ s.on Reg.PT_TXCFG_EN p ∧ o ≠ .tx ∧ r ≠ .tx then 8 else 0) +
  (if k = 3 ∧ s.flowClaim st ∧ o ≠ .cts ∧ r ≠ .cts then 16 else 0) + (if k = 2 ∧ s.flowClaim st ∧ o ≠ .rts ∧ r ≠ .rts then 32 else 0)

/-- ST_PINSTATk as it reads (R343, R344). No sampler runs before P (R425), and SAMPLE reads 3 for as long as BUSY is 1 (DEDUCED,
log entry 117). -/
def State.pinstat (s : State) (q : Nat) (v : Word) : Word :=
  let x := s.pin q
  let frozen := s.spanBusy (groupOfPin q)
  let level := (s.drivenNow q).1
  let pad := if x.pad = .drive && level == some true && x.openDrain then Pad.off else x.pad
  let drv := match pad, level with
    | .off, _ => 0
    | _, some true => 2
    | _, some false => 1
    | _, none => 0
  let smp := if !s.pinRuns q || !s.clk.once || frozen then 3 else match x.sample with | .low => 0 | .between => 1 | .high => 2
  let r := Reg.ST_PINSTAT_SWPEND.set v (if x.switchWaits || x.cfgWaits.isSome then 1 else 0)
  let r := Reg.ST_PINSTAT_PAD.set r pad.code
  let r := Reg.ST_PINSTAT_STARVED.set r (s.starvedBits q)
  let r := Reg.ST_PINSTAT_OWNER.set r x.owner.code
  Reg.ST_PINSTAT_SAMPLE.set (Reg.ST_PINSTAT_DRV.set r drv) smp

/-- Pins with a starved function, and pins with MISM set (R358). -/
def State.starvedPins (s : State) : List Nat := (List.range 4096).filter (fun q => s.starvedBits q != 0)
def State.mismCount (s : State) : Nat :=
  (s.regs.filter (fun (k, v) =>
    decide (0x608 ≤ k % 4096 ∧ k % 4096 ≤ 0x60B) && Reg.ST_PINSTAT_MISM.get v == 1)).length

/-- The views of the ST_ block. -/
def stView (s : State) (i w : Nat) (v : Word) : Word :=
  if w = 0x607 then
    BitVec.ofNat 32 (((List.range 4).map (fun k => if (s.pin (4 * i + k)).gpin then 2 ^ k else 0)).sum)
  else if 0x608 ≤ w ∧ w ≤ 0x60B then s.pinstat (4 * i + (w - 0x608)) v
  else if w = 0x615 then
    BitVec.ofNat 32 ((if s.spanBusy i then 256 else 0) + (s.group i).span.toNat)
  else if w = 0x6F0 then
    let l := s.starvedPins
    BitVec.ofNat 32 (min 15 s.mismCount * 2 ^ 28 + min 4095 l.length * 2 ^ 16 + (l.head?.getD 0xFFFF))
  else v

/-! ### The commands -/

/-- PIN_SWITCH (R340): 4 DCLK after W the pin's first level is committed, or the hold latch turns off. -/
def execPinSwitch (q : PinIx) (s : State) : Host.Outcome State Fault Refusal :=
  if !s.running then .next s else
  match (s.pin q.val).switchAt with
  | some w => if s.pinRuns q.val then .next ((s.advance (w + 4)).landPin q.val) else .next s
  | none => .next s

/-- MISMATCH_DETECT (R344): 64 DCLK of one driven level, then 64 samples of the opposite full level. -/
def execMismatchDetect (q : PinIx) (s : State) : Host.Outcome State Fault Refusal :=
  if !s.running then .next s else
  let x := s.pin q.val
  let driving := x.pad = .drive || (x.pad = .hold && s.driverOn q.val)
  let level := s.drivenNow q.val
  let opposite := match level.1 with
    | some true => x.sample == .low && !x.openDrain
    | some false => x.sample == .high
    | none => false
  if driving && opposite then
    let since := (x.history.getLast?.map (·.1)).getD 0
    let s := s.advance (max (level.2 + 64) since + 64)
    .next (s.wr (Reg.ST_PINSTAT_MISM.at (pinOf q.val)) 1 (q.val / 4))
  else .next s

/-- GPIN_CHANGE (R346): ST_GPIN follows after ST_GPDEB * 64 DCLK of samples at the new full level, in RUN. -/
def execGpinChange (q : PinIx) (level : Bool) (s : State) : Host.Outcome State Fault Refusal :=
  if !s.running then .next s else
  let x := s.pin q.val
  if s.pinRuns q.val && !(s.group (groupOfPin q.val)).frozen && x.level == some level && x.gpin != level then
    .next ((s.advance (x.standsFrom level + 64 * s.rd Reg.ST_GPDEB (q.val / 4))).modPin q.val (fun x => { x with gpin := level }))
  else .next s

/-- A step of a span change that follows step `n` at `at_` DCLK from A. -/
def State.spanStep (s : State) (g n at_ : Nat) (f : State → State) : State :=
  match (s.group g).busyAt with
  | some a =>
    if (s.group g).step = n then
      let s := f (s.advance (a + at_))
      s.modGroup g (fun x => { x with step := n + 1 })
    else s
  | none => s

/-- SPAN_OLD_ZERO (R352): at 1,600 DCLK the four DACs stand at the zero code of the old span. -/
def execSpanOldZero (g : Fin 64) (s : State) : Host.Outcome State Fault Refusal :=
  if !s.running then .next s else
  .next (s.spanStep g.val 0 1600 (fun s => s.modGroup g.val (fun x =>
    { x with voh := zeroCode x.span, vol := zeroCode x.span, vthh := zeroCode x.span, vthl := zeroCode x.span })))

/-- SPAN_APPLY (R352): at 4,800 DCLK the new span, at its zero code. -/
def execSpanApply (g : Fin 64) (s : State) : Host.Outcome State Fault Refusal :=
  if !s.running then .next s else
  .next (s.spanStep g.val 1 4800 (fun s => s.modGroup g.val (fun x =>
    let n := BitVec.ofNat 2 (s.rd Reg.ST_LGCFG_SPAN g.val)
    { x with span := n, voh := zeroCode n, vol := zeroCode n, vthh := zeroCode n, vthl := zeroCode n })))

/-- SPAN_CODES_LOAD (R352): at 6,400 DCLK the new codes. -/
def execSpanCodesLoad (g : Fin 64) (s : State) : Host.Outcome State Fault Refusal :=
  if !s.running then .next s else
  .next (s.spanStep g.val 2 6400 (fun s => s.loadCodes g.val))

/-- SPAN_CHANGE_END (R352): at 16,000 DCLK kept pads return to DRIVE at the new levels of their logic level, and BUSY
clears. -/
def execSpanChangeEnd (g : Fin 64) (s : State) : Host.Outcome State Fault Refusal :=
  if !s.running then .next s else
  .next (s.spanStep g.val 4 16000 (fun s =>
    let s : State := { s with pins := s.pins.map (fun (q, (x : Pin)) =>
      if groupOfPin q = g.val ∧ x.pad = Pad.keep ∧ s.driverOn q ∧ !s.engagedShadow ∧ !(s.oct (octOfPin q)).failed then
        (q, { x with pad := Pad.drive })
      else (q, x)) }
    (s.modGroup g.val (fun x => { x with busyAt := none })).octActive (g.val / 8)))

end Sys2Proof.Machine
end

