-- ==== Sys2Proof/Machine/Monitor.lean ====
section
/-!
DEFINITION. Line monitors and Canvas capture (12_line_monitor.md): conditions and triggers (R359 to R361), monitor states
(R362 to R364), segments (R365 to R367), admission (R368), upload (R369 to R373), the checks, effects and views of the LM_
registers, and the commands that are its own events.
-/
namespace Sys2Proof.Machine

/-- Armed: ARMING, ARMED, CAPTURE or REARM (R362). -/
def Monitor.armed (m : Monitor) : Bool := m.state != .off && m.state != .done

/-- DCLK between grid samples of a rate, and the budget units a capture at it costs (R365, R368). -/
def gridOf (rate : Nat) : Nat := 4 ^ rate
def unitsOf (rate : Nat) : Nat := 64 / 4 ^ rate

/-- Budget units in use: those of captures not yet complete (R368). -/
def State.unitsUsed (s : State) : Nat :=
  ((s.segments.filter (fun g => g.samples.isNone)).map (fun g => unitsOf g.rate)).sum

/-! ### Conditions -/

/-- A condition met: its code, stamp and measured quantity (R359, R360). -/
abbrev Met := Nat × Stamp × Nat

/-- RUNT, SLEW and WIDTH on an event of the edge extractor (R359). -/
def State.eventConditions (s : State) (q : Nat) (e : PinEvent) : List Met :=
  let m := s.mon q
  let span := (e.s2 - e.s1).toNat
  let runt := e.glitch && (s.rd Reg.LM_COND_RUNT q).testBit (if e.high then 1 else 0)
  let slew := !e.glitch && (s.rd Reg.LM_COND_SLEW q).testBit (if e.high then 0 else 1) &&
    decide (s.rd Reg.LM_SLEWMAX q < span)
  let width := match e.prev with
    | some a => (a, (e.t - a).toNat)
    | none => (0, 0)
  let wide := !e.glitch && e.prev.isSome && sLe m.armedStamp width.1 &&
    (s.rd Reg.LM_COND_WPOL q).testBit (if e.high then 1 else 0) &&
    (decide (width.2 < s.rd Reg.LM_WMIN q) ||
     (s.rd Reg.LM_WMAX q != 0xFFFFFFFF && decide (s.rd Reg.LM_WMAX q < width.2)))
  (if runt then [(2, e.s2, span)] else []) ++ (if slew then [(3, e.s2, span)] else []) ++
    (if wide then [(4, e.t, width.2)] else [])

/-- Two triggers of one pin at one edge are one (R360): every condition, and the named cause that comes first. -/
def Trigger.join (a b : Trigger) : Trigger :=
  { (if b.cause < a.cause then b else a) with mask := a.mask ||| b.mask }

/-- One trigger from the conditions met at a DCLK edge (R360), in a monitor that is ARMED; met anywhere else, or while a trigger
is on its way to admission, they start nothing and count once in LM_CNT_MISSED (R362). DETAIL saturates (log entry 111). A
shadow's own samples trigger nothing (R374). -/
def State.trigger (s : State) (q edge : Nat) (met : List Met) : State :=
  match met with
  | [] => s
  | (code, stamp, detail) :: _ =>
    if s.shadowing || !s.pinRuns q then s else
    let m := s.mon q
    let mask := (met.map (fun c => 2 ^ (c.1 - 1))).sum
    let t : Trigger := ⟨q, edge, stamp, code, BitVec.ofNat 8 mask, BitVec.ofNat 32 (min detail 0xFFFFFFFF)⟩
    let joined := match m.trig with
      | none => some t
      | some u => if u.edge = edge then some (u.join t) else none
    match (if m.state = .armed then joined else none) with
    | some t => s.setMon q { m with trig := some t, toFrom := edge, toOut := false, lastCause := t.cause, lastStamp := t.stamp }
    | none => s.incSat Reg.LM_CNT_MISSED q

/-- The stamp of a TIMEOUT or FORCE: C(N) less IN_PATH (R359). -/
def State.samplerStamp (s : State) (q : Nat) : Stamp := s.c - ticks (s.rd Reg.TB_PINPATH_IN_PATH q)

/-! ### Arming -/

/-- The Canvas bytes of two allocations overlap (R363). -/
def State.allocOverlap (s : State) (q r : Nat) : Bool :=
  let a := s.rd Reg.LM_ALLOC_BASE q
  let b := s.rd Reg.LM_ALLOC_BASE r
  decide (a < b + s.rd Reg.LM_ALLOC_SIZE r) && decide (b < a + s.rd Reg.LM_ALLOC_SIZE q)

/-- The checks of an arm, in order (R363). -/
def State.armCode (s : State) (q : Nat) : Code :=
  if (s.mon q).armed || !s.on Reg.LM_UPCFG_EN || s.spanBusy (groupOfPin q) || s.tb.calAt.isSome then Code.state
  else if s.rd Reg.LM_ALLOC_SIZE q * 65536 < 2 ^ s.rd Reg.LM_SEG_LOG2 q * s.rd Reg.LM_SEG_COUNT q ∨
      262144 < s.rd Reg.LM_ALLOC_BASE q + s.rd Reg.LM_ALLOC_SIZE q ∨
      s.mons.any (fun x => x.1 != q && x.2.armed && s.allocOverlap q x.1) then Code.value
  else Code.ok

/-- Stack 1 is requested (R431). -/
def State.mem1Wanted (s : State) : Bool := s.mons.any (fun x => x.2.armed)

/-- A request to stack 1, or a permission that makes its state too deep, starts its return (R431, R446). -/
def State.askMem1 (s : State) : State :=
  let p := s.power
  if p.mem1 != .run && p.wake1.isNone && (s.mem1Wanted || decide (s.rd Reg.PW_MEMCFG_MAXST1 < p.mem1.code)) then
    { s with power := { p with wake1 := some s.now } }
  else s

/-- An access of stack 1, which restarts its timers, and the request it may be (R431). -/
def State.touchMem1 (s : State) : State := ({ s with power := { s.power with mem1At := s.now } } : State).askMem1

/-- An accepted arm (R362): ARMING, with requests to the octant and MEM1. Segments go on after the last one taken (DESIGN CHOICE,
log entry 111). -/
def State.arm (s : State) (q : Nat) : State :=
  ((s.modMon q (fun m =>
    { m with state := .arming, disPend := false, taken := 0, trig := none,
             next := m.next % max 1 (s.rd Reg.LM_SEG_COUNT q) })).wakeOct (octOfPin q) 4).touchMem1

/-- A monitor that is no longer armed holds its octant no longer, and the timers of the octant start (R432, R434; log entry
30). -/
def State.monRests (before s : State) (q : Nat) : State :=
  if (before.mon q).armed && !(s.mon q).armed then (s.octActive (octOfPin q)).touchMem1 else s

/-- DISARM (R362). -/
def State.disarm (s : State) (q : Nat) : State :=
  s.monRests (s.modMon q (fun m =>
    match m.state with
    | .capture => { m with disPend := true }
    | .arming | .armed | .rearm => { m with state := .off, trig := none }
    | _ => m)) q

/-- FORCE at this edge (R359, R363). -/
def State.force (s : State) (q : Nat) : State := s.trigger q s.now [(5, s.samplerStamp q, 0)]

/-! ### Records and segments -/

/-- A CAPTURE record (R370) in the capture ring; its SEQ it takes when it is issued. -/
def State.captureRecord (s : State) (base : Stamp) (q status cause mask rate segidx aofs len skip : Nat) (pseq : Word)
    (lostseg detail : Nat) : Nat × State :=
  s.form
    { uid := 0, ring := s.rd Reg.LM_UPCFG_RING, type := .capture, partner := 3, base := base,
      body := .raw (leBytes 2 q ++ [BitVec.ofNat 8 status, BitVec.ofNat 8 cause, BitVec.ofNat 8 mask, BitVec.ofNat 8 rate] ++
        leBytes 2 segidx ++ leBytes 8 aofs ++ leBytes 4 len ++ leBytes 4 skip ++ leBytes 4 pseq.toNat ++
        leBytes 4 lostseg ++ leBytes 4 detail) }

/-- The three-state sample of a pin at a DCLK edge, from its history (R365). -/
def Pin.sampleAt (x : Pin) (n : Nat) : Sample :=
  ((x.history.filter (fun h => h.1 ≤ n)).getLast?.map (·.2)).getD .between

def Sample.code : Sample → BitVec 2
  | .low => 0 | .between => 1 | .high => 2

/-- Samples of a segment in order; those from the cut on read 3 (R367, R371). -/
def State.segSamples (s : State) (g : Segment) : List (BitVec 2) :=
  let d := gridOf g.rate
  (List.range (g.preA + g.post)).map (fun i =>
    let n := g.grid + i * d - g.preA * d
    if g.cutAt.any (fun c => decide (c ≤ n)) then 3 else ((s.pin g.trig.pin).sampleAt n).code)

/-- Four two-bit samples to a byte, sample i at bits [2(i mod 4)+1:2(i mod 4)] (R367). -/
def packSamples : List (BitVec 2) → List Byte
  | a :: b :: c :: d :: t =>
    BitVec.ofNat 8 (a.toNat + 4 * b.toNat + 16 * c.toNat + 64 * d.toNat) :: packSamples t
  | [] => []
  | [a] => [BitVec.ofNat 8 a.toNat]
  | [a, b] => [BitVec.ofNat 8 (a.toNat + 4 * b.toNat)]
  | [a, b, c] => [BitVec.ofNat 8 (a.toNat + 4 * b.toNat + 16 * c.toNat)]

/-- The bytes of a segment (R367). -/
def Segment.bytes (g : Segment) : List Byte :=
  let sfl := (if g.preA < g.lmPre then 1 else 0) + (if g.cutAt.isSome then 2 else 0)
  padTo (2 ^ g.log2)
    (leBytes 2 g.trig.pin ++ [BitVec.ofNat 8 g.rate, BitVec.ofNat 8 g.trig.cause, g.trig.mask, BitVec.ofNat 8 sfl] ++
     leBytes 2 g.index ++ leBytes 8 g.trig.stamp.toNat ++ leBytes 4 g.preA ++ leBytes 4 g.post ++
     leBytes 8 g.first.toNat ++ leBytes 4 g.pseq.toNat ++ leBytes 4 g.trig.detail.toNat ++ List.replicate 24 0 ++
     packSamples (g.samples.getD []))

/-- What names a segment: its pin and capture number. -/
def Segment.key (g : Segment) : Nat × Word := (g.trig.pin, g.pseq)

/-- Free bytes of the upload area (R369). -/
def State.upSize (s : State) : Nat := 2 ^ s.rd Reg.LM_UPCFG_LOG2
def State.upFree (s : State) : Nat := s.upSize - (s.extents.map (·.bytes)).sum

/-- Give an extent to one segment (R369), when the area has room. -/
def State.extentFor (s : State) (g : Segment) : Option State :=
  let len := 2 ^ g.log2
  let skip := if s.upSize < s.upHead + len then s.upSize - s.upHead else 0
  let at_ := if s.upSize < s.upHead + len then 0 else s.upHead
  if len + skip ≤ s.upFree then
    some { s with upHead := at_ + len, extents := s.extents ++ [{ bytes := len + skip, owner := g.key }],
                  segments := s.segments.map (fun x => if x.key = g.key then { x with extent := some (at_, skip) } else x) }
  else none

/-- Give extents in admission order until the area lacks room (R369). -/
def State.giveExtents (s : State) : State :=
  ((s.segments.filter (fun g => g.extent.isNone)).foldl (fun (a : Bool × State) g =>
    if a.1 then match a.2.extentFor g with
      | some s => (true, s)
      | none => (false, a.2)
    else a) (true, s)).2

/-- A monitor leaves CAPTURE when its segment is complete (R362). -/
def State.afterCapture (s : State) (q : Nat) : State :=
  s.monRests (s.modMon q (fun m =>
    if m.state ≠ .capture then m
    else if m.disPend then { m with state := .off, disPend := false }
    else if !s.on Reg.LM_CAP_CONT q && decide (s.rd Reg.LM_SEG_COUNT q ≤ m.taken) then { m with state := .done }
    else { m with state := .rearm, rearmAt := s.now })) q

/-- Complete a segment: its samples stand in the Canvas. -/
def State.completeSegment (s : State) (g : Segment) : State :=
  let smp := s.segSamples g
  ({ s with segments := s.segments.map (fun x => if x.key = g.key then { x with samples := some smp } else x) } : State).touchMem1

/-- The primary reports an arm-state change (R374). -/
def State.reportArm (s : State) (q : Nat) : State :=
  if s.mirrors then s.emit (.hinge (.armState q (s.mon q).state (s.mon q).next)) else s

/-- Captures cut off by R13 or R19 in pins of a predicate: completed with the samples that follow at 3, monitors OFF (R362,
R371). -/
def State.cutCaptures (s : State) (p : Nat → Bool) : State :=
  let s : State := { s with segments := s.segments.map (fun g =>
    if p g.trig.pin && g.samples.isNone then { g with cutAt := some s.now } else g) }
  let s := (s.segments.filter (fun g => p g.trig.pin && g.samples.isNone)).foldl State.completeSegment s
  (s.mons.filter (fun x => p x.1 && x.2.armed)).foldl (fun s x =>
    (s.modMon x.1 (fun m => { m with state := .off, trig := none, disPend := false })).reportArm x.1) s

/-! ### Admission -/

/-- Another trigger reaches admission before this one: at an earlier edge, or at the same with an earlier stamp or, at equal
stamps, a lower pin (R237, R368). -/
def State.admissionBlocked (s : State) (t : Trigger) : Bool :=
  s.mons.any (fun x => match x.2.trig with
    | some u => u.pin != t.pin &&
        (decide (u.edge < t.edge) ||
         (u.edge == t.edge && (sLt u.stamp t.stamp || (u.stamp == t.stamp && decide (u.pin < t.pin)))))
    | none => false)

/-- A declined trigger (R368): its CAPTURE record at once, REARM, source 281 for BUDGET. -/
def State.decline (s : State) (q : Nat) (t : Trigger) (cause : Nat) : State :=
  let (u, s) := s.captureRecord t.stamp q 1 cause t.mask.toNat (s.rd Reg.LM_CAP_RATE q) 0xFFFF 0 0 0 0 0 t.detail.toNat
  let s := s.count .sat Reg.LM_CNT_DECL q 1 [u]
  let s := s.wr (if cause = 1 then Reg.LM_STAT_EV_DECL else Reg.LM_STAT_EV_NOSEG) 1 q
  let s := s.modMon q (fun m => { m with trig := none, state := .rearm, rearmAt := s.now })
  (if cause = 1 then s.raiseEvent 281 q else s).reportArm q

/-- An admitted trigger (R365, R368): a segment is occupied and given its extent in admission order. -/
def State.admitTrigger (s : State) (q : Nat) (t : Trigger) : State :=
  let m := s.mon q
  let rate := s.rd Reg.LM_CAP_RATE q
  let d := gridOf rate
  let gt := m.gridAt + (t.edge - m.gridAt + d - 1) / d * d
  let preA := min (s.rd Reg.LM_PRE q) ((gt - m.gridAt) / d)
  let g : Segment :=
    { trig := t, index := m.next, rate := rate, preA := preA, post := s.rd Reg.LM_POST q, lmPre := s.rd Reg.LM_PRE q,
      log2 := s.rd Reg.LM_SEG_LOG2 q, grid := gt, pseq := m.pseq + 1,
      first := s.cAt (gt - preA * d) - ticks (s.rd Reg.TB_PINPATH_IN_PATH q) }
  let s := s.setMon q
    { m with trig := none, state := .capture, taken := m.taken + 1, pseq := m.pseq + 1,
             next := (m.next + 1) % max 1 (s.rd Reg.LM_SEG_COUNT q) }
  (({ s with segments := s.segments ++ [g] } : State).giveExtents).reportArm q

/-! ### Upload -/

/-- The next segment to upload: the oldest with an extent whose writes are not yet issued; it must be complete (R369). -/
def State.nextUpload (s : State) : Option Segment :=
  match s.segments.find? (fun g => g.upload.isNone) with
  | some g => if g.samples.isSome && g.extent.isSome then some g else none
  | none => none

/-- Posted writes of whole payloads from an address on (R202, R369). -/
def writesOf (mps : Nat) : Nat → BitVec 64 → List Byte → List Out
  | 0, _, _ => []
  | fuel + 1, a, b =>
    if b.isEmpty then []
    else .write a (b.take mps) :: writesOf mps fuel (a + BitVec.ofNat 64 mps) (b.drop mps)

def State.upBase (s : State) : BitVec 64 := s.reg 0 0x7F2 ++ (s.reg 0 0x7F1 &&& 0xFFFFF000#32)

/-- Issue the writes of a segment's upload (R369); they count as record writes (R215). -/
def State.upload (s : State) (g : Segment) : State :=
  let (u, s) := s.fresh
  let a := s.upBase + BitVec.ofNat 64 ((g.extent.map (·.1)).getD 0)
  let b := g.bytes
  let s := s.touchMem1
  { s with segments := s.segments.map (fun x => if x.key = g.key then { x with upload := some u } else x),
           out := s.out ++ writesOf s.link.mps b.length a b, flushDue := true,
           link := { s.link with lastRing := some (s.rd Reg.LM_UPCFG_RING), idleFrom := s.now } }

/-- A segment's writes are all committed (R369): it is no longer occupied and its CAPTURE record is formed. -/
def State.commitSegment (s : State) (g : Segment) : State :=
  let s : State := { s with segments := s.segments.filter (fun x => x.key != g.key) }
  let (ofs, skip) := g.extent.getD (0, 0)
  let (u, s) := s.captureRecord g.trig.stamp g.trig.pin (if g.cutAt.isSome then 2 else 0) g.trig.cause g.trig.mask.toNat
    g.rate g.index ofs (2 ^ g.log2) skip g.pseq 0 g.trig.detail.toNat
  let s : State := { s with extents := s.extents.map (fun e =>
    if e.owner = g.key ∧ e.record = none then { e with record := some u } else e) }
  s.count .wrap Reg.LM_CNT_TRIG g.trig.pin 1 [u]

/-- Free the extents whose CAPTURE slot the host count has passed (R369). -/
def State.freeExtents (s : State) (n : Nat) : State :=
  if n = s.rd Reg.LM_UPCFG_RING && s.on Reg.LM_UPCFG_EN then
    let host := (s.ring n).host
    ({ s with extents := s.extents.filter (fun e => match e.slot with
        | some c => !(host - c - 1).toNat < 2 ^ 31
        | none => true) } : State).giveExtents
  else s

/-! ### Register checks, effects and views -/

def lmValue (s : State) (w : Nat) (d : Word) : Bool :=
  match w with
  | 0x700 => d.toNat < 4096 || d.toNat == 0xFFFF
  | 0x705 => d != 0
  | 0x706 => Reg.LM_SEG_COUNT.get d != 0 && decide (8 ≤ Reg.LM_SEG_LOG2.get d ∧ Reg.LM_SEG_LOG2.get d ≤ 20)
  | 0x707 => decide (Reg.LM_PRE.get d ≤ 4096)
  | 0x708 => Reg.LM_POST.get d != 0
  | 0x70B => decide (Reg.LM_ALLOC_SIZE.get d ≤ 262144)
  | 0x7F0 =>
    let n := Reg.LM_UPCFG_RING.get d
    decide (20 ≤ Reg.LM_UPCFG_LOG2.get d ∧ Reg.LM_UPCFG_LOG2.get d ≤ 34) &&
    (Reg.LM_UPCFG_EN.get d == 0 || ((s.ring n).state == .active && s.rd Reg.RG_CFG_KIND n == 2))
  | _ => true

/-- Relations between words of one pin (R366, R375). -/
def lmCross (s : State) (q w : Nat) : Bool :=
  if w = 0x702 ∨ w = 0x703 then decide (s.rd Reg.LM_WMIN q ≤ s.rd Reg.LM_WMAX q)
  else if w = 0x706 ∨ w = 0x707 ∨ w = 0x708 then
    decide (s.rd Reg.LM_PRE q + s.rd Reg.LM_POST q ≤ 4 * (2 ^ s.rd Reg.LM_SEG_LOG2 q - 64))
  else true

/-- Writes the state refuses (R363, R364, R373). -/
def lmState (s : State) (q w : Nat) (d : Word) : Code :=
  if 0x701 ≤ w ∧ w ≤ 0x70B then Code.unless (!(s.mon q).armed) Code.state
  else if w = 0x70C then
    Code.andThen (if Reg.LM_CTL_ARM.get d = 1 then s.armCode q else Code.ok)
      (if Reg.LM_CTL_FORCE.get d = 1 then
        Code.unless ((s.mon q).state == .armed) Code.state
       else Code.ok)
  else if w = 0x7F0 ∨ w = 0x7F1 ∨ w = 0x7F2 then
    Code.unless (!s.mons.any (fun x => x.2.armed) && s.segments.isEmpty) Code.state
  else Code.ok

/-- LM_CTL (R362, R363): ARM, DISARM and FORCE of one write act in that order (DESIGN CHOICE, log entry 12). -/
def lmAct (s : State) (q w : Nat) (d : Word) : State :=
  if w = 0x70C then
    let s := if Reg.LM_CTL_ARM.get d = 1 then s.arm q else s
    let s := if Reg.LM_CTL_DISARM.get d = 1 then s.disarm q else s
    if Reg.LM_CTL_FORCE.get d = 1 then s.force q else s
  else s

def MonState.code : MonState → Nat
  | .off => 0 | .arming => 1 | .armed => 2 | .capture => 3 | .rearm => 4 | .done => 5

def lmView (s : State) (q w : Nat) (v : Word) : Word :=
  let m := s.mon q
  match w with
  | 0x70D =>
    Reg.LM_STAT_LASTCAUSE.set (Reg.LM_STAT_DISPEND.set (Reg.LM_STAT_STATE.set v m.state.code) m.disPend.toNat) m.lastCause
  | 0x70E =>
    BitVec.ofNat 32 ((s.segments.filter (fun g => g.trig.pin == q)).length * 65536 + m.next)
  | 0x711 => m.lastStamp.truncate 32
  | 0x712 => m.lastHold
  | 0x7F3 => BitVec.ofNat 32 s.unitsUsed
  | 0x7F4 =>
    let l := (s.mons.filter (fun x => x.2.armed)).map (·.1)
    BitVec.ofNat 32 (l.length * 65536 + l.head?.getD 0xFFFF)
  | 0x7F5 => BitVec.ofNat 32 (roundDiv s.upFree 4096)
  | _ => v

/-! ### The commands -/

/-- MONITOR_TIMEOUT (R359, R362): no crossing for LM_TOUT * 64 DCLK; outside ARMED the time runs out once and is missed. -/
def execMonitorTimeout (q : PinIx) (s : State) : Host.Outcome State Fault Refusal :=
  if !s.running then .next s else
  let m := s.mon q.val
  if s.on Reg.LM_COND_TO q.val && m.armed && m.state != .arming && !m.toOut then
    let s := (s.advance (m.toFrom + 64 * s.rd Reg.LM_TOUT q.val)).modMon q.val (fun m => { m with toOut := true })
    .next (s.trigger q.val s.now [(1, s.samplerStamp q.val, 0)])
  else .next s

/-- MONITOR_ARMED (R362, R365): the octant and MEM1 are in RUN; grid, circle and TIMEOUT start. -/
def execMonitorArmed (q : PinIx) (s : State) : Host.Outcome State Fault Refusal :=
  if !s.running then .next s else
  let m := s.mon q.val
  if m.state = .arming ∧ s.pinRuns q.val ∧ s.power.mem1 = .run then
    .next (s.setMon q.val { m with state := .armed, gridAt := s.now, toFrom := s.now, toOut := false, armedStamp := s.toPin q.val s.c })
  else .next s

/-- TRIGGER_ADMISSION (R368): 16 DCLK after the trigger edge, in the order of R237. -/
def execTriggerAdmission (q : PinIx) (s : State) : Host.Outcome State Fault Refusal :=
  if !s.running then .next s else
  match (s.mon q.val).trig with
  | none => .next s
  | some t =>
    if s.admissionBlocked t then .next s else
    let s := s.advance (t.edge + 16)
    let stack := (s.rd Reg.GL_DIESTAT_HBM_OK).testBit 1
    if !stack || decide (64000 < s.unitsUsed + unitsOf (s.rd Reg.LM_CAP_RATE q.val)) then .next (s.decline q.val t 1)
    else if s.segments.any (fun g => g.trig.pin == q.val && g.index == (s.mon q.val).next) then
      .next (s.decline q.val t 2)
    else .next (s.admitTrigger q.val t)

/-- SEGMENT_COMPLETE (R365): the last sample and the header are in the Canvas, at the latest edge the rule allows (DESIGN
CHOICE, log entry 15). While stack 1 wakes the samples wait on their way (R28). -/
def execSegmentComplete (q : PinIx) (s : State) : Host.Outcome State Fault Refusal :=
  if !s.running || s.power.mem1 != .run then .next s else
  match s.segments.find? (fun g => g.trig.pin == q.val && g.samples.isNone) with
  | none => .next s
  | some g =>
    let s := s.advance (g.grid + (g.preA + g.post) * gridOf g.rate + 64)
    .next (((s.completeSegment g).afterCapture q.val).reportArm q.val)

/-- REARM_END (R362): 320 DCLK after the entry to REARM. -/
def execRearmEnd (q : PinIx) (s : State) : Host.Outcome State Fault Refusal :=
  if !s.running then .next s else
  let m := s.mon q.val
  if m.state = .rearm then
    let s := s.advance (m.rearmAt + 320)
    .next (s.setMon q.val { m with state := .armed, toFrom := s.now, toOut := false, armedStamp := s.toPin q.val s.c })
  else .next s

/-- The capture ring may write, so that an upload can take its turn (R177, R264, R369). -/
def State.captureTurn (s : State) : Bool :=
  (s.ring (s.rd Reg.LM_UPCFG_RING)).state == .active && !(s.ring (s.rd Reg.LM_UPCFG_RING)).mute

/-- UPLOAD_START (R369): the next complete segment in admission order is copied into its extent. -/
def execUploadStart (q : PinIx) (s : State) : Host.Outcome State Fault Refusal :=
  match s.nextUpload with
  | none => .next s
  | some g => if g.trig.pin = q.val ∧ s.mayRequest ∧ !s.engagedShadow ∧ s.captureTurn then .next (s.upload g) else .next s

end Sys2Proof.Machine
end

