-- ==== Sys2Proof/Machine/Edge.lean ====
section
/-!
DEFINITION. The edge extractor and the edge recorders (R72, R92), and what a transition reaches beside the receiver: the
transmitter's own observation (R20, R139), wake requests (R93, R273, R435), activity (R434), the line monitor (R359) and the
samplers that resume after a span change (R353).
-/
namespace Sys2Proof.Machine

/-- The samplers of a pin run: DCLK is valid and no span change freezes its group (R72, R353). -/
def State.samples (s : State) (q : Nat) : Bool := s.clocked && !(s.group (groupOfPin q)).frozen

/-- A port receives on this pin (R96). -/
def State.receives (s : State) (q : Nat) : Bool := q % 2 == 1 && !(s.port (rxPortOf q)).rxIdle

/-- An unconsumed entry is overwritten (R92): a transition among those lost counts. -/
def Pin.overwrite (x : Pin) : Pin :=
  match x.recorder.head? with
  | some g =>
    if g.glitch then { x with isOver := true }
    else { x with isOver := true, lost := x.lost + 1, lostFirst := if x.lost = 0 then g.s1 else x.lostFirst, lostLast := g.s1 }
  | none => x

/-- The recorder takes an entry (R92): the last 64 stay; the port counts what it loses unconsumed. -/
def Pin.record (x : Pin) (e : PinEvent) (port : Bool) : Pin :=
  let full := decide (64 ≤ x.recorder.length)
  let x := if port && full && decide (x.recorder.length ≤ x.fresh) then x.overwrite else x
  { x with recorder := (if full then x.recorder.drop 1 else x.recorder) ++ [e],
           fresh := if port then min 64 (x.fresh + 1) else 0 }

/-- The recorder of a pin holds 64 entries none of which its port has consumed (R92). -/
def State.recorderFull (s : State) (q : Nat) : Bool :=
  s.receives q && decide (64 ≤ (s.pin q).recorder.length) && decide ((s.pin q).recorder.length ≤ (s.pin q).fresh)

/-- An alert bit of a port is set (R98, R270, R271): newly set, it forms an EVENT record that names the port. -/
def State.setAlert (s : State) (p : Nat) (f : Fld) (source : Nat) : State :=
  if s.on f p then s
  else ((s.wr f 1 p).eventRecord source p (some p)).srcLevel source true s.stamp

/-- Sources 269 to 271 follow the alert bits of all ports (R98). -/
def State.refreshAlerts (s : State) : State :=
  let any := fun (f : Fld) => s.regs.any (fun (k, v) => k % 4096 == f.word && f.get v == 1)
  ((s.srcLevel 269 (any Reg.PT_RXSTAT_ALERT_FB) s.stamp).srcLevel 270 (any Reg.PT_RXSTAT_ALERT_RA) s.stamp).srcLevel
    271 (any Reg.PT_RXSTAT_ALERT_OV) s.stamp

/-- The transmitter sees its own start edge within one bit time of the commanded one (R20, R137, R139). -/
def Sending.observe (set : Settings) (e : PinEvent) (sd : Sending) : Sending :=
  match sd.flight with
  | some (_, start, _) =>
    if e.toSpace set && decide ((sDiff start e.s1).natAbs * 65536 ≤ sd.bit) && sd.seen.isNone then
      { sd with seen := some e.s1, observed := if sd.sent = 0 then some e.s1 else sd.observed }
    else sd
  | none => sd

/-- Bit period P_tx in 2^-16 tick (R133). -/
def State.bitPeriod (s : State) (p : Nat) : Nat :=
  let x := s.port p
  if s.on Reg.PT_TXCFG_FOLLOW p && x.rx == .track then x.trk.period else x.txSet.nominal

/-- Data bytes of a job (R128, R158), how many, and whether an address character leads them (R129, R154). -/
def TxJob.bytes : TxJob → List Byte
  | .desc d => d.data.getD []
  | .reply r => r.bytes
def TxJob.len : TxJob → Nat
  | .desc d => d.len
  | .reply r => r.bytes.length
def TxJob.addr : TxJob → Bool
  | .desc d => d.addr
  | .reply r => r.addr

/-- The address character of the job is still to come. -/
def Sending.addrDue (sd : Sending) : Bool := sd.job.addr && sd.first.isNone

/-- Every character of the job has begun. -/
def Sending.isDone (sd : Sending) : Bool := !sd.addrDue && decide (sd.job.len ≤ sd.used)

/-- Characters of the job that have not begun, under these settings (R129). -/
def Sending.left (set : Settings) (sd : Sending) : Nat :=
  sd.addrDue.toNat + (if set.data = 9 then (sd.job.len - sd.used + 1) / 2 else sd.job.len - sd.used)

/-- The job with its next character begun: that one takes no data byte, one, or two under 9 data bits (R129). -/
def Sending.begin_ (set : Settings) (sd : Sending) : Sending :=
  { sd with usedBefore := sd.used,
            used := if sd.addrDue then sd.used else sd.used + (if set.data = 9 then 2 else 1) }

/-- The next job a shadow expects on a transmit pin: a reply, then the head of the queue. -/
def Port.nextJob (x : Port) : Option Sending × Port :=
  match x.replies, x.queue with
  | r :: t, _ => (some { job := .reply r }, { x with replies := t })
  | [], d :: t => (some { job := .desc d }, { x with queue := t })
  | [], [] => (none, x)

/-- The character that a shadow has seen begin on a transmit pin, flow character or not: its end. -/
def Port.seenEnd (x : Port) : Option Stamp :=
  match x.flowFlight with
  | some f => some f.end_
  | none => x.sending.bind (fun sd => sd.flight.map (fun f => f.2.2))

/-- That character was sent whole (R261). -/
def Port.seenWhole (x : Port) : Port :=
  match x.flowFlight with
  | some f => { x with flowFlight := none, xoffTx := f.xoff }
  | none => { x with sending := x.sending.map (fun sd => { sd with sent := sd.sent + sd.flight.isSome.toNat, flight := none }) }

/-- A start transition on a transmit pin as a shadow sees it, behind the character before it. -/
def Port.seesStart (x : Port) (bit : Nat) (e : PinEvent) : Bool :=
  e.toSpace x.txSet && x.seenEnd.all (fun z => sLe z (e.s1 + ticks (bit / 131072)))

/-- What a shadow sees begin there (R144, R248, R261): a flow character that is due, else a character of the job in progress or
of the next one. -/
def Port.observeStart (x : Port) (bit : Nat) (e : PinEvent) : Port :=
  let x := x.seenWhole
  match x.flowDue with
  | b :: t => { x with flowDue := t, flowFlight := some ⟨b, 0, e.s1, x.txSet.frameEnd e.s1 bit, bit⟩ }
  | [] =>
    let (job, x) := match x.sending with
      | some sd => if sd.isDone then ({ x with sending := none } : Port).nextJob else (some sd, x)
      | none => x.nextJob
    match job with
    | some sd =>
      let sd := sd.begin_ x.txSet
      { x with sending := some { sd with flight := some (0, e.s1, x.txSet.frameEnd e.s1 bit), bit := bit, seen := some e.s1,
                                         first := sd.first.or (some e.s1), observed := sd.observed.or (some e.s1) } }
    | none => x

/-- The start of the character in flight that a record will carry (R139, R243): of the first character of a job, and of every
character of a descriptor while PT_TXCFG_ECHO is 1. -/
def State.observation (s : State) (p : Nat) : Option BlockEntry :=
  match (s.port p).sending with
  | some sd =>
    if sd.flight.isSome && (sd.sent == 0 || (s.on Reg.PT_TXCFG_ECHO p && (match sd.job with | .desc _ => true | _ => false)))
    then sd.seen.map (fun t => ⟨6, 0, 0, [t]⟩) else none
  | none => none

/-- Requests for RUN that a transition makes (R93, R273, R435). -/
def State.wakeByPin (s : State) (q : Nat) : State :=
  let o := octOfPin q
  let s := if s.receives q then s.wakeOct o 1 else s
  if pinOf q = 3 ∧ s.srcOn (1024 + q / 4) then s.wakeOct o 2 else s

/-- What an event leaves in the edge extractor of its pin: the recorder, the level, the instants of its last transitions and
the history of its samples (R72, R92, R365). `n1` is the edge that first shows the line between the thresholds. -/
def Pin.extract (x : Pin) (e : PinEvent) (receives : Bool) (n1 : Nat) : Pin :=
  let y := x.record e receives
  let mid := if n1 < e.edge then [(n1, Sample.between)] else []
  { y with
    level := some e.high, sample := if e.high then .high else .low,
    lastHigh := if !e.glitch && e.high then some e.t else y.lastHigh,
    lastLow := if !e.glitch && !e.high then some e.t else y.lastLow,
    history := y.history ++ mid ++ [(e.edge, if e.high then .high else .low)] }

/-- A shadow counts the starts on a transmit pin (R248, R261; log entry 40); what a record will carry is an entry of its own
(R243). -/
def State.shadowStart (s : State) (p : Nat) (e : PinEvent) : State :=
  if (s.pin (txPin p)).owner = .tx ∧ (s.port p).seesStart (s.bitPeriod p) e then
    let s := s.modPort p (fun x => x.observeStart (s.bitPeriod p) e)
    match s.observation p with
    | some b => s.noteOwn p (.entry b)
    | none => s
  else s

/-- The transmitter sees its own start (R139); what a record will carry is an entry of a decision block (R243). -/
def State.ownStart (s : State) (p : Nat) (e : PinEvent) : State :=
  let before := s.observation p
  let s := s.modPort p (fun x => { x with sending := x.sending.map (fun sd => sd.observe x.lineSet e) })
  match before, s.observation p with
  | none, some b => s.noteBlock p b
  | _, _ => s

/-- The transmitter of a transmit pin sees the event. -/
def State.observeEvent (s : State) (q : Nat) (e : PinEvent) : State :=
  if q % 2 = 0 then
    (if s.shadowing then s.shadowStart (txPortOf q) e
     else if (s.port (txPortOf q)).sending.isSome then s.ownStart (txPortOf q) e else s)
  else s

/-- An event of the edge extractor at the present DCLK edge (R72, R92): `high` is the level it leaves the line at. -/
def State.edgeEvent (s : State) (q : Nat) (high glitch : Bool) (x1 x2 : Stamp) : State :=
  let x := s.pin q
  let prev := if glitch then none else if high then x.lastLow else x.lastHigh
  let e : PinEvent := ⟨high, glitch, s.toPin q x1, s.toPin q x2, s.edgeOf (x2 + 1), prev⟩
  let n1 := s.edgeOf (x1 + 1)
  let s :=
    if s.recorderFull q then
      (s.setAlert (rxPortOf q) Reg.PT_RXSTAT_ALERT_OV 271).countPort .sat Reg.PT_RXERR2_RECOVF (rxPortOf q)
    else s
  let s := (s.setPin q (x.extract e (s.receives q) n1)).octActive (octOfPin q)
  let s := (if glitch then s else s.wakeByPin q).observeEvent q e
  let met := s.eventConditions q e
  let s := s.modMon q (fun m => if m.armed then { m with toFrom := e.edge, toOut := false } else m)
  s.trigger q e.edge met

/-- The first full level a sampler takes: no transition and no glitch (R72). -/
def State.firstLevel (s : State) (q : Nat) (high : Bool) : State :=
  s.modPin q (fun x =>
    { x with level := some high, sample := if high then .high else .low,
             history := x.history ++ [(s.now, if high then .high else .low)] })

/-- PIN_TRANSITION (R72): the sample that completes a transition to `high`, or a glitch that returned to `high`; `x1` and
`x2` are its crossings on the sampler's scale (R41). Time passes to the DCLK edge of that sample, the first one behind the
crossing: a crossing found at tap 0 following edge N shows in sample N + 1 (R21, R41). -/
def execPinTransition (q : PinIx) (high glitch : Bool) (x1 x2 : Stamp) (s : State) :
    Host.Outcome State Fault Refusal :=
  if !s.samples q.val then .next s else
  let s := s.advanceTo (x2 + 1)
  match (s.pin q.val).level with
  | none => .next (s.firstLevel q.val high)
  | some l => if (l == high) == glitch then .next (s.edgeEvent q.val high glitch x1 x2) else .next s

/-- SAMPLER_RESUME (R353): at 14,400 DCLK the samplers of the group run again; the first sample of each pin that moved
forms at most one transition, stamped at that edge. -/
def execSamplerResume (g : Fin 64) (levels : List (PinIx × Sample)) (s : State) : Host.Outcome State Fault Refusal :=
  if !s.running then .next s else
  .next (s.spanStep g.val 3 14400 (fun s =>
    let s := s.modGroup g.val (fun x => { x with frozen := false })
    levels.foldl (fun s (q, v) =>
      let x := s.pin q.val
      match v with
      | .between =>
        s.setPin q.val { x with sample := .between, history := x.history ++ [(s.now, .between)] }
      | _ =>
        let high := v == .high
        match x.level with
        | none => s.firstLevel q.val high
        | some l =>
          if l = high then
            if x.sample = v then s
            else s.setPin q.val { x with sample := v, history := x.history ++ [(s.now, v)] }
          else s.edgeEvent q.val high false s.c s.c) s))

end Sys2Proof.Machine
end

