-- ==== Sys2Proof/Machine/Cue.lean ====
section
/-!
DEFINITION. The Cue engine (05_transmit_flow_partners.md R155 to R161): windows, matches, late matches, actions and
replies; the checks and effects of the CQ_ registers (R164, R165).
-/
namespace Sys2Proof.Machine

/-! ### Rules and windows -/

/-- A field of rule r of a port (R164). -/
def State.rule (s : State) (f : Fld) (p r : Nat) : Nat := s.rd (f.at (16 * r)) p

/-- Byte i of four words of eight-bit values that start at a field's word (R164). -/
def State.byteOf (s : State) (f : Fld) (p i : Nat) : Nat := s.rd (f.at (i / 4)) p / 256 ^ (i % 4) % 256

/-- A rule fills its window and matches: the port's Cue and the rule are enabled (R155). -/
def State.ruleOn (s : State) (p r : Nat) : Bool := s.on Reg.CQ_CTL_EN p && s.rule Reg.CQ_RCTL_EN p r == 1

/-- Partner k's stream is that of rule r (R155). -/
def State.ruleSees (s : State) (p r k : Nat) : Bool :=
  s.ruleOn p r && (s.rule Reg.CQ_RCTL_PARTNER p r == 4 || s.rule Reg.CQ_RCTL_PARTNER p r == k)

def Port.window (x : Port) (r : Nat) : List (BitVec 9) := Sparse.get (fun _ => []) x.windows r

/-- A character joins the window of rule r: the last LEN characters stay (R155). -/
def State.pushWindow (s : State) (p r : Nat) (d : BitVec 9) : State :=
  let n := s.rule Reg.CQ_RCTL_LEN p r
  s.modPort p (fun x =>
    let w := x.window r ++ [d]
    { x with windows := Sparse.put (fun _ => []) x.windows r (w.drop (w.length - n)) })

/-- The windows of a port are emptied (R155). -/
def State.emptyWindows (s : State) (p : Nat) : State := s.modPort p (fun x => { x with windows := [] })

/-- Windows of rules that are not enabled hold nothing (R155). -/
def State.trimWindows (s : State) (p : Nat) : State :=
  s.modPort p (fun x => { x with windows := x.windows.filter (fun w => s.ruleOn p w.1) })

/-- The window of rule r is complete and every character agrees with the pattern under its mask (R156). -/
def State.ruleMatches (s : State) (p r : Nat) : Bool :=
  let w := (s.port p).window r
  let low := 2 ^ min 8 (s.port p).set.data
  w.length == s.rule Reg.CQ_RCTL_LEN p r &&
  (w.mapIdx (fun i d =>
    let m := s.byteOf (Reg.CQ_RMASK.at (16 * r)) p i % low
    (d.toNat % 256) &&& m == (s.byteOf (Reg.CQ_RPAT.at (16 * r)) p i) &&& m)).all id

/-! ### Replies -/


/-- The data bytes of a reply of rule r, from the reply store (R158). -/
def State.replyBytes (s : State) (p r : Nat) : List Byte :=
  let ofs := s.rule Reg.CQ_RREPLY_OFS p r
  (List.range (s.rule Reg.CQ_RREPLY_LEN p r)).map (fun i => BitVec.ofNat 8 (s.byteOf Reg.CQ_REPLY p (ofs + i)))

/-- The partner that the address character of a reply of rule r names, for a character of partner k (R158). -/
def State.replyTo (s : State) (p r k : Nat) : Nat :=
  if s.rule Reg.CQ_RCTL_PARTNER p r = 4 then k else s.rule Reg.CQ_RCTL_PARTNER p r

/-- Replies a port holds: one sending and one waiting at most (R159). -/
def Port.replyCount (x : Port) : Nat :=
  x.waiting.length + (match x.sending with | some { job := .reply _, .. } => 1 | _ => 0)

/-! ### A match -/

/-- Actions of rule r as bits (R164). -/
def State.ruleAct (s : State) (p r b : Nat) : Bool := (s.rule Reg.CQ_RCTL_ACT p r).testBit b

/-- REPLY, GPIO and ARM of a rule run: always, but for a late match only with LATEOK (R157). -/
def State.ruleActs (s : State) (p r : Nat) (late : Bool) : Bool := !late || s.rule Reg.CQ_RCTL_LATEOK p r == 1

/-- The pins rule r of a port of this station drives and arms. -/
def State.ruleGpioPin (s : State) (p r : Nat) : Nat := 4 * (p / 2) + s.rule Reg.CQ_RACT_GPIO_K p r
def State.ruleArmPin (s : State) (p r : Nat) : Nat := 4 * (p / 2) + s.rule Reg.CQ_RACT_ARM_K p r

/-- REPLY: the reply joins those that wait, under the number of its completion (R159, R160). -/
def State.ruleReply (s : State) (p r k : Nat) (c : Chr) (seq : Word) (late : Bool) (u : Nat) : State :=
  s.modPort p (fun x => { x with replies := x.replies ++
    [{ rule := r, bytes := s.replyBytes p r, addr := s.rule Reg.CQ_RCTL_ADDR p r == 1, to_ := s.replyTo p r k, matched := c,
       partner := k, seq := seq, late := late, notBefore := s.now + 8, uid := u, before := s.portEvents p }] })

/-- GPIO, ARM and the interrupt of a rule (R158). -/
def State.ruleDrives (s : State) (p r : Nat) (gpio arm : Bool) : State :=
  let s := if gpio then s.gpioOut (s.ruleGpioPin p r) (s.rule Reg.CQ_RACT_GPIO_VAL p r == 1) else s
  let s := if arm && !s.shadowing then s.arm (s.ruleArmPin p r) else s
  if s.ruleAct p r 3 then s.softSet (s.rule Reg.CQ_RACT_TGT p r * 4096 + 512 + s.rule Reg.CQ_RACT_PSRC p r) else s

/-- The record of a rule's event action, with its number when it is stored (R161). -/
def State.ruleRecord (s : State) (p r k : Nat) (c : Chr) (seq : Word) (late : Bool) (u : Nat) : Option Nat × State :=
  if s.ruleAct p r 4 then s.cueRecord p r 2 late false (s.rule Reg.CQ_REVENT_CODE p r) 0 0 c k seq (some u) else (none, s)

/-- The counts of a match (R157, R158): matches of the rule, late matches, skipped actions, replies that found no place. -/
def State.ruleCounts (s : State) (p r : Nat) (late : Bool) (skips : Nat) (dropped : Bool) (w : Option Nat) : State :=
  let s := s.countEvent .wrap (Reg.CQ_RCNT.at (16 * r)) p 1 w
  let s := if late then s.countEvent .sat Reg.CQ_STAT_LATEM p 1 w else s
  let s := if skips = 0 then s else s.countEvent .sat Reg.CQ_STAT_SKIP p skips w
  if dropped then s.countEvent .sat Reg.CQ_STAT_RDROP p 1 w else s

/-- One matching rule's counts and actions (R156 to R159, R161). `first` says that its reply is the one sent. -/
def State.ruleFires (s : State) (p r k : Nat) (c : Chr) (seq : Word) (late first : Bool) : State :=
  let acts := s.ruleActs p r late
  let (u, s) := s.fresh
  let s := s.noteMatch p ⟨5, BitVec.ofNat 32 r, BitVec.ofNat 8 late.toNat, [c.stamp]⟩
  let x := s.port p
  let gone := x.tx = .off || x.tx = .starved || decide (2 ≤ x.replyCount)
  let wantsReply := s.ruleAct p r 0 && acts
  let sends := wantsReply && first && !gone
  let s := if sends then s.ruleReply p r k c seq late u else s
  let gpio := s.ruleAct p r 1 && acts && !s.spanBusy (groupOfPin (s.ruleGpioPin p r))
  let arm := s.ruleAct p r 2 && acts && s.armCode (s.ruleArmPin p r) == Code.ok
  let s := s.ruleDrives p r gpio arm
  let (e, s) := s.ruleRecord p r k c seq late u
  let skips := (s.ruleAct p r 0 && !acts).toNat + (s.ruleAct p r 1 && !gpio).toNat + (s.ruleAct p r 2 && !arm).toNat
  s.ruleCounts p r late skips (wantsReply && !sends) (if sends then some u else e)

/-- Cue at the confirmation of a character of partner k's stream (R155 to R157): a character with FE, PE or NOISE empties
the windows, any other is pushed and matched, rules 0 to 7 in order. -/
def State.cueChar (s : State) (p k : Nat) (c : Chr) (seq : Word) : State :=
  if c.fe || c.pe || c.noise then s.emptyWindows p else
  let rules := (List.range 8).filter (fun r => s.ruleSees p r k)
  let s := rules.foldl (fun s r => s.pushWindow p r c.data) s
  let hits := rules.filter (s.ruleMatches p)
  let late := decide ((512 : Int) < sDiff c.centre s.stamp)
  let sender := hits.find? (fun r => s.ruleAct p r 0 && s.ruleActs p r late)
  hits.foldl (fun s r => s.ruleFires p r k c seq late (sender == some r)) s

/-! ### Register checks and effects -/

/-- The rule a CQ_ word belongs to, and its place in it (R164). -/
def ruleOf (w : Nat) : Option (Nat × Nat) :=
  if 0x910 ≤ w ∧ w ≤ 0x98F ∧ (w - 0x910) % 16 ≤ 12 then some ((w - 0x910) / 16, (w - 0x910) % 16) else none

/-- Values and relations of CQ_RCTL as a write with EN = 1 leaves them (R164, R165). -/
def cqValue (w : Nat) (d : Word) : Bool :=
  match ruleOf w with
  | some (_, 0) =>
    decide (Reg.CQ_RCTL_PARTNER.get d ≤ 4 ∧ 1 ≤ Reg.CQ_RCTL_LEN.get d ∧ Reg.CQ_RCTL_LEN.get d ≤ 16)
  | some (_, 9) => decide (1 ≤ Reg.CQ_RREPLY_LEN.get d ∧ Reg.CQ_RREPLY_LEN.get d ≤ 256)
  | _ => w != 0x900 || decide (d.toNat < 2048) || d.toNat == 0xFFFF

def cqCross (s : State) (p w : Nat) : Bool :=
  match ruleOf w with
  | some (r, 0) =>
    let x := s.portPalette p
    s.rule Reg.CQ_RCTL_EN p r == 0 ||
    (decide (s.rule Reg.CQ_RREPLY_OFS p r + s.rule Reg.CQ_RREPLY_LEN p r ≤ 256) &&
     (x.data != 9 || s.rule Reg.CQ_RREPLY_LEN p r % 2 == 0) &&
     (x.addrMode != 0 || s.rule Reg.CQ_RCTL_PARTNER p r == 0 || s.rule Reg.CQ_RCTL_PARTNER p r == 4))
  | _ => true

/-- Writes an enabled rule forbids (R165). -/
def cqState (s : State) (p w : Nat) : Bool :=
  match ruleOf w with
  | some (r, k) => k == 0 || s.rule Reg.CQ_RCTL_EN p r == 0
  | none =>
    if 0x990 ≤ w ∧ w ≤ 0x9CF then
      (List.range 8).all (fun r =>
        let a := s.rule Reg.CQ_RREPLY_OFS p r
        let b := a + s.rule Reg.CQ_RREPLY_LEN p r
        s.rule Reg.CQ_RCTL_EN p r == 0 || !s.ruleAct p r 0 ||
          !(decide (a < 4 * (w - 0x990) + 4) && decide (4 * (w - 0x990) < b)))
    else true

def cqApply (s : State) (p w : Nat) : State :=
  if w = 0x901 ∨ (ruleOf w).any (fun x => x.2 == 0) then s.trimWindows p else s

/-- CLRHIST (R155). -/
def cqAct (s : State) (p w : Nat) (d : Word) : State :=
  if w = 0x901 ∧ Reg.CQ_CTL_CLRHIST.get d = 1 then s.emptyWindows p else s

end Sys2Proof.Machine
end

