-- ==== Sys2Proof/Machine/Transmit.lean ====
section
/-!
DEFINITION. The transmitter (05_transmit_flow_partners.md R128 to R148, R160, R162): descriptors, data, starts, timed
launches and ends of characters, the transmit palette boundary, and the commands that are its own events.
-/
namespace Sys2Proof.Machine

/-! ### Line and flow -/

/-- The last full level a pin showed up to a DCLK edge (R145). -/
def Pin.fullAt (x : Pin) (n : Nat) : Option Bool :=
  match ((x.history.filter (fun h => h.1 ≤ n && h.2 != .between)).getLast?) with
  | some h => some (h.2 == .high)
  | none => none

/-- CTS of a port A as read at a DCLK edge: the sample of 16 DCLK before (R145). A pin that has shown no full level yet
reads deasserted (DESIGN CHOICE, log entry 19). -/
def State.cts (s : State) (p edge : Nat) : Bool := (s.pin (2 * p + 3)).fullAt (edge - 16) == some (s.on Reg.PT_FCCFG_CTSPOL p)

/-- Flow control permits a start edge of data or a reply committed at this edge (R141, R145). -/
def State.flowPermits (s : State) (p : Nat) : Bool :=
  match (s.port p).flowMode with
  | 1 => s.cts p s.now
  | 2 => !(s.port p).xoffRx
  | _ => true

/-- While CTS holds a start at edge `edge`, the first later edge at which the samples taken so far read it asserted (R145). -/
def State.ctsRelease (s : State) (p edge : Nat) : Option Nat :=
  if (s.port p).flowMode = 1 then
    ((s.pin (2 * p + 3)).history.find? (fun h => decide (edge < h.1 + 16) && h.2 != .between &&
      ((h.2 == .high) == s.on Reg.PT_FCCFG_CTSPOL p))).map (fun h => h.1 + 16)
  else none

/-- The port may commit start edges: it is neither OFF, STARVED nor HELD, its octant runs, its pin does not wait to switch
(R339), and the member is not one that only shadows (R248), waits for its drivers in a takeover (R260) or is barred after it (R264). -/
def State.mayTransmit (s : State) (p : Nat) : Bool :=
  let x := s.port p
  x.tx != .off && x.tx != .starved && x.tx != .held && s.pinRuns (txPin p) && !(s.pin (txPin p)).switchWaits &&
  !s.shadowing &&
  !(s.hinge.state == .taken && (s.hinge.tkdeg || !s.driverOn (txPin p)))

/-- Ticks of a number of half bits. -/
def halfBits (bit n : Nat) : Stamp := ticks (roundDiv (n * bit) 131072)

/-- The later of a stamp and an optional one. -/
def notBefore (a : Stamp) (b : Option Stamp) : Stamp := match b with | some b => sMax a b | none => a

/-! ### Starting a character -/

/-- The address character of partner k (R154). -/
def State.addrChar (s : State) (p k : Nat) : BitVec 9 :=
  BitVec.ofNat 9 (s.rd (Reg.PT_PTADDR_ADDR.at k) p + (if (s.port p).addrMode = 1 then 256 else 0))

/-- The next character of a job under settings `set` (R129, R154): its address character, one byte, or two under 9 data bits,
with bit 8 at 0 under multidrop. Bit 8 of the last character of an odd number of bytes, which only a palette change inside the
job leaves, is a free value (log entry 3). -/
def State.nextChar (s : State) (p : Nat) (set : Settings) (sd : Sending) : BitVec 9 × State :=
  if sd.addrDue then
    (s.addrChar p (match sd.job with | .desc d => d.partner | .reply r => r.to_), s)
  else
    match sd.job.bytes.drop sd.used with
    | a :: rest =>
      if set.data ≠ 9 ∨ (s.port p).addrMode = 1 then (a.zeroExtend 9, s)
      else match rest with
        | b :: _ => ((b.zeroExtend 9 <<< 8) ||| a.zeroExtend 9, s)
        | [] =>
          let (v, s) := s.takeFree
          ((v.truncate 9 &&& 0x100#9) ||| a.zeroExtend 9, s)
    | [] => (0, s)

/-- The start edge of a character under settings `set` goes out at launch stamp `t` (R133). -/
def State.startEdgeOut (s : State) (p : Nat) (set : Settings) (t : Stamp) : State :=
  (s.emit (.pinLevel (txPin p) ((s.pin (txPin p)).outLevel set.inverted) t)).octActive (octOfPort p)

/-- The next character of the job in progress, framed by `set`, is in flight from launch stamp `t` on, with bit period `bit`
(R133). -/
def State.beginNext (s : State) (p : Nat) (set : Settings) (t : Stamp) (bit : Nat) : State :=
  match (s.port p).sending with
  | some sd =>
    if sd.isDone then s else
    let (v, s) := s.nextChar p set sd
    let v := v &&& BitVec.ofNat 9 (2 ^ set.data - 1)
    let sd := sd.begin_ set
    (s.modPort p (fun x =>
      { x with tx := .send, lineSet := set,
               sending := some { sd with flight := some (v, t, set.frameEnd t bit), bit := bit, seen := none,
                                         first := sd.first.or (some t) } })).startEdgeOut p set t
  | none => s

/-- The device's own flow character, framed by `set`, starts at `t` (R144). -/
def State.beginFlow (s : State) (p : Nat) (xoff : Bool) (set : Settings) (t : Stamp) (bit : Nat) : State :=
  let v := BitVec.ofNat 9 (s.rd (if xoff then Reg.PT_FCCFG_XOFF else Reg.PT_FCCFG_XON) p) &&&
    BitVec.ofNat 9 (2 ^ min 8 set.data - 1)
  (s.modPort p (fun x =>
    { x with tx := .send, lineSet := set, flowFlight := some ⟨xoff, v, t, set.frameEnd t bit, bit⟩ })).startEdgeOut p set t

/-- A descriptor's data lie in the transmit space (R132). -/
def Desc.ready (d : Desc) : Bool := d.data.isSome

/-- The job in progress has a character to send, and its data are there; after a takeover they are read again (R261). -/
def Sending.ready (sd : Sending) : Bool :=
  !sd.isDone && (match sd.job with | .desc d => d.ready | .reply _ => true)

/-- What a free line starts: nothing before the first level of a switched pin is committed (R340). -/
def State.nextStart (s : State) (p : Nat) : NextStart :=
  let x := s.port p
  if !s.mayTransmit p || x.line.isSome || (s.pin (txPin p)).switchAt.isSome then .none else
  match (if x.launchOk then none else x.flowDue.head?) with
  | some b => .flow b
  | none =>
    match x.sending with
    | some sd => if sd.ready then .next else .none
    | none =>
      if x.launchOk then .none else
      match x.replies with
      | r :: _ => .reply r
      | [] =>
        match x.queue with
        | d :: _ => if d.ready && !d.timed then .desc d else .none
        | [] => .none

/-- Gap of the job in progress, in bits (R134, R158). -/
def Sending.gap (sd : Sending) : Nat := match sd.job with | .desc d => d.gap | .reply .. => 0

/-- The hold before an address character under idle-line addressing, from the end of the last character sent (R134); none before
the port has sent a character (DESIGN CHOICE, log entry 103). -/
def State.addrHold (s : State) (p : Nat) (addr : Bool) : Option Stamp :=
  let x := s.port p
  if addr && x.addrMode == 2 then x.lastSent.map (fun e => e + halfBits (s.bitPeriod p) (x.txSet.frame2 + 2)) else none

/-- The earliest launch stamp each may have (R134, R144, R159, R160). -/
def State.earliestStart (s : State) (p : Nat) (n : NextStart) : Option Stamp :=
  let x := s.port p
  let bit := s.bitPeriod p
  let after := fun (a b : Option Stamp) => match a, b with
    | some a, some b => some (sMax a b)
    | some a, none => some a
    | none, b => b
  after (if n = .none then none else x.waitUntil) <| match n with
  | .none => none
  | .flow _ => x.lastSent
  | .next =>
    match x.sending with
    | some sd => after x.lastSent (if sd.sent = 0 then none else some (sd.lastEnd + halfBits bit (2 * sd.gap)))
    | none => x.lastSent
  | .reply r =>
    after (after x.lastSent (s.addrHold p r.addr))
      (some (sMax (s.cAt r.notBefore + 192 + ticks (s.outPath (txPin p)) - s.pairOfs)
        (s.cAt x.markFrom + 192 + ticks (s.outPath (txPin p)) - s.pairOfs + halfBits bit 2)))
  | .desc d =>
    after (x.lastSent.map (fun e => e + halfBits bit (2 * d.gap))) (s.addrHold p d.addr)

/-- Commit edge of a start not earlier than a stamp: the present edge when that has passed, with the ball stamp of this
edge as its launch (R43). -/
def State.startEdge (s : State) (p : Nat) (t : Option Stamp) : Nat × Stamp :=
  match t with
  | none => (s.now, s.ballStamp (txPin p))
  | some t =>
    match (s.commitEdge (txPin p) t).1 with
    | some n => (n, t)
    | none => (s.now, s.ballStamp (txPin p))


/-- Mark the reply at the head, or the reply in progress, as held by flow control (R160, R161). -/
def State.noteHeld (s : State) (p : Nat) : State :=
  s.modPort p (fun x =>
    match x.sending with
    | some sd => { x with tx := .flow, sending := some { sd with heldByFlow := true } }
    | none =>
      match x.replies with
      | r :: t => { x with replies := { r with heldByFlow := true } :: t }
      | [] => x)

/-- Flow control permits a start at this edge: always for the device's own flow character (R141), and for what follows the
decision of a timed launch (R136). -/
def State.startPermitted (s : State) (p : Nat) (n : NextStart) : Bool :=
  match n with
  | .none => false
  | .flow _ => true
  | .next => s.flowPermits p || (s.port p).launchOk
  | .reply _ | .desc _ => s.flowPermits p

/-- Put a character of what starts on the line, framed by `set`, with launch stamp `t` and bit period `bit`. -/
def State.start (s : State) (p : Nat) (n : NextStart) (set : Settings) (t : Stamp) (bit : Nat) : State :=
  match n with
  | .none => s
  | .flow b => s.beginFlow p b set t bit
  | .next => s.beginNext p set t bit
  | .reply r =>
    (s.modPort p (fun x => { x with sending := some { job := .reply r, heldByFlow := r.heldByFlow } })).beginNext p set t bit
  | .desc d => (s.modPort p (fun x => { x with sending := some { job := .desc d } })).beginNext p set t bit

/-- What starts leaves the place where it waited. -/
def Port.take (x : Port) (n : NextStart) : Port :=
  match n with
  | .flow _ => { x with flowDue := x.flowDue.drop 1 }
  | .reply _ => { x with replies := x.replies.drop 1 }
  | .desc _ => { x with queue := x.queue.drop 1 }
  | _ => x

/-- Start what is next with launch stamp `t`, at the present edge, if flow control permits it; a held job enters FLOW. -/
def State.launch (s : State) (p : Nat) (n : NextStart) (t : Stamp) : State :=
  if s.startPermitted p n then (s.modPort p (fun x => x.take n)).start p n (s.port p).txSet t (s.bitPeriod p)
  else match n with
    | .next | .reply _ => s.noteHeld p
    | _ => s

/-! ### Starts committed ahead -/

/-- What follows the character on the line with no wait for the line (R134, R144, R158 to R160): the flow character that is
due, the next character of the job in progress, or the waiting reply after the job's last one. A descriptor's first
character waits for the line to be free (R132). -/
def State.nextAhead (s : State) (p : Nat) : NextStart :=
  let x := s.port p
  if !s.mayTransmit p || x.line.isNone || x.ahead.isSome || x.stopAfter.isSome then .none else
  match (if x.launchOk then none else x.flowDue.head?) with
  | some b => .flow b
  | none =>
    if x.sending.any Sending.ready then .next
    else if x.launchOk then .none
    else match x.replies with
      | r :: _ => .reply r
      | [] => .none

/-- The bit period of a character committed now, under a palette change that waits for this boundary too (R133, R162). -/
def State.aheadBit (s : State) (p : Nat) : Nat :=
  let x := s.port p
  if s.on Reg.PT_TXCFG_FOLLOW p && x.rx == .track then x.trk.period
  else if x.txPalWaits then (s.portPalette p).nominal else x.txSet.nominal

/-- Its launch stamp: the end of the character on the line, G bits after the job's last character, or what a reply waits
for (R134, R158, R160). -/
def State.aheadStart (s : State) (p : Nat) (n : NextStart) (end_ : Stamp) : Stamp :=
  let x := s.port p
  let bit := s.aheadBit p
  match n with
  | .next =>
    match x.sending with
    | some sd =>
      if x.flowFlight.isSome then
        (if sd.sent = 0 then end_ else sMax end_ (sd.lastEnd + halfBits bit (2 * sd.gap)))
      else end_ + halfBits bit (2 * sd.gap)
    | none => end_
  | .reply r =>
    let hold := if r.addr && x.addrMode == 2 then end_ + halfBits bit (x.txSet.frame2 + 2) else end_
    sMax hold (s.cAt r.notBefore + 192 + ticks (s.outPath (txPin p)) - s.pairOfs)
  | _ => end_

/-- Mark what was to start behind the character on the line as held by flow control (R160, R161). -/
def State.noteHeldAhead (s : State) (p : Nat) (n : NextStart) : State :=
  s.modPort p (fun x =>
    match n with
    | .next => { x with sending := x.sending.map (fun sd => { sd with heldByFlow := true }) }
    | .reply r => { x with replies := { r with heldByFlow := true } :: x.replies.drop 1 }
    | _ => x)

/-- The start committed at the present edge behind the character on the line. -/
def State.setAhead (s : State) (p : Nat) (n : NextStart) (t : Stamp) : State :=
  s.modPort p (fun x => { x.take n with ahead := some ⟨n, t, s.aheadBit p, x.txPalWaits⟩ })

/-- Commit the start that follows the character on the line, when its commit edge lies before that character's end: the
reply is marked held when flow control does not permit it there (R160). -/
def State.commitAhead (s : State) (p : Nat) : State :=
  match (s.port p).line, s.nextAhead p with
  | none, _ | _, .none => s
  | some (_, _, e, _), n =>
    let (edge, t) := s.startEdge p (some (s.aheadStart p n e))
    if s.edgeOf e ≤ edge then s else
    let s := s.advance edge
    if s.startPermitted p n then s.setAhead p n t else
    let s := s.noteHeldAhead p n
    match s.ctsRelease p edge with
    | some r =>
      if s.edgeOf e ≤ r then s else
      let s := s.advance r
      (match s.nextAhead p with
       | .none => s
       | n => if s.startPermitted p n then s.setAhead p n (s.ballStamp (txPin p)) else s)
    | none => s

/-- Start what is due without waiting: its commit edge is not later than the present one. -/
def State.startDue (s : State) (p : Nat) : State :=
  let n := s.nextStart p
  let (edge, t) := s.startEdge p (s.earliestStart p n)
  if edge ≤ s.now then s.launch p n t else s

/-! ### Timed launches -/

/-- The stamp until which what the port has committed occupies the line: the character in flight, and a reply whole
(R135, R159). -/
def State.busyUntil (s : State) (p : Nat) : Option Stamp :=
  let x := s.port p
  x.line.map (fun (_, _, e, bit) =>
    let rest := match x.sending with
      | some sd => match sd.job with | .reply _ => sd.left x.txSet | .desc _ => 0
      | none => 0
    match x.ahead with
    | some a =>
      let n := match a.what with | .reply r => ({ job := .reply r } : Sending).left x.txSet | .next => max 1 rest | _ => 1
      a.start + halfBits a.bit (x.txSet.frame2 * n)
    | none => e + halfBits bit (x.txSet.frame2 * rest))

/-- A character of the port occupies, occupied or is committed to occupy the line at a stamp (R136). -/
def State.occupied (s : State) (p : Nat) (t : Stamp) : Bool :=
  let x := s.port p
  x.spans.any (fun a => sLe a.1 t && sLt t a.2) ||
  (match x.line, s.busyUntil p with
   | some (_, a, z, _), some e =>
     (sLe a t && sLt t (if x.ahead.isSome then z else e)) || x.ahead.any (fun h => sLe h.start t && sLt t e)
   | _, _ => false)

/-- CAUSE of a late descriptor at this edge (R136). -/
def State.lateCause (s : State) (p : Nat) (d : Desc) : Nat :=
  if !s.flowPermits p then 3 else if s.occupied p d.launch then 2 else 1

/-- The head of the queue completes LATE at this edge. -/
def State.lateHead (s : State) (p : Nat) (d : Desc) : State :=
  let cause := s.lateCause p d
  (s.modPort p (fun x => { x with queue := x.queue.drop 1, launchAt := none, launchOk := false })).txDone p d 1 cause none

/-- Descriptors that reach the head at this edge (R135, R136): a timed one whose commit edge is less than 4 DCLK ahead is
late, the next one follows; another waits for its edge. -/
def State.headReached (s : State) (p : Nat) : Nat → State
  | 0 => s
  | fuel + 1 =>
    let x := s.port p
    if !s.mayTransmit p || x.launchAt.isSome || (match x.sending with | some { job := .desc _, .. } => true | _ => false)
    then s else
    match x.queue with
    | [] => s
    | d :: _ =>
      if !d.timed then s else
      match s.commitEdge (txPin p) d.launch with
      | (some n, u) =>
        if s.now + 4 ≤ n ∧ x.waitUntil.all (fun w => sLe w d.launch) then
          s.modPort p (fun x => { x with launchAt := some (n, u), tx := if x.tx = .idle then .wait else x.tx })
        else (s.lateHead p d).headReached p fuel
      | (none, _) => (s.lateHead p d).headReached p fuel

/-- Look at the head of a port's queue. -/
def State.checkHead (s : State) (p : Nat) : State := s.headReached p ((s.port p).queue.length + 1)

/-- A transmitter that is not IDLE, or a descriptor queued (R432): OFF and STARVED transmitters hold nothing (DEDUCED, log
entry 33). -/
def Port.holds (x : Port) : Bool :=
  x.tx == .wait || x.tx == .send || x.tx == .flow || !x.queue.isEmpty || !x.replies.isEmpty

/-- Between jobs the transmitter rests in WAIT for a launch, else in IDLE (R140). A port that holds its octant no longer lets
the octant's timers start (R432, R434; log entry 30). -/
def State.restTx (s : State) (p : Nat) : State :=
  let t := s.modPort p (fun x =>
    if x.line.isSome || x.sending.isSome then x
    else if x.tx = .send ∨ x.tx = .flow ∨ x.tx = .wait ∨ x.tx = .idle then
      { x with tx := if x.launchAt.isSome then .wait else .idle }
    else x)
  if (s.port p).holds && !(t.port p).holds then t.octActive (octOfPort p) else t

/-- The decided timed launch starts: the line is free (R135). -/
def State.launchTimed (s : State) (p : Nat) : State :=
  match (s.port p).queue with
  | d :: rest =>
    (s.modPort p (fun x =>
      { x with queue := rest, launchAt := none, launchOk := false, sending := some { job := .desc d } })).beginNext p
        (s.port p).txSet d.launch (s.bitPeriod p)
  | [] => s

/-! ### Palette boundary and the end of a character -/

/-- SEQ of a transmit PROFILE record: the next number of the stream its ring carries for the port (R182, R192); where the
ring carries none, the spec names no stream, and it is a free value (log entry 3). -/
def State.txProfileSeq (s : State) (p n : Nat) : Word × State :=
  if (s.portRings p).contains n then (s.nextSeq p (s.ringPartner p n), s)
  else
    let (v, s) := s.takeFree
    (v.truncate 32, s)

/-- A waiting change takes effect for the transmitter (R162). -/
def State.txSwitch (s : State) (p : Nat) : State :=
  let set := s.portPalette p
  s.modPort p (fun x =>
    { x with txSet := set, txPalWaits := false,
             sending := x.sending.map (fun sd => { sd with profile := sd.profile || !sd.isDone }) })

/-- The transmit palette boundary at stamp `t` (R162), with its PROFILE record (R187, R192); a shadow waits for the primary's
(R224). -/
def State.txBoundary (s : State) (p : Nat) (t : Stamp) : State :=
  if !(s.port p).txPalWaits || s.shadowing then s else
  let s := s.txSwitch p
  let s := if s.mirrors then s.emit (.hinge (.event p (.boundary true t))) else s
  let n := s.txRing p
  let (seq, s) := s.txProfileSeq p n
  (s.formTx { uid := 0, ring := n, type := .profile, port := p, partner := 3, seq := seq, base := t,
              body := .raw (profileBody (s.port p).txSet 1) }).2

/-- A character has been sent whole (R133, R139, R144): counts, its echo, and its place among what occupied the line. -/
def State.charSent (s : State) (p : Nat) : State :=
  let x := s.port p
  match x.flowFlight with
  | some f =>
    let s := s.setPort p
      { x with flowFlight := none, spans := x.spans ++ [(f.start, f.end_)], lastSent := some f.end_, xoffTx := f.xoff }
    (s.countPort .wrap Reg.PT_TXCNT p).countPort .wrap Reg.PT_FCCNT_SENT p
  | none =>
    match x.sending with
    | some sd =>
      match sd.flight with
      | some (v, a, e) =>
        let s := s.setPort p
          { x with spans := x.spans ++ [(a, e)], lastSent := some e,
                   sending := some { sd with flight := none, sent := sd.sent + 1, lastEnd := e } }
        match sd.job with
        | .desc d =>
          if s.on Reg.PT_TXCFG_ECHO p then
            let (u, s) := s.echo p d v (d.addr && sd.sent == 0) (sd.seen.getD a)
            s.count .wrap Reg.PT_TXCNT p 1 [u]
          else s.countPort .wrap Reg.PT_TXCNT p
        | .reply _ => s.countPort .wrap Reg.PT_TXCNT p
      | none => s
    | none => s

/-- TXDONE of a job whose last character has ended, and what the transmitter does then (R140). -/
def State.finishJob (s : State) (p : Nat) : State :=
  match (s.port p).sending with
  | some sd => if sd.isDone && sd.flight.isNone then s.endJob p 0 0 else s
  | none => s

/-- The end of a character behind which a start is committed (R134, R140, R158, R162): the palette boundary lies here, and the
committed character keeps the settings of its commit unless the change came before that (log entry 99); a finished job
completes, the committed character is on the line, and the head of the queue is looked at (R135). -/
def State.startAhead (s : State) (p : Nat) (a : Ahead) (end_ : Stamp) : State :=
  let s := s.modPort p (fun x => { x with ahead := none })
  let old := (s.port p).txSet
  let s := s.txBoundary p end_
  let isOver := (s.port p).sending.any Sending.isDone
  let s := if isOver then
      (match (s.port p).stopAfter with
       | some 2 => (s.finishJob p).modPort p (fun x => { x with stopAfter := none })
       | some status => s.endJob p status 0
       | none => s.finishJob p)
    else s
  (s.start p a.what (if a.pal then (s.port p).txSet else old) a.start a.bit).checkHead p

/-- The character behind which PT_TXCFG_EN was written 0 has ended (R140): the port is OFF, and leaves it at once when EN reads
1 again and it owns its pin. -/
def State.stopDone (s : State) (p : Nat) : State :=
  if s.on Reg.PT_TXCFG_EN p && (s.pin (txPin p)).owner == .tx && !(s.pin (txPin p)).switchWaits then
    (s.endJob p 5 0).startTx p
  else s.stopTx p 5 .off

/-- The end of the character in flight (R133, R140): counts, a stop that waits for it, the palette boundary, the next
character. -/
def State.charEnd (s : State) (p : Nat) : State :=
  let end_ := ((s.port p).line.map (fun l => l.2.2.1)).getD s.stamp
  let s := (s.emitFrame p none).charSent p
  match (s.port p).ahead with
  | some a => s.startAhead p a end_
  | none =>
  let s := s.txBoundary p end_
  match (s.port p).stopAfter with
  | some status =>
    let s := if status = 2 then
        ((s.finishJob p).endJob p 2 0).modPort p (fun x => { x with stopAfter := none, tx := .idle })
      else s.stopDone p
    ((s.checkHead p).restTx p).startDue p
  | none =>
    let s := s.finishJob p
    let s := if (s.port p).launchOk && (s.port p).sending.isNone then s.launchTimed p else s
    ((s.checkHead p).restTx p).startDue p

/-! ### The commands -/

/-- Fields of a descriptor in a submission ring (R128, R176). -/
def parseDesc (n : Nat) (slot : Word) (b : List Byte) : Desc :=
  let h := ofLe (slice b 0 8)
  let fl := ofLe (slice b 30 1)
  { ring := n, slot := slot, port := h / 2 ^ 21 % 2048, partner := h / 2 ^ 19 % 4, tag := BitVec.ofNat 32 (h / 2 ^ 32),
    timed := fl.testBit 0, addr := fl.testBit 1, launch := BitVec.ofNat 64 (ofLe (slice b 8 8)),
    bufaddr := BitVec.ofNat 64 (ofLe (slice b 16 8)), len := ofLe (slice b 24 4), gap := ofLe (slice b 28 2) }

/-- A descriptor is invalid (R130). -/
def State.invalidDesc (s : State) (d : Desc) (b : List Byte) : Bool :=
  let x := s.portPalette d.port
  let set := if (s.port d.port).tx = .off ∨ (s.port d.port).tx = .starved then x else (s.port d.port).txSet
  (b.drop 31).any (· != 0) || decide (4 ≤ ofLe (slice b 30 1)) || d.len == 0 || decide (65536 < d.len) ||
  (set.data == 9 && d.len % 2 == 1) || decide (s.txSpace d.port < d.len) ||
  (set.addrMode == 0 && (d.partner != 0 || d.addr)) || s.rd Reg.PT_TXCFG_RING d.port != d.ring

/-- A valid descriptor takes its place in its port's queue (R131, R132, R147). -/
def State.queueDesc (s : State) (d : Desc) : State :=
  let s := s.modPort d.port (fun x => { x with queue := x.queue ++ [d] })
  let s := (s.wakeOct (octOfPort d.port) 3).octActive (octOfPort d.port)
  if (s.port d.port).queue.length = 1 then s.checkHead d.port else s

/-- DESCRIPTOR_FETCH (R130, R131, R147, R176): the next 64-byte slot of an ACTIVE submission ring has been read. -/
def execDescriptorFetch (n : RingIx) (bytes : List Byte) (s : State) : Host.Outcome State Fault Refusal :=
  let r := s.ring n.val
  if r.state = .active ∧ s.rd Reg.RG_CFG_KIND n.val = 0 ∧ r.issued ≠ r.host ∧ s.descHeld n.val < 128 ∧ s.mayRequest then
    let size := 2 ^ s.rd Reg.RG_CFG_LOG2 n.val
    let slot := BitVec.ofNat 32 (r.issued.toNat % size)
    let d : Desc := { parseDesc n.val slot bytes with num := r.issued }
    let s := s.setRing n.val { r with issued := r.issued + 1 }
    let s := s.wr Reg.RG_DEV (r.issued.toNat + 1) n.val
    let base := s.reg n.val 0x503 ++ (s.reg n.val 0x502 &&& 0xFFFFF000#32)
    let s := s.request.emit (.readReq (base + BitVec.ofNat 64 (64 * slot.toNat)) 64)
    if s.invalidDesc d (padTo 64 bytes) then .next (s.txDone d.port d 3 0 none) else
    let x := s.port d.port
    if x.tx = .starved then .next (s.txDone d.port d 4 0 none)
    else if x.tx = .off ∨ (x.stopAfter = some 5 ∧ !s.on Reg.PT_TXCFG_EN d.port) then .next (s.txDone d.port d 5 0 none)
    else
      let s := if s.mirrors then s.emit (.hinge (.descriptor d)) else s
      .next (s.queueDesc d)
  else .next s

/-- The first descriptor of a queue without data takes them. -/
def fillFirst (bytes : List Byte) : List Desc → List Desc
  | [] => []
  | d :: t => if d.data.isNone then { d with data := some bytes } :: t else d :: fillFirst bytes t

/-- TX_DATA_FETCHED (R132, R147): the data of the first descriptor of the port's queue that lacks them, when its LEN fits in
the free transmit space; after a takeover those of the descriptor in progress first (R261). -/
def execTxDataFetched (p : PortIx) (bytes : List Byte) (s : State) : Host.Outcome State Fault Refusal :=
  let x := s.port p.val
  match x.sending with
  | some { job := .desc ⟨ring, slot, num, port, partner, tag, timed, addr, launch, bufaddr, len, gap, none⟩, flight := none, .. } =>
    if bytes.length = len ∧ s.mayRequest then
      let d : Desc := ⟨ring, slot, num, port, partner, tag, timed, addr, launch, bufaddr, len, gap, some bytes⟩
      .next ((s.dataRead bufaddr len).modPort p.val (fun x =>
        { x with sending := x.sending.map (fun sd => { sd with job := .desc d }) }))
    else .next s
  | _ =>
  match x.queue.find? (fun d => d.data.isNone) with
  | some d =>
    if bytes.length = d.len ∧ s.txUsed p.val + d.len ≤ s.txSpace p.val ∧ s.mayRequest then
      .next ((s.dataRead d.bufaddr d.len).modPort p.val (fun x => { x with queue := fillFirst bytes x.queue }))
    else .next s
  | none => .next s

/-- TX_CHAR_START (R132, R134, R140 to R145, R160): time passes to the commit edge of the next start, and flow control
decides there; a start that CTS holds waits for the first edge at which CTS reads asserted, where the samples so far show
one. What follows a character without a wait is committed while that character is still on the line (R22). -/
def execTxCharStart (p : PortIx) (s : State) : Host.Outcome State Fault Refusal :=
  if !s.running then .next s else
  if (s.port p.val).line.isSome then .next (s.commitAhead p.val) else
  let n := s.nextStart p.val
  if n = .none then .next s else
  let e := s.startEdge p.val (s.earliestStart p.val n)
  let s := s.advance e.1
  let permitted := s.startPermitted p.val n
  let s := s.launch p.val n e.2
  if permitted then .next s else
  match s.ctsRelease p.val e.1 with
  | some r =>
    let s := s.advance r
    .next (s.launch p.val (s.nextStart p.val) (s.ballStamp (txPin p.val)))
  | none => .next s

/-- TIMED_DECIDE (R135, R136): at edge N - 4 the timed descriptor at the head is committed or late. The hold of R134 before an
address character is no condition of it (DESIGN CHOICE, log entry 103). -/
def execTimedDecide (p : PortIx) (s : State) : Host.Outcome State Fault Refusal :=
  if !s.running then .next s else
  match (s.port p.val).launchAt, (s.port p.val).queue with
  | some (n, _), d :: _ =>
    if !s.mayTransmit p.val || (s.port p.val).launchOk then .next s else
    let s := s.advance (n - 4)
    if d.ready && s.flowPermits p.val && !s.occupied p.val d.launch then
      if (s.port p.val).line.isSome || (s.port p.val).sending.isSome then
        .next (s.modPort p.val (fun x => { x with launchOk := true }))
      else .next (s.launchTimed p.val)
    else .next (((s.lateHead p.val d).checkHead p.val).restTx p.val)
  | _, _ => .next s

/-- TX_CHAR_END (R133, R140): at the first DCLK edge with C at or after the commanded end of the character in flight. -/
def execTxCharEnd (p : PortIx) (s : State) : Host.Outcome State Fault Refusal :=
  match (s.port p.val).line with
  | some (_, _, e, _) =>
    .next (if s.shadowing then s else ((s.advanceTo e).charEnd p.val).afterFlight p.val)
  | none => .next s

end Sys2Proof.Machine
end

