-- ==== Sys2Proof/Machine/Receive.lean ====
section
/-!
DEFINITION. The receive side (03_receive.md R69 to R94, 04_provisional.md R106 to R116, 05_transmit_flow_partners.md R145,
R150 to R152): the partner filter, confirmation, wins and their settlement, tracking, breaks, fallback, the frequency
meter, palette boundaries, and the commands that are its own events.
-/
namespace Sys2Proof.Machine

/-! ### Partner filter (R145, R150 to R152) -/

/-- What becomes of a character: removed as XON or XOFF, discarded, or delivered to a partner's stream; with the
selection after it and the flow signal it gives (`some true` for XOFF). -/
structure Sorted where
  removed : Bool := false
  into      : Option Nat := none
  addr    : Bool := false
  sel     : Option Nat := none
  flow    : Option Bool := none
  deriving DecidableEq, Repr

/-- The line held mark for at least F_b bit periods before the start (R150). -/
def idleBefore (x : Settings) (period : Nat) (last : Option Stamp) (c : Chr) : Bool :=
  match last.or c.markFrom with
  | some e => decide ((x.frame2 * period : Int) ≤ sDiff e c.t0 * 131072)
  | none => true

/-- A confirmed character is an address character (R150). -/
def Settings.isAddress (x : Settings) (period : Nat) (last : Option Stamp) (c : Chr) : Bool :=
  match x.addrMode with
  | 0 => false
  | 1 => c.data.getLsbD 8
  | _ => idleBefore x period last c

/-- The partner an address character selects (R151). -/
def State.selects (s : State) (p : Nat) (a : BitVec 9) : Option Nat :=
  let catch_ := s.on Reg.PT_PTCFG_CATCH p
  let hit := (List.range (if catch_ then 3 else 4)).find? (fun k =>
    let m := s.rd (Reg.PT_PTADDR_MASK.at k) p
    s.rd (Reg.PT_PTADDR_EN.at k) p == 1 && (a.toNat % 256) &&& m == (s.rd (Reg.PT_PTADDR_ADDR.at k) p) &&& m)
  match hit with
  | some k => some k
  | none => if catch_ then some 3 else none

/-- XOFF or XON recognised in a data character framed under these settings (R145; log entry 95). -/
def State.recognises (s : State) (p : Nat) (x : Settings) (c : Chr) : Option Bool :=
  let low := 2 ^ min 8 x.data
  if x.flow ≠ 2 ∨ c.fe ∨ c.pe ∨ c.noisy ∨ (x.data = 9 ∧ c.data.getLsbD 8) then none
  else if c.data.toNat % low = s.rd Reg.PT_FCCFG_XOFF p % low then some true
  else if c.data.toNat % low = s.rd Reg.PT_FCCFG_XON p % low then some false
  else none

/-- The filter as a function of the settings that framed the character, the selection and the end of the frame before (R108,
R145, R150 to R152). -/
def State.sortChar (s : State) (p : Nat) (x : Settings) (sel : Option Nat) (last : Option Stamp) (period : Nat) (c : Chr) :
    Sorted :=
  if x.isAddress period last c then
    let k := s.selects p c.data
    { into := if s.on Reg.PT_PTCFG_KEEPADDR p then k else none, addr := true, sel := k }
  else
    let f := s.recognises p x c
    if f.isSome && !s.on Reg.PT_FCCFG_KEEPXO p then { removed := true, sel := sel, flow := f }
    else { into := if x.addrMode = 0 then some 0 else sel, sel := sel, flow := f }

/-! ### Confirmation (R87, R113, R122, R146, R149, R216) -/

/-- End of a frame: t0 + F_b * P (R150). -/
def Settings.endOf (x : Settings) (period : Nat) (c : Chr) : Stamp := x.frameEnd c.t0 period

/-- Counts of one confirmed character, which wait for the event that carries it (R87, R97, R216). -/
def State.countChar (s : State) (p : Nat) (c : Chr) (u : Option Nat) : State :=
  let s := s.countEvent .wrap Reg.PT_RXCNT p 1 u
  let s := if c.fe then s.countEvent .sat Reg.PT_RXERR1_FE p 1 u else s
  let s := if c.pe then s.countEvent .sat Reg.PT_RXERR1_PE p 1 u else s
  if c.noise then s.countEvent .sat Reg.PT_RXERR2_NOISE p 1 u else s

/-- A sorted character takes the next number of its stream, a place in the session, and receive space unless its Varnish
carries it (R111 to R113, R146, R191, R453). Answers its event and its number. -/
def State.deliver (s : State) (p k : Nat) (set : Settings) (c : Chr) (addr win : Bool) (varnish : Option (Option Nat)) :
    Option Nat × Word × State :=
  let x := s.port p
  let seq := x.seq k
  let s := s.setPort p (x.withSeq k (seq + 1))
  let cf := cflagsOf c.fe c.pe c.noise (set.d8 c.data) addr false win x.replay
  let flags := BitVec.ofNat 8 (c.fe.toNat + 2 * c.pe.toNat + 4 * c.noise.toNat + 8 * addr.toNat)
  match varnish with
  | some u =>
    let s := match u with | some u => s.storeVarnished p k u c.stamp | none => s
    (u, seq, s.element p ⟨k, flags, c.data, seq, c.stamp⟩)
  | none =>
    let (u, s) := s.store p (.chr c k (s.partnerRing p k) seq cf set.compact) c.stamp 8 true [(k, seq)]
    (u, seq, s.element p (if u.isSome then ⟨k, flags, c.data, seq, c.stamp⟩ else ⟨k, 16, 0, seq, c.stamp⟩))

/-- The die's XOFF or XON takes effect (R145). -/
def State.takeFlow (s : State) (p : Nat) (f : Option Bool) : State :=
  match f with
  | some b => (s.modPort p (fun x => { x with xoffRx := b })).countPort .wrap Reg.PT_FCCNT_RECV p
  | none => s

/-- What a decision block says of a character (R243). -/
def Chr.blockEntry (c : Chr) : BlockEntry :=
  ⟨1, c.data.zeroExtend 32, BitVec.ofNat 8 (c.fe.toNat + 2 * c.pe.toNat + 4 * c.noisy.toNat), [c.stamp]⟩

/-- A character framed under these settings is confirmed (R21 stages 6 to 8): filter, flow recognition, Cue, counters, receive
space, flow decision. -/
def State.confirmChar (s : State) (p : Nat) (set : Settings) (c : Chr) (period : Nat) (win : Bool)
    (varnish : Option (Option Nat) := none) : State :=
  let c := { c with noise := c.noisy, wide := false }
  let x := s.port p
  let o := s.sortChar p set x.sel x.lastFrameEnd period c
  let s := s.setPort p { x with sel := o.sel, lastFrameEnd := some (set.endOf period c) }
  let s := s.noteBlock p c.blockEntry
  let bad := c.fe || c.pe || c.noise
  match o.into with
  | some k =>
    let (u, seq, s) := s.deliver p k set c o.addr win (if s.earlyStream p k then varnish else none)
    let s := s.takeFlow p o.flow
    let s := if bad then s.emptyWindows p else if o.addr then s else s.cueChar p k c seq
    (s.countChar p c u).flowConfirm p
  | none =>
    let s := s.takeFlow p o.flow
    let s := if bad then s.emptyWindows p else s
    let s := if o.removed || o.addr then s else s.countPort .sat Reg.PT_PTDISC p
    (s.countChar p c none).flowConfirm p

/-! ### Offers (R83, R105 to R108) -/

/-- Give serials to the characters of an offer that the provisional filter does not remove. -/
def State.showChars (s : State) (p period : Nat) : List Chr → Acquisition → Word → List Shown →
    List Shown × Acquisition × Word
  | [], a, n, acc => (acc.reverse, a, n)
  | c :: t, a, n, acc =>
    let c := { c with noise := c.noisy }
    let o := s.sortChar p (s.port p).set a.provSel a.provEnd period c
    let a := { a with provSel := o.sel, provEnd := some ((s.port p).set.endOf period c) }
    if o.removed then s.showChars p period t a n acc
    else s.showChars p period t { a with lastOffer := some c.t0 } (n + 1) (⟨n, c, o.into, []⟩ :: acc)

/-- The port offers what its leader has completed after the last offer, but for characters whose check closes the decision
on `closing` at this edge (R83, R106). -/
def State.offer (s : State) (p : Nat) (closing : Option Stamp) : State :=
  let x := s.port p
  match x.acq with
  | none => s
  | some a =>
    if (s.earlyRings p).isEmpty || s.shadowing then s else
    let lead := a.lanes.getD a.leader {}
    let cs := lead.done.filter (fun c => a.lastOffer.all (fun l => sLt l c.t0) && closing != some c.t0)
    let (shown, a, n) := s.showChars p lead.period cs a x.serial []
    let s := s.setPort p { x with acq := some { a with shown := a.shown ++ shown }, serial := n }
    s.formProv p a.leader shown

/-! ### The win (R85, R110 to R116) -/

/-- The winner's characters as the confirmed filter sorts them. -/
def State.sortAll (s : State) (p period : Nat) : Option Nat → Option Stamp → List Chr → List (Chr × Sorted)
  | _, _, [] => []
  | sel, last, c :: t =>
    let c := { c with noise := c.noisy, wide := false }
    let o := s.sortChar p (s.port p).set sel last period c
    (c, o) :: s.sortAll p period o.sel (some ((s.port p).set.endOf period c)) t

/-- A shown character agrees with one of the winner (R110). -/
def Shown.agrees (x : Shown) (w : Chr × Sorted) : Bool :=
  x.chr.stamp == w.1.stamp && x.chr.data == w.1.data && x.chr.fe == w.1.fe && x.chr.pe == w.1.pe &&
  x.chr.noise == w.1.noise && x.partner == w.2.into

/-- The longest agreeing start of two lists (R111). -/
def agreement : List Shown → List (Chr × Sorted) → Nat
  | x :: xs, w :: ws => if x.agrees w then agreement xs ws + 1 else 0
  | _, _ => 0

/-- NEXTSEQ0 to NEXTSEQ3 of a Varnish in a ring (R120). -/
def State.nextSeqs (s : State) (p n : Nat) : List Word :=
  (List.range 4).map (fun k =>
    if (s.streams p).contains k && s.partnerRing p k == n then s.nextSeq p k else 0xFFFFFFFF#32)

/-- The settlement of a win (R111, R112, R120, R121, R127): Varnish, Pentimento and their counts. The characters the Varnish
carries are still to be confirmed. -/
def State.settleWin (s : State) (p : Nat) (w : Settlement) : State :=
  let rings := s.settlingRings p w.shown
  let (vu, s) := s.settleEntry p .varnish w.first w.base (rings.map (fun n =>
    (n, varnishBody w.first (w.first + BitVec.ofNat 32 w.agreed - 1) w.lane (shownIn n (w.shown.take w.agreed))
      (s.nextSeqs p n) w.period w.stamp)))
  let gone := w.shown.drop w.agreed
  let (pu, s) : Option Nat × State :=
    match gone.head?, gone.getLast? with
    | some f, some l => s.settleEntry p .pentimento f.serial w.base (rings.map (fun n =>
        (n, pentimentoBody f.serial l.serial w.lane 1 (shownIn n gone)
          (w.behind.filter (fun k => k.any (fun k => s.partnerRing p k == n))).length w.stamp)))
    | _, _ => (none, s)
  let s := s.countEvent .wrap Reg.PT_PVWIN p 1 vu
  let s := if w.agreed = 0 then s else s.countEvent .wrap Reg.PT_PVVARN p w.agreed vu
  let s := if gone.isEmpty then s else s.countEvent .wrap Reg.PT_PVRETR p gone.length pu
  s.modPort p (fun x => { x with varnishing := (w.agreed, vu) })

/-- A character of a winner is confirmed: the first ones that are delivered or discarded are those the Varnish carries (R111). -/
def State.confirmWon (s : State) (p : Nat) (set : Settings) (period : Nat) (c : Chr) : State :=
  let x := s.port p
  if x.varnishing.1 = 0 ∨ (s.sortChar p set x.sel x.lastFrameEnd period { c with noise := c.noisy, wide := false }).removed then
    s.confirmChar p set c period true
  else
    (s.modPort p (fun x => { x with varnishing := (x.varnishing.1 - 1, x.varnishing.2) })).confirmChar p set c period true
      (some x.varnishing.2)

/-- The tracker seeded from the winner (R87). -/
def Port.track (x : Port) (lane period : Nat) (w : Decoder) : Port :=
  { x with rx := if x.rx = .held then .held else .track, rxHeld := if x.rx = .held then .track else x.rxHeld, acq := none,
           trk := { period := period, cur := w.cur, sawMark := w.sawMark }, feRun := 0, meter := {}, winner := lane }

/-- What settles the shown list when a lane wins at the present edge (R110, R111). With no character kept, the base stamp of the
Varnish is that of the first character removed, else the win's (DESIGN CHOICE, log entry 98). -/
def State.settlement (s : State) (p lane : Nat) (x : Port) (a : Acquisition) (w : Decoder) : Settlement :=
  let all := s.sortAll p w.period x.sel x.lastFrameEnd w.done
  let kept : List (Chr × Sorted) := all.filter (fun y => !y.2.removed)
  let j := agreement a.shown kept
  { lane := lane, period := w.period, stamp := s.stamp, base := ((kept.head?.or all.head?).map (·.1.stamp)).getD s.stamp,
    first := if j = 0 then x.serial else ((a.shown.head?.map (·.serial)).getD x.serial), agreed := j, shown := a.shown,
    behind := (kept.drop j).map (·.2.into) }

/-- The win of a lane at the present edge (R85): the settlement, then the confirmation of its characters, and the seeded
tracker; the primary reports it (R248). -/
def State.win (s : State) (p lane : Nat) : State :=
  let x := s.port p
  match x.acq with
  | none => s
  | some a =>
    let w := a.lanes.getD lane {}
    let y := s.settlement p lane x a w
    let s := if s.mirrors then s.emit (.hinge (.event p (.win lane y.stamp y.period y.base y.first y.agreed))) else s
    let s := (s.dropProv p).settleWin p y
    let s := s.modPort p (fun x => x.track lane w.period w)
    w.done.foldl (fun s c => s.confirmWon p x.set w.period c) s

/-! ### Ranking and decisions (R82 to R84) -/

/-- What follows the stop-bit checks of one DCLK edge: the ranking, a decision that opens or closes, offers, a win.
`done` are the lanes that completed a check at this edge. -/
def State.afterChecks (s : State) (p : Nat) (done : List Nat) : State :=
  let x := s.port p
  match x.acq with
  | none => s
  | some a =>
    let ls := numbered a.lanes
    let leader := ((topLane x.set ls).map (·.1)).getD a.leader
    let k := x.set.confirm
    let reached := ((ls.filter (fun l => done.contains l.1 && decide (k ≤ l.2.run))).filterMap
      (fun l => l.2.done.getLast?.map (·.t0)))
    let opened := match a.decision with
      | some d => some d
      | none => (earliest reached).map (fun t0 =>
          ⟨t0, (ls.filter (fun l => decide (k - 1 ≤ l.2.run) &&
            (l.2.cur.any (fun f => f.t0 == t0) || l.2.done.any (fun c => c.t0 == t0)))).map (·.1)⟩)
    let closes := opened.any (fun d =>
      d.contenders.all (fun i => !((a.lanes.getD i {}).cur.any (fun f => f.t0 == d.t0))))
    let s := s.setPort p { x with acq := some { a with leader := leader, decision := opened } }
    if closes && !s.shadowing then
      let winner := topLane x.set (ls.filter (fun l =>
        opened.any (fun d => d.contenders.contains l.1) && decide (k ≤ l.2.run)))
      let s := s.offer p (opened.map (·.t0))
      match winner with
      | some w => s.win p w.1
      | none => s.modPort p (fun x => { x with acq := x.acq.map (fun a => { a with decision := none }) })
    else s.offer p none

/-! ### Frequency meter (R91) -/

/-- A confirmed character of TRACK without FE and NOISE adds to the gate, and fills it from `gate` transitions on. The stamp of
a gate's last transition is its transition instant (log entry 96). -/
def Meter.add (x : Settings) (period gate : Nat) (f : Frame) (m : Meter) : Meter :=
  let m := (f.scored x period).foldl (fun m e =>
    let n := bitIndex period (f.offset e)
    if n = 0 then m
    else { m with sumD := m.sumD + f.offset e, sumN := m.sumN + n, edges := m.edges + 1, last := e.t }) m
  { m with full := decide (gate ≤ m.edges) }

/-- A stop-bit check has filled the gate: it closes. -/
def State.gateDue (s : State) (p : Nat) : Bool := (s.port p).meter.full && (s.port p).rxNow == .track

/-- Body of a METER record (R187). -/
def meterBody (r : MeterResult) : List Byte :=
  leBytes 8 r.period ++ leBytes 4 r.ppm.toNat ++ leBytes 4 r.edges ++ leBytes 2 r.seq.toNat

/-- The gate closes (R91): the result set, which shows once its event is committed (R216), the METER record, a new gate. -/
def State.closeGate (s : State) (p : Nat) : State :=
  let x := s.port p
  let m := x.meter
  let per := roundDiv (m.sumD * 65536) (max 1 m.sumN)
  let ppm := roundDivInt (((x.set.nominal : Int) - (per : Int)) * 1000000) (max 1 per)
  let r : MeterResult := ⟨per, BitVec.ofInt 32 ppm, m.edges, m.last, x.result.seq + 1⟩
  let s := s.setPort p { x with meter := {}, result := r }
  let (u, s) := if s.on Reg.PT_RXCFG_FMREC p then s.portEntry p .meter r.stamp (meterBody r) else (none, s)
  let set := fun (s : State) (f : Fld) (v : Nat) => s.countEvent .set f p v u
  let s := set s Reg.PT_FM_PER_LO (per % 2 ^ 32)
  let s := set s Reg.PT_FM_PER_HI (per / 2 ^ 32)
  let s := set s Reg.PT_FM_PPM r.ppm.toNat
  let s := set s Reg.PT_FM_STAMP_LO (r.stamp.toNat % 2 ^ 32)
  let s := set s Reg.PT_FM_STAMP_HI (r.stamp.toNat / 2 ^ 32)
  let s := set s Reg.PT_FM_EDGES (min r.edges (2 ^ 24 - 1))
  set s Reg.PT_FM_SEQ r.seq.toNat

/-! ### Fallback (R86) -/

/-- The DCLK edge at which the core acts on what the line showed at a stamp: 16 DCLK after its sampling edge (R21, R75), or
the present one for what a replay passes (R93). -/
def State.coreEdge (s : State) (p : Nat) (t : Stamp) : Nat :=
  let n := s.edgeOf (s.toSampler (rxPin p) t) + 16
  if (s.port p).replay && (s.port p).replayEnd.all (fun e => decide (n ≤ e)) then s.now else max s.now n

/-- Lanes whose character in progress is due for its stop-bit check, with the check edges (R75). -/
def State.laneChecks (s : State) (p : Nat) (x : Port) (a : Acquisition) : List (Nat × Nat × Stamp) :=
  (numbered a.lanes).filterMap (fun l =>
    match l.2.cur with
    | some f => if f.held then none else
        let c := f.centre x.set l.2.period
        some (l.1, s.coreEdge p c, c)
    | none => none)

/-- A stop-bit check of a lane falls at the present edge, and the last acquisition character was accepted at it: a decision
that this check opens counts as open (R86). -/
def State.checkFirst (s : State) (p : Nat) (x : Port) (a : Acquisition) : Bool :=
  decide (a.startAt = s.now) && (s.laneChecks p x a).any (fun l => l.2.1 == s.now)

/-- 65 acquisition characters and no decision open. -/
def State.fallbackDue (s : State) (p : Nat) : Bool :=
  match (s.port p).acq with
  | some a => decide (65 ≤ a.starts.length) && a.decision.isNone && !s.shadowing &&
      ((s.port p).rx == .acq || (s.port p).rx == .reacq) && !s.checkFirst p (s.port p) a
  | none => false

/-- One edge record (R86, R187). -/
def State.edgeRecord (s : State) (p : Nat) (e : PinEvent) : State :=
  (s.portEntry p .edge e.s1 ([if e.toMark (s.port p).set then 1#8 else 0#8] ++ List.replicate 7 0 ++
    leBytes 8 e.s2.toNat)).2

/-- The transitions that the recorder of a port still holds of those it has consumed. -/
def State.consumed (s : State) (p : Nat) : List PinEvent :=
  let q := s.pin (rxPin p)
  (q.recorder.take (q.recorder.length - q.fresh)).filter (fun e => !e.glitch)

/-- The port is EDGE_ONLY: an edge record for every transition held, the alert and its count (R86). -/
def State.goEdgeOnly (s : State) (p : Nat) : State :=
  let evs := s.consumed p
  let s := s.modPort p (fun x => { x with rx := .edgeOnly, acq := none, breaking := none })
  let s := evs.foldl (fun s e => s.edgeRecord p e) s
  (s.setAlert p Reg.PT_RXSTAT_ALERT_FB 269).countPort .sat Reg.PT_RXERR2_FALLBACK p

/-- The edge-only fallback: the Pentimento, and what follows it (R86, R118). -/
def State.fallBack (s : State) (p : Nat) : State :=
  (s.endAcquisition p 3 (((s.consumed p).head?.map (·.s1)).getD s.stamp)).goEdgeOnly p

/-- What is due on a port at this edge before anything later: a full gate closes, a fallback takes place. -/
def State.ripen (s : State) (p : Nat) : State :=
  let s := if s.gateDue p then s.closeGate p else s
  if s.fallbackDue p then s.fallBack p else s

/-! ### Palette boundary and re-acquisition (R69 to R71, R90) -/

/-- Act on a port's receive state whether or not it is frozen in HELD (R93). -/
def Port.inside (f : Port → Port) (x : Port) : Port :=
  if x.rx = .held then
    let y := f { x with rx := x.rxHeld }
    { y with rxHeld := y.rx, rx := .held }
  else f x

/-- A REACQ under a direct entry leaves a port in TRACK there, and its partial gate (R90, R91). -/
def Port.restartKept (x : Port) (now : Nat) : Port :=
  let y := x.restart now
  if x.rx = .track ∧ y.rx = .track then { y with meter := x.meter } else y

/-- New settings take effect for a port at a boundary, edge `n` and its stamp (R70, R71): it starts afresh when the rates change,
and as a REACQ does when `afresh` says so. A character that starts at the stamp or before keeps the old ones (R69). -/
def Port.switchSet (x : Port) (new : Settings) (afresh : Bool) (n : Nat) (stamp : Stamp) : Port :=
  let old := x.set
  let rates := new.period != old.period || new.rangeA != old.rangeA || new.lanes != old.lanes
  let x : Port := { x with set := new, setOld := some (stamp, old), palWaits := false }
  if rates then x.restart n else if afresh then x.restartKept n else x

/-- A port follows a change of its flow mode (R142 to R144). -/
def State.flowChanged (s : State) (p : Nat) (new old : Settings) : State :=
  if new.flow = old.flow then s else (s.resolve (p / 2)).compareFlow p

/-- New settings take effect at this edge (R70, R71, R151), with the PROFILE record of the boundary; the primary reports it
(R224, R248). -/
def State.applySettings (s : State) (p : Nat) (afresh : Bool) : State :=
  let new := s.portPalette p
  let old := (s.port p).set
  let s := s.modPort p (Port.inside (fun x =>
    ({ x with sel := if new.addrMode = old.addrMode then x.sel else none } : Port).switchSet new afresh s.now s.stamp))
  let s := if s.mirrors then s.emit (.hinge (.event p (.boundary false s.stamp))) else s
  (s.rxProfile p s.stamp).flowChanged p new old

/-- A waiting change reaches its boundary (R69); a shadow waits for the primary's (R224). -/
def State.rxBoundary (s : State) (p : Nat) : State :=
  if (s.port p).palWaits && !s.shadowing then s.applySettings p false else s

/-- A palette change is accepted for a port (R69, R71); in HELD it acts on the frozen state (DESIGN CHOICE, log entry 94). A
shadow waits for the primary's boundary (R224, R248). -/
def State.rxPalChange (s : State) (p : Nat) : State :=
  let x := s.port p
  match x.rxNow with
  | .off | .starved | .held => s
  | .track =>
    if s.shadowing || x.trk.cur.isSome then s.modPort p (fun x => { x with palWaits := true })
    else s.applySettings p false
  | _ =>
    if s.shadowing then s.modPort p (fun x => { x with palWaits := true })
    else (s.abandon p).applySettings p true

/-- The transmit side of an accepted change (R162). -/
def State.txPalChange (s : State) (p : Nat) : State :=
  let x := s.port p
  if x.tx = .off ∨ x.tx = .starved then s
  else
    let s := s.modPort p (fun x => { x with txPalWaits := true })
    if x.line.isSome then s else s.txBoundary p s.stamp

/-- REACQ acts at this edge (R90); a shadow that acquires waits for the primary's ending (R248). -/
def State.reacq (s : State) (p : Nat) : State :=
  let x := s.port p
  match x.rx with
  | .off | .starved => s
  | .held => s.modPort p (fun x => { x with reacqHeld := true })
  | _ =>
    if s.shadowing && x.acq.isSome then s else
    let s := s.abandon p
    if x.palWaits && !s.shadowing then s.applySettings p true
    else s.modPort p (fun x => x.restartKept s.now)

/-! ### Tracking (R87 to R89) -/

/-- The second consecutive character with FE starts a re-acquisition from its own start transition (R89). -/
def State.reacquire (s : State) (p : Nat) (f : Frame) (sawAll : List PinEvent) : State :=
  let s := (s.setAlert p Reg.PT_RXSTAT_ALERT_RA 270).countPort .sat Reg.PT_RXERR2_REACQ p
  s.modPort p (fun x =>
    let a := freshAcq x.set x.sel x.lastFrameEnd s.now
    let lane : Decoder → Decoder := fun d =>
      { d with cur := some { t0 := f.t0, stamp := f.stamp, evs := sawAll, markFrom := f.markFrom } }
    { x with rx := .reacq, trk := {}, feRun := 0, meter := {}, setOld := none,
             acq := some { a with lanes := a.lanes.map lane, starts := [f.t0], startAt := s.now } })

/-- The tracker confirms a character (R87, R89, R91): its update, the meter, the run of FE. In a shadow the character waits for
the primary's decision (R245). -/
def State.trackConfirm (s : State) (p : Nat) (f : Frame) (c : Chr) : State :=
  let x := s.port p
  let set := x.setAt f.t0
  let period := x.trk.period
  let s := if s.shadowing then s.noteOwn p (.chr c set period false) else s.confirmChar p set c period false
  let two := c.fe && decide (0 < x.feRun) && x.set.direct
  s.modPort p (fun y =>
    { y with
      trk := { y.trk with period := if two then y.set.nominal else trackUpdate set period f c,
                          cur := none, sawMark := !c.fe && !two },
      feRun := if c.fe && !two then 1 else 0,
      meter := if c.fe || c.noise then y.meter else y.meter.add set period (s.rd Reg.PT_FMGATE p) f })

/-- Events reach the tracker while no character is held: each under the settings of its instant (R69, R74). -/
def Port.feedTracker (x : Port) (es : List PinEvent) : Port :=
  { x with trk := es.foldl (fun d e => d.feed (x.setAt e.t) e) x.trk }

/-- A tracked character completes (R89): confirmed, or the start of a re-acquisition unless the entry is direct or a
palette change waits for this boundary (R96; DEDUCED, log entry 20). `after` are the events behind it. -/
def State.trackDone (s : State) (p : Nat) (f : Frame) (after : List PinEvent) : State :=
  let x := s.port p
  let set := x.setAt f.t0
  let c := ({ f with evs := f.evs ++ after } : Frame).decode set x.trk.period true
  if c.fe && decide (0 < x.feRun) && !x.set.direct && !(x.palWaits && !s.shadowing) then s.reacquire p f (f.evs ++ after)
  else
    let s := s.trackConfirm p f c
    (s.modPort p (fun y => y.feedTracker after)).rxBoundary p

/-! ### Breaks (R76, R77, R151, R155) -/

/-- A confirmed break clears the selection, the memory of the last frame, and the windows (R150, R151, R155). -/
def State.breakClears (s : State) (p : Nat) : State :=
  (s.modPort p (fun x => { x with sel := none, lastFrameEnd := none })).emptyWindows p

/-- A break is decided: no character of it is completed; the selection and the windows are cleared, in a shadow with the primary's
decision (R245). -/
def State.breakDecided (s : State) (p : Nat) (t0 stamp : Stamp) : State :=
  let drop : Decoder → Decoder := fun d =>
    if d.cur.any (fun f => f.t0 == t0) then { d with cur := none, sawMark := false } else d
  let s := s.modPort p (fun x =>
    { x with breaking := some (t0, stamp), feRun := 0, trk := drop x.trk,
             acq := x.acq.map (fun a => { a with lanes := a.lanes.map drop, provSel := none, provEnd := none,
                                                 decision := a.decision.filter (fun d => d.t0 != t0) }) })
  if s.shadowing then s else s.breakClears p

/-- The return to mark ends a break: its record and its count (R76, R187). -/
def State.breakRecord (s : State) (p : Nat) (stamp ret : Stamp) : State :=
  let s := s.modPort p (fun x => { x with breaking := none })
  let (u, s) := s.portEntry p .brk stamp (leBytes 8 ret.toNat)
  if s.shadowing then s else
  s.countEvent .sat Reg.PT_RXERR2_BREAK p 1 u

/-- The frame that may be a break: its start, and no return to mark since (R76). -/
def Frame.low (x : Settings) (f : Frame) : Bool := f.evs.all (fun e => !e.toMark x)

/-- The break candidate of a port and the bit period that judges it: the tracked one, or the slowest hypothesis (R76). -/
def Port.candidate (x : Port) : Option (Frame × Nat) :=
  match x.rx with
  | .track => (x.trk.cur.filter (fun f => f.low (x.setAt f.t0))).map (fun f => (f, x.trk.period))
  | .acq | .reacq =>
    match x.acq with
    | some a => ((a.lanes.filterMap (fun d => d.cur.filter (Frame.low x.set))).head?).map (fun f => (f, x.set.slowest))
    | none => none
  | _ => none

/-! ### Events at the core -/

/-- The fresh entries of a recorder, oldest first (R92). -/
def Pin.unread (x : Pin) : List PinEvent := x.recorder.drop (x.recorder.length - x.fresh)


/-- Every transition up to a stamp has reached the core (R75). -/
def State.caughtUp (s : State) (p : Nat) (t : Stamp) : Bool :=
  (s.pin (rxPin p)).unread.all (fun e => sLt t e.t)

/-- The tracker takes an event. -/
def State.trackEvent (s : State) (p : Nat) (e : PinEvent) : State :=
  let x := s.port p
  match x.trk.cur with
  | some f =>
    let set := x.setAt f.t0
    if f.held && e.toMark set then
      if breakBy set x.trk.period f.t0 e.t then (s.breakDecided p f.t0 f.stamp).breakRecord p f.stamp e.s1
      else s.trackDone p { f with evs := f.evs ++ [e] } []
    else s.modPort p (fun x => x.feedTracker [e])
  | none =>
    match x.breaking with
    | some (t0, st) => if e.toMark (x.setAt t0) then s.breakRecord p st e.s1 else s
    | none => s.modPort p (fun x => x.feedTracker [e])

/-- Start transitions that lanes accept at an edge: each counts once as an acquisition character (R86). -/
def Acquisition.accept (a : Acquisition) (ts : List Stamp) (now : Nat) : Acquisition :=
  let new := (ts.filter (fun t => !a.starts.contains t)).eraseDups
  if new.isEmpty then a else { a with starts := a.starts ++ new, startAt := now }

/-- The lanes take an event. -/
def State.laneEvent (s : State) (p : Nat) (e : PinEvent) : State :=
  let x := s.port p
  match x.acq with
  | none => s
  | some a =>
    let broke := a.lanes.filterMap (fun d => d.cur.filter (fun f =>
      f.held && e.toMark x.set && breakBy x.set x.set.slowest f.t0 e.t))
    match broke.head? with
    | some f => (s.breakDecided p f.t0 f.stamp).breakRecord p f.stamp e.s1
    | none =>
      let s := match x.breaking with
        | some (_, st) => if e.toMark x.set then s.breakRecord p st e.s1 else s
        | none => s
      let ls := numbered a.lanes
      let back := if e.toMark x.set then (ls.filter (fun l => l.2.holds)).map (·.1) else []
      let lanes := ls.map (fun l => if back.contains l.1 then l.2.laneReturn x.set l.1 e else l.2.feed x.set e)
      let began := (lanes.zip a.lanes).any (fun l => l.2.cur.isNone && l.1.cur.any (fun f => f.t0 == e.t))
      let s := s.modPort p (fun x =>
        { x with acq := some (({ a with lanes := lanes } : Acquisition).accept (if began then [e.t] else []) s.now) })
      if back.isEmpty then s else s.afterChecks p back

/-- Stamps of the first and the last lost transition (R92): free values when nothing but glitches was lost (log entry 3). -/
def State.lostStamps (s : State) (q : Pin) : Stamp × Stamp × State :=
  if q.lost = 0 then
    let (a, s) := s.takeFree
    let (b, s) := s.takeFree
    (a, b, s)
  else (q.lostFirst, q.lostLast, s)

/-- The overflow record of what was lost, and its consequence (R92, R94). -/
def State.overflow (s : State) (p : Nat) : State :=
  let q := s.pin (rxPin p)
  if !q.isOver then s else
  let s := s.setPin (rxPin p) { q with isOver := false, lost := 0 }
  let (first, last, s) := s.lostStamps q
  let s := (s.portEntry p .overflow first (leBytes 4 q.lost ++ leBytes 4 0 ++ leBytes 8 last.toNat)).2
  match (s.port p).rx with
  | .track => s.modPort p (fun x => { x with trk := { x.trk with cur := none, sawMark := false }, breaking := none })
  | .acq | .reacq => if s.shadowing then s else (s.abandon p).modPort p (fun x => x.restart s.now)
  | _ => s

/-- What a replay has passed no longer takes the port along from edge `n` on: it joins the live transitions (R93). -/
def State.joinLive (s : State) (p n : Nat) : State :=
  if (s.port p).replay && (s.port p).replayEnd.any (fun e => decide (e < n)) then
    s.modPort p (fun x => { x with replay := false, replayEnd := none })
  else s

/-- The edge at which the oldest unread entry reaches the core (R21, R93): during a replay 2 DCLK after the one before, unless
it is still on its way there, which ends the replay. -/
def State.entryEdge (s : State) (p : Nat) (e : PinEvent) : Nat :=
  if (s.port p).replay && (s.port p).replayEnd.isNone then max (s.now + 2) (e.edge + 16) else e.edge + 16

/-- The oldest unread entry reaches the receive engine. -/
def State.takeEntry (s : State) (p : Nat) (e : PinEvent) : State :=
  let s := s.modPin (rxPin p) (fun q => { q with fresh := q.fresh - 1 })
  let s := match (s.port p).rx with
    | .track => s.trackEvent p e
    | .acq | .reacq => s.laneEvent p e
    | .edgeOnly => if e.glitch then s else s.edgeRecord p e
    | _ => s
  if (s.pin (rxPin p)).fresh = 0 && (s.port p).replay then s.modPort p (fun x => { x with replayEnd := some s.now }) else s

/-- The next stop-bit check of a port: its edge, and the last centre it needs (R75). -/
def State.nextCheck (s : State) (p : Nat) : Option (Nat × Stamp) :=
  let x := s.port p
  match x.rx with
  | .track =>
    match x.trk.cur with
    | some f => if f.held then none else
        let c := f.centre (x.setAt f.t0) x.trk.period
        some (s.coreEdge p c, c)
    | none => none
  | .acq | .reacq =>
    match x.acq with
    | some a =>
      (s.laneChecks p x a).foldl (fun b l => match b with
        | none => some (l.2.1, l.2.2)
        | some c => if l.2.1 < c.1 then some (l.2.1, l.2.2)
                    else if l.2.1 = c.1 then some (c.1, sMax c.2 l.2.2) else b) none
    | none => none
  | _ => none

/-- The stop-bit checks of a port at edge `n`, which is the present one (R75 to R85). -/
def State.checkAt (s : State) (p n : Nat) : State :=
  let x := s.port p
  match x.rx with
  | .track =>
    match x.trk.cur with
    | some f =>
      let set := x.setAt f.t0
      let after := f.leftover set x.trk.period
      let f := { f with evs := f.evs.filter (fun e => !after.contains e) }
      if f.allSpace set x.trk.period then
        let s := s.modPort p (fun x => { x with trk := { x.trk with cur := some { f with held := true } } })
        after.foldl (fun s e => s.trackEvent p e) s
      else s.trackDone p f after
    | none => s
  | .acq | .reacq =>
    match x.acq with
    | some a =>
      let due := ((s.laneChecks p x a).filter (fun l => l.2.1 == n)).map (·.1)
      let lanes := (numbered a.lanes).map (fun l => if due.contains l.1 then l.2.laneCheck x.set l.1 else l.2)
      let done := due.filter (fun i => (a.lanes.getD i {}).done.length < (lanes.getD i {}).done.length)
      let s := s.setPort p { x with
        acq := some (({ a with lanes := lanes } : Acquisition).accept (lanes.filterMap (fun d => d.cur.map (·.t0))) s.now) }
      if done.isEmpty then s else s.afterChecks p done
    | none => s
  | _ => s

/-- The next check takes place when every transition before it has reached the core. -/
def State.runCheck (s : State) (p : Nat) : State :=
  match s.nextCheck p with
  | some (n, c) =>
    if s.caughtUp p c then ((s.joinLive p (s.edgeOf (s.toSampler (rxPin p) c) + 16)).advance n).checkAt p n else s
  | none => s

/-! ### The commands -/

/-- PALETTE_BOUNDARY (R69, R162): a waiting change applies at the stop-bit check, or the end of character, that is its
boundary; at this edge when no character is in progress. -/
def execPaletteBoundary (p : PortIx) (s : State) : Host.Outcome State Fault Refusal :=
  if !s.running then .next s else
  let s := s.ripen p.val
  let s := if (s.port p.val).palWaits && s.pinRuns (rxPin p.val) then
      if (s.port p.val).trk.cur.isSome then s.runCheck p.val else s.rxBoundary p.val
    else s
  .next (if (s.port p.val).txPalWaits && (s.port p.val).line.isNone then s.txBoundary p.val s.stamp else s)

/-- EDGE_EVENT_AT_CORE (R21, R93): the oldest entry the port has not consumed reaches the core, 16 DCLK after its sampling
edge, or in its turn of a replay. -/
def execEdgeEventAtCore (p : PortIx) (s : State) : Host.Outcome State Fault Refusal :=
  if !s.running then .next s else
  let s := s.ripen p.val
  let x := s.port p.val
  if x.rx = .off ∨ x.rx = .starved ∨ x.rx = .held then .next s else
  match (s.pin (rxPin p.val)).unread with
  | e :: _ =>
    let n := s.entryEdge p.val e
    let s := if x.replay && x.replayEnd.isNone && decide (s.now + 2 < n) then
        s.modPort p.val (fun x => { x with replayEnd := some s.now }) else s
    let s := (s.joinLive p.val n).advance n
    .next ((s.overflow p.val).takeEntry p.val e)
  | [] => .next s

/-- STOP_BIT_CHECK (R75, R82 to R87): the next stop-bit check of the port. -/
def execStopBitCheck (p : PortIx) (s : State) : Host.Outcome State Fault Refusal :=
  if !s.running then .next s else
  .next ((s.ripen p.val).runCheck p.val)

/-- BREAK_DETECT (R76): space has been held F_b + 1 bit periods from a start transition. -/
def execBreakDetect (p : PortIx) (s : State) : Host.Outcome State Fault Refusal :=
  if !s.running then .next s else
  let s := s.ripen p.val
  let x := s.port p.val
  match x.candidate with
  | some (f, period) =>
    let t := breakAt (x.setAt f.t0) period f.t0
    if s.caughtUp p.val t then .next ((s.advance (s.coreEdge p.val t)).breakDecided p.val f.t0 f.stamp) else .next s
  | none => .next s

/-- EDGE_ONLY_FALLBACK (R86): 65 acquisition characters and no decision open. -/
def execEdgeOnlyFallback (p : PortIx) (s : State) : Host.Outcome State Fault Refusal :=
  if !s.running then .next s else
  if s.fallbackDue p.val then .next (s.fallBack p.val) else .next s

/-- FM_GATE_CLOSE (R91): the gate holds PT_FMGATE transitions or more. -/
def execFmGateClose (p : PortIx) (s : State) : Host.Outcome State Fault Refusal :=
  if !s.running then .next s else
  if s.gateDue p.val then .next (s.closeGate p.val) else .next s

end Sys2Proof.Machine
end

