-- ==== Sys2Proof/Machine/Rings.lean ====
section
/-!
DEFINITION. Rings, records on their way to host memory, and commit points (06_host_link_rings.md R171 to R208,
07_coherence.md R215 to R236): doorbells, building, eligibility, the choice and issue of writes, flush reads, BREACH and GAP
records, and the commands that are their own events.
-/
namespace Sys2Proof.Machine

/-! ### Ring geometry (R173 to R175) -/

def State.ringSize (s : State) (n : Nat) : Nat := 2 ^ s.rd Reg.RG_CFG_LOG2 n
def State.ringClass (s : State) (n : Nat) : Nat := s.rd Reg.RG_CFG_CLASS n

/-- Free entries under the issued count (R175, R217). -/
def State.ringFree (s : State) (n : Nat) : Nat := s.ringSize n - ((s.ring n).issued - (s.ring n).host).toNat

/-- RG_BASE. -/
def State.ringBase (s : State) (n : Nat) : BitVec 64 := s.reg n 0x503 ++ (s.reg n 0x502 &&& 0xFFFFF000#32)

/-- PHASE of the record of running count c: 1 - (pass mod 2) (R174). -/
def State.phaseOf (s : State) (n : Nat) (c : Word) : Bool := c.toNat / s.ringSize n % 2 == 0

/-- Address of the slot of count c. -/
def State.slotAddr (s : State) (n : Nat) (c : Word) : BitVec 64 :=
  s.ringBase n + BitVec.ofNat 64 (64 * (c.toNat % s.ringSize n))

/-- RG_STAT_STATE (R209). -/
def RingState.code : RingState → Nat
  | .off => 0 | .active => 1 | .draining => 2 | .fault => 3

/-- Records move out of a ring that is ACTIVE or DRAINING (R177, R200), and not mute after a takeover (R264). -/
def State.ringWrites (s : State) (n : Nat) : Bool :=
  ((s.ring n).state == .active || (s.ring n).state == .draining) && !(s.ring n).mute

/-! ### Doorbells (R171, R248) -/

/-- A doorbell is rejected. -/
def State.doorbellBad (s : State) (n : Nat) (v : Word) : Bool :=
  let r := s.ring n
  r.state != .active || s.engagedShadow ||
  (if s.rd Reg.RG_CFG_KIND n = 0 then
     decide (s.ringSize n < (v - r.issued).toNat) || decide (s.ringSize n < (v - r.host).toNat)
   else decide ((r.issued - r.host).toNat < (v - r.host).toNat))

/-- The ring holds an eligible record that could be written now; BREACH and GAP records, which have no latency, do not count
(R231, R233). -/
def State.holdsReady (s : State) (n : Nat) : Bool :=
  s.mayRequest && s.ringWrites n && decide (0 < s.ringFree n) &&
  s.staging.any (fun r => r.ring == n && !r.prov && !r.ofPlace && r.eligible && r.slot.isNone)

/-- Follow since when a ring has held such a record without a write (R233). -/
def State.noteReady (s : State) (n : Nat) : State :=
  let ready := s.holdsReady n
  s.modRing n (fun r => { r with readyFrom := if ready then r.readyFrom.or (some s.now) else none })

/-- The same for every ring: what the device may request has changed. -/
def State.noteReadyAll (s : State) : State := (s.rings.map (·.1)).foldl State.noteReady s

/-- A doorbell takes effect. -/
def State.takeDoorbell (s : State) (n : Nat) (v : Word) : State :=
  ((s.modRing n (fun r => { r with host := v })).freeExtents n).noteReady n

/-- DOORBELL (R171, R172, R248). -/
def execDoorbell (n : RingIx) (value : Word) (s : State) : Host.Outcome State Fault Refusal :=
  if !s.running then .next s
  else if s.doorbellBad n.val value then
    let s := s.incSat Reg.RG_ERR_DB n.val
    .next (if (s.ring n.val).state == .active || s.engagedShadow then s.raiseEvent 272 (n.val + 2048) else s)
  else
    let s := s.takeDoorbell n.val value
    .next (if s.mirrors then s.emit (.hinge (.doorbell n.val value)) else s)

/-! ### Building records (R186, R192, R200, R230, R236) -/

/-- Rings an entry's records go to. -/
def Entry.rings (e : Entry) : List Nat :=
  match e.kind with
  | .chr _ _ n _ _ _ => [n]
  | .varnished => []
  | .port _ _ bodies => bodies.map (·.1)

/-- A GAP record of a stream of this entry waits for its place: the stream's entries stored after the loss wait too (R236). -/
def State.gapBlocks (s : State) (p : Nat) (e : Entry) : Bool :=
  s.gapWaits.any (fun w => w.cause == 1 && w.port == p && e.streams.contains w.partner &&
    (e.rings).contains w.ring && decide (w.order ≤ e.order))

/-- Close the open character records of a port in a ring: those of every stream, or of one (R186). -/
def State.closeRecords (s : State) (p n : Nat) (stream : Option Nat) : State :=
  { s with staging := s.staging.map (fun r =>
      if r.port = p ∧ r.ring = n ∧ r.isOpen ∧ stream.all (· == r.partner) then { r with isOpen := false } else r) }

/-- The last decision block that describes an entry; none does for one that was confirmed before E_g (R246, R252). -/
def State.entryBlocks (s : State) (e : Entry) : Nat := if s.mirrors && decide (s.hinge.engagedAt ≤ e.since) then e.blocks else 0

/-- The primary announces record `u` with what entry `e` put into it: by a mark, and in full when the entry was confirmed before
E_g (R242, R252). -/
def State.announce (s : State) (e : Entry) (u : Nat) : State :=
  if !s.mirrors then s else
  match s.staging.find? (fun r => r.uid == u) with
  | some r => if e.since < s.hinge.engagedAt then s.emit (.hinge (.full (.record r))) else s.sendMark r
  | none => s

/-- Put a record of an entry into staging: it carries the entry's event, its confirmation edge and its order. -/
def State.formOf (s : State) (e : Entry) (r : Rec) : State :=
  let u := s.nextUid
  let s := State.stage { s with nextUid := u + 1 }
    { r with uid := u, events := [e.uid], since := e.since, order := e.order, marked := s.mirrors, blocks := s.entryBlocks e }
  s.announce e u

/-- The open record of a stream that a character may extend (R186). -/
def State.openRecord (s : State) (p n k : Nat) (c : Chr) (seq : Word) (cf : BitVec 16) (compact : Bool) : Option Rec :=
  (s.staging.find? (fun r => r.isOpen && r.type == .chr && r.port == p && r.ring == n && r.partner == k)).filter
    (fun r => match r.body with
      | .chars cm f cs =>
        cm == compact && f == cf && seq == r.seq + BitVec.ofNat 32 cs.length && fitsRecord compact r.base cs ⟨c.data, c.stamp⟩
      | .raw _ => false)

/-- Add a character to a record: its event, and what keeps it open (R246). -/
def Rec.extend (r : Rec) (c : RecChar) (uid blocks : Nat) (marked : Bool) : Rec :=
  match r.body with
  | .chars cm f cs =>
    { r with body := .chars cm f (cs ++ [c]), events := r.events ++ [uid], blocks := max r.blocks blocks,
             marked := r.marked || marked }
  | .raw _ => r

/-- Build the records of an entry. A CUE record ends the open record of its own stream, a port-level entry those of every stream
of the port in its rings (R186). -/
def State.buildEntry1 (s : State) (p : Nat) (e : Entry) : State :=
  match e.kind with
  | .varnished => s
  | .chr c k n seq cf compact =>
    match s.openRecord p n k c seq cf compact with
    | some r =>
      let s : State := { s with staging := s.staging.map (fun x =>
        if x.uid = r.uid then x.extend ⟨c.data, c.stamp⟩ e.uid (s.entryBlocks e) s.mirrors else x) }
      s.announce e r.uid
    | none =>
      (s.closeRecords p n (some k)).formOf e
        { uid := 0, ring := n, type := .chr, port := p, partner := k, seq := seq, base := c.stamp, isOpen := true,
          body := .chars compact cf [⟨c.data, c.stamp⟩] }
  | .port type all bodies =>
    bodies.foldl (fun s (n, k, seq, b) =>
      (s.closeRecords p n (if type = .cue then some k else none)).formOf e
        { uid := 0, ring := n, type := type, port := p, partner := if all then 3 else k, seq := seq, base := e.base,
          late := type == .cue && (b.getD 2 0).getLsbD 0, body := .raw b }) s

/-- Records an entry still needs in staging. -/
def State.recordsFor (s : State) (p : Nat) (e : Entry) : Nat :=
  match e.kind with
  | .chr c k n seq cf compact => if (s.openRecord p n k c seq cf compact).isSome then 0 else 1
  | .varnished => 0
  | .port _ _ bodies => bodies.length

/-- Staging admits an entry: it has room, and while it is low only entries all of whose rings are LOSSLESS are built
(R200, R230). None is built for a ring that waits to be enabled after a takeover (R264). -/
def State.stagingAdmits (s : State) (p : Nat) (e : Entry) : Bool :=
  decide (s.recordsFor p e ≤ s.stagingFree) && e.rings.all (fun n => !(s.ring n).mute) &&
  (!s.stagingLow || (e.rings).all (fun n => s.ringClass n == 0))

/-- The oldest entry of a port's receive space that is not built. -/
def State.firstEntry (s : State) (p : Nat) : Option Entry := (s.port p).entries.find? (fun e => !e.built)

/-- The oldest transmit record of a port that waits for room, when staging admits it (R200, R230). -/
def State.firstTx (s : State) (p : Nat) : Option Rec := (s.unbuilt.find? (fun r => r.port == p)).filter s.admits

/-- The oldest entry of a port's receive space goes into staging when nothing holds it (R200, R230, R236). -/
def State.buildOldest (s : State) (p : Nat) : State :=
  match s.firstEntry p with
  | some e =>
    if !s.gapBlocks p e && s.stagingAdmits p e then
      let s := s.buildEntry1 p e
      let mark : Entry → Entry := fun x => if x.order = e.order then { x with built := true } else x
      (s.modPort p (fun x => { x with entries := x.entries.map mark })).settle
    else s
  | none => s

/-- RECORD_BUILD (R146, R186, R192, R200): the oldest entry of a port's receive space, or of the Almanac queue, that is not
built goes into staging; a transmit record of the port that waited for room goes first. -/
def execRecordBuild (p : Option PortIx) (s : State) : Host.Outcome State Fault Refusal :=
  if !s.running then .next s else
  match p with
  | none => .next s.buildAlmanac
  | some p =>
    if s.shadowing then .next s else
    match s.firstTx p.val with
    | some r => .next (s.buildTx r)
    | none => .next (s.buildOldest p.val)

/-! ### Eligibility (R194, R206) -/

/-- A record of a ring that waits to become eligible. -/
def Rec.waits (r : Rec) (n : Nat) : Bool := r.ring == n && !r.prov && !r.eligible && r.slot.isNone

/-- The records whose base stamp the horizon point has passed become eligible and close; one that cannot be written raises
its ring's source now (R186, R194, R206). -/
def State.makeEligible (s : State) (n : Nat) : State :=
  let h := s.hp n
  let s := s.noteHp n
  let due := s.staging.filter (fun r => r.waits n && sLe r.base h)
  let s : State := { s with staging := s.staging.map (fun r =>
    if r.waits n && sLe r.base h then { r with eligible := true, eligAt := s.now, isOpen := false } else r) }
  (due.foldl State.raiseMute s).noteReady n

/-- RECORD_ELIGIBLE (R194): time passes, where the horizon needs it, to the edge at which the earliest waiting record of the
ring lies behind the horizon. -/
def execRecordEligible (n : RingIx) (s : State) : Host.Outcome State Fault Refusal :=
  if !s.running then .next s else
  match earliest ((s.staging.filter (fun r => r.waits n.val)).map (·.base)) with
  | some b => .next ((s.advanceTo (b + ticks (s.rd Reg.RG_HZ n.val * 1024 + 1) + s.pairOfs)).makeEligible n.val)
  | none => .next s

/-! ### The order of writes (R195, R198) -/

/-- Place of a kind among records of one port at equal stamps (R114, R195). -/
def RecType.place : RecType → Nat
  | .varnish => 0 | .pentimento => 1 | .profile => 2 | _ => 3

/-- Records with a port come first, then EVENT, CAPTURE and ALMANAC, then BREACH and GAP (R195). -/
def Rec.group (r : Rec) : Nat := if r.ofPlace then 2 else if r.ofEventPart then 1 else 0

/-- `a` is written before `b` in one ring (R195). -/
def Rec.before (a b : Rec) : Bool :=
  if a.base ≠ b.base then sLt a.base b.base
  else if a.group ≠ b.group then decide (a.group < b.group)
  else if a.group ≠ 0 then decide (a.order < b.order)
  else if a.port ≠ b.port then decide (a.port < b.port)
  else if a.type.place ≠ b.type.place then decide (a.type.place < b.type.place)
  else if a.partner ≠ b.partner then decide (a.partner < b.partner)
  else decide (a.order < b.order)

/-- Insert a record in writing order. -/
def insertRec (r : Rec) : List Rec → List Rec
  | [] => [r]
  | x :: t => if r.before x then r :: x :: t else x :: insertRec r t

/-- The eligible records of a ring that are not issued, in writing order. -/
def State.eligibleRecs (s : State) (n : Nat) : List Rec :=
  (s.staging.filter (fun r => r.ring == n && !r.prov && r.eligible && r.slot.isNone)).foldl (fun l r => insertRec r l) []

/-- Rings that have something to issue. -/
def State.readyRings (s : State) : List Nat :=
  (((s.staging.filter (fun r => !r.prov && r.eligible && r.slot.isNone)).map (·.ring)).eraseDups).filter
    (fun n => s.ringWrites n && decide (0 < s.ringFree n))

/-- The best of some rings under an order of their first records, the lower number at a tie. -/
def State.bestRing (s : State) (less : Rec → Rec → Bool) (l : List Nat) : Option Nat :=
  l.foldl (fun b n => match b with
    | none => some n
    | some m =>
      match (s.eligibleRecs n).head?, (s.eligibleRecs m).head? with
      | some x, some y => if less x y || (!less y x && decide (n < m)) then some n else some m
      | _, _ => some m) none

/-! ### Breach and fairness intervals (R231 to R235) -/

/-- DCLK edge at which an entry confirmed at `since` passes the bound of a ring (R197, R231). -/
def State.boundOf (s : State) (n since : Nat) : Nat := since + s.rd Reg.RG_QOS_LAT n * 1600

/-- Almanac entries of a ring that are not built (R450). -/
def State.alWaiting (s : State) (n : Nat) : List AlEntry :=
  if s.on Reg.AL_CFG_EN && s.rd Reg.AL_CFG_RING == n then s.almanac.queue.filter (fun e => e.built.isNone) else []

/-- Edges from which the latency of what ring n has to write runs (R197): records not issued, transmit records, receive entries
and Almanac entries not built. -/
def State.unwritten (s : State) (n : Nat) : List Nat :=
  (s.staging.filter (fun r => r.ring == n && !r.prov && !r.ofPlace && r.slot.isNone)).map (·.since) ++
  (s.unbuilt.filter (fun r => r.ring == n)).map (·.since) ++ (s.alWaiting n).map (·.since) ++
  s.ports.flatMap (fun (_, x) =>
    (x.entries.filter (fun e => !e.built && (e.rings).contains n)).map (·.since))

/-- The earliest of some numbers. -/
def leastOf : List Nat → Option Nat
  | [] => none
  | a :: t => some (t.foldl min a)

/-- A port's free receive space at the present edge keeps its pressure up (R229): it is at PT_FCTHR_OFF or below, or has not
risen to PT_FCTHR_ON since it was. -/
def State.pressedNow (s : State) (p : Nat) : Bool :=
  let free := s.rxFree p
  decide (free ≤ s.rd Reg.PT_FCTHR_OFF p * 64) || ((s.port p).pressure && decide (free < s.rd Reg.PT_FCTHR_ON p * 64))

/-- A LOSSLESS ring is under pressure: from a port whose entries reach it (R229). -/
def State.pressed (s : State) (n : Nat) : Bool :=
  s.ringClass n == 0 && s.ports.any (fun (p, _) => (s.portRings p).contains n && s.pressedNow p)

/-- The ring that R229 takes first: of those under pressure with something to issue, the one with the earliest base stamp. -/
def State.pressedRing (s : State) : Option Nat :=
  s.bestRing (fun a b => sLt a.base b.base) (s.readyRings.filter s.pressed)

/-- CRING of a PRECEDENCE breach (R232): the ring under pressure that goes first, else the ring of the last write. -/
def State.precedingRing (s : State) : Nat := (s.pressedRing.or s.link.lastRing).getD 0xFF

/-- What the latency of ring n runs from since `first` is not built for want of staging (R200, R230): a receive entry behind a
first entry that staging does not admit, a transmit record, or an Almanac entry. -/
def State.stagingHolds (s : State) (n first : Nat) : Bool :=
  s.unbuilt.any (fun r => r.ring == n && r.since == first && !s.admits r) ||
  (s.alWaiting n).any (fun e => e.since == first && decide (s.eventFree < e.nrec)) ||
  s.ports.any (fun (p, x) =>
    x.entries.any (fun e => !e.built && e.since == first && (e.rings).contains n) &&
    (s.firstEntry p).any (fun e => !s.gapBlocks p e && !s.stagingAdmits p e))

/-- What holds a ring at the present edge, for what its latency runs from since `first` (R232). -/
def State.breachCause (s : State) (n first : Nat) : Nat :=
  let elig := s.staging.any (fun r =>
    r.ring == n && !r.prov && !r.ofPlace && r.slot.isNone && r.eligible && r.since == first)
  if !s.mayRequest then 2 else if s.stagingHolds n first then 5 else if s.ringFree n = 0 then 3 else if elig then 4 else 1

/-- A breach interval that opens at the present edge, with its cause (R231, R232). -/
def State.newBreach (s : State) (n first : Nat) : Breach :=
  let cause := s.breachCause n first
  let item := if cause = 1 then s.earliestItem n else none
  let port := item.bind (·.2)
  { start := s.now, from_ := s.stamp, cause := cause, cring := if cause = 4 then s.precedingRing else 0xFF,
    portv := port.isSome, port := port.getD 0, cstamp := (item.map (·.1)).getD 0 }

/-- Open a breach interval at the present edge (R231). -/
def State.openBreach (s : State) (n : Nat) : State :=
  s.modRing n (fun r => { r with breach := some (s.newBreach n ((leastOf (s.unwritten n)).getD s.now)) })

/-- Body of a BREACH record (R189). -/
def breachBody (b : Breach) (into : Stamp) (cls bound : Nat) (open_ : Bool) : List Byte :=
  leBytes 8 b.from_.toNat ++ leBytes 8 into.toNat ++
  [BitVec.ofNat 8 b.cause, BitVec.ofNat 8 cls, BitVec.ofNat 8 (open_.toNat + 2 * b.portv.toNat), 0#8] ++
  leBytes 4 b.records ++ leBytes 4 b.worst ++ [BitVec.ofNat 8 b.cring] ++ leBytes 3 0 ++ leBytes 4 bound ++ leBytes 4 0 ++
  leBytes 8 b.cstamp.toNat

/-- The BREACH place of a ring is taken (R235). -/
def State.breachPlaceTaken (s : State) (n : Nat) : Bool :=
  s.staging.any (fun r => r.ring == n && r.type == .breach && r.slot.isNone)

/-- Form a BREACH record at the present edge (R189, R196, R231): TO is the edge of the last write of the interval, or the present
one when the interval goes on. Its SEQ it takes when it is issued (R182). -/
def State.formBreach (s : State) (n : Nat) (b : Breach) (open_ : Bool) : State :=
  let s := s.noteHp n
  let cls := s.ringClass n
  let (u, s) := s.formPlace
    { uid := 0, ring := n, type := .breach, port := if b.portv then b.port else 0, partner := 3, base := s.hp n,
      body := .raw (breachBody b (if open_ then s.stamp else b.to_) cls (if cls = 1 then s.rd Reg.RG_QOS_LAT n else 0) open_) }
  (s.count .sat Reg.RG_ERR_BREACH n 1 [u]).count .set Reg.RG_STAT_BREACH n 1 [u]

/-- Close the interval of a BOUNDED ring when nothing else has passed its bound; the interval goes on while the place of the
ring is taken (R231, R235). An interval whose record was written at the edge of its bound, in time, reports nothing. -/
def State.closeBreach (s : State) (n : Nat) : State :=
  match (s.ring n).breach with
  | some b =>
    if s.ringClass n ≠ 1 ∨ (s.unwritten n).any (fun x => s.boundOf n x ≤ s.now) then s
    else if b.records = 0 then s.modRing n (fun r => { r with breach := none })
    else if s.breachPlaceTaken n then s
    else (s.modRing n (fun r => { r with breach := none })).formBreach n b false
  | none => s

/-- BREACH_OPEN (R231): something a BOUNDED ring has to write passes its bound; time passes to that edge. -/
def execBreachOpen (n : RingIx) (s : State) : Host.Outcome State Fault Refusal :=
  if s.ringClass n.val = 1 ∧ (s.ring n.val).breach = none ∧ s.running then
    match leastOf (s.unwritten n.val) with
    | some x => .next ((s.advance (s.boundOf n.val x)).openBreach n.val)
    | none => .next s
  else .next s

/-- BREACH_INTERVAL_LIMIT (R231): an interval has lasted 1,600,000 DCLK. -/
def execBreachIntervalLimit (n : RingIx) (s : State) : Host.Outcome State Fault Refusal :=
  if !s.running then .next s else
  match (s.ring n.val).breach with
  | some b =>
    if s.ringClass n.val = 1 ∧ !s.breachPlaceTaken n.val then
      let s := s.advance (b.start + 1600000)
      .next ((s.formBreach n.val b true).openBreach n.val)
    else .next s
  | none => .next s

/-- FAIRNESS_OPEN (R233): a BULK ring has held an eligible, writable record for 1,600,000 DCLK without a write. -/
def execFairnessOpen (n : RingIx) (s : State) : Host.Outcome State Fault Refusal :=
  if s.ringClass n.val = 2 ∧ (s.ring n.val).breach = none ∧ s.holdsReady n.val then
    let s := s.noteReady n.val
    let s := s.advance ((s.ring n.val).readyFrom.getD s.now + 1600000)
    .next (s.modRing n.val (fun r =>
      { r with breach := some { start := s.now, from_ := s.stamp, cause := 4, cring := s.link.lastRing.getD 0xFF,
                                portv := false, port := 0, cstamp := 0 } }))
  else .next s

/-! ### Loss intervals (R234, R236) -/

/-- GAP_INTERVAL_LIMIT (R234): a loss interval has lasted 1,600,000 DCLK. Partner 4 names the event ring's interval. -/
def execGapIntervalLimit (p : PortIx) (partner : Fin 5) (s : State) : Host.Outcome State Fault Refusal :=
  if !s.running then .next s else
  if partner.val = 4 then
    let n := s.rd Reg.RG_EVRING_RING
    match (s.ring n).loss with
    | some l =>
      let s := s.advance (l.opened + 1600000)
      let s := s.modRing n (fun r =>
        { r with loss := some { l with chars := 0, others := 0, counted := 0, first := l.last, opened := s.now,
                                       seq := s.nextEventSeq n } })
      .next (s.dueGap { ring := n, port := 0, partner := 3, loss := l, isOpen := true, cause := 2, order := s.nextOrder })
    | none => .next s
  else
    match (s.port p.val).losses.find? (fun x => x.1 == partner.val) with
    | some (k, l) =>
      let s := s.advance (l.opened + 1600000)
      let fresh : Loss := ⟨0, 0, 0, l.last, l.last, s.nextSeq p.val k, s.now⟩
      let s := s.modPort p.val (fun x => { x with losses := Sparse.insert (Sparse.drop x.losses k) k fresh })
      .next (s.dueGap { ring := s.partnerRing p.val k, port := p.val, partner := k, loss := l, isOpen := true, cause := 1,
                        order := s.nextOrder })
    | none => .next s

/-- `a` takes a freed GAP place before `b` (R236). -/
def GapWait.before (a b : GapWait) : Bool :=
  if a.loss.first ≠ b.loss.first then sLt a.loss.first b.loss.first
  else if a.port ≠ b.port then decide (a.port < b.port) else decide (a.partner < b.partner)

/-- GAP_PLACE_FREE (R236): the oldest waiting GAP record of a ring whose place is free is formed. -/
def execGapPlaceFree (n : RingIx) (s : State) : Host.Outcome State Fault Refusal :=
  if !s.running then .next s else
  if s.gapPlaceTaken n.val then .next s else
  match s.gapWaits.filter (fun w => w.ring == n.val) with
  | [] => .next s
  | a :: t =>
    let w := t.foldl (fun b x => if x.before b then x else b) a
    .next (({ s with gapWaits := s.gapWaits.erase w } : State).formGap w)

/-! ### Issuing writes (R195, R198, R202 to R204, R217) -/

/-- SEQ of a record as it is issued (R182, R370): of EVENT, BREACH and CAPTURE records, how many of the type the ring has. -/
def Ring.seqFor (x : Ring) (r : Rec) : Word :=
  match r.type with
  | .event => x.nEvent
  | .breach => x.nBreach
  | .capture => x.nCapture
  | _ => r.seq

/-- The ring's counts by type once a record has been issued to it (R182, R370). -/
def Ring.tally (x : Ring) (r : Rec) : Ring :=
  { x with nEvent := if r.type = .event then x.nEvent + 1 else x.nEvent,
           nBreach := if r.type = .breach then x.nBreach + 1 else x.nBreach,
           nCapture := if r.type = .capture then x.nCapture + 1 else x.nCapture }

/-- The ring's counts once a record has been issued to it (R174, R182, R217). -/
def Ring.issue (x : Ring) (r : Rec) : Ring := { x.tally r with issued := x.issued + 1, readyFrom := none }

/-- A provisional record has been written to ring n: its characters have been shown there (R112). -/
def Acquisition.showIn (a : Acquisition) (r : Rec) (n : Nat) : Acquisition :=
  { a with shown := a.shown.map (fun (x : Shown) =>
      if (x.serial - r.seq).toNat < r.body.count ∧ !x.rings.contains n then { x with rings := x.rings ++ [n] } else x) }

/-- Record r of ring n is issued at the present edge: slot, SEQ, BREACH flag and interval, source event, provisional showing
(R112, R182, R197, R204, R217, R231). In a pair a PROV record crosses the Hinge first (R125). -/
def State.issueRec (s : State) (n : Nat) (r : Rec) : State :=
  let c := (s.ring n).issued
  let cls := s.ringClass n
  let plain := !r.prov && !r.ofPlace
  let late := plain && cls == 1 && decide (s.boundOf n r.since < s.now)
  let s := if late && (s.ring n).breach.isNone then s.openBreach n else s
  let lat := min ((s.now - r.since) * 16) 0xFFFFFFFF
  let stamp := s.stamp
  let r' := { r with slot := some c, seq := (s.ring n).seqFor r, breach := late, isOpen := false }
  let add : Breach → Breach := fun b => { b with records := b.records + 1, worst := max b.worst lat, to_ := stamp }
  let s := s.modRing n (fun x =>
    { x.issue r with breach := if late || (plain && cls == 2) then x.breach.map add else x.breach })
  let s : State := { s with staging := s.staging.map (fun x => if x.uid = r.uid then r' else x) }
  let s : State := if !r.counted && s.ringCounts r' then s.srcEvent (n + 1) s.stamp (some r.uid) else s
  let s : State := { s with extents := s.extents.map (fun e => if e.record = some r.uid then { e with slot := some c } else e) }
  if r.prov then
    let s := s.modPort r.port (fun x => { x with acq := x.acq.map (fun a => a.showIn r n) })
    if s.mirrors then
      s.emit (.hinge (.prov r' (s.port r.port).serial (((s.port r.port).acq.map (·.shown)).getD [])))
    else s
  else s

/-- Records of one write request: whole records in consecutive slots, at most Max Payload Size, not across the ring's end
(R202). -/
def State.runOf (s : State) (n bytes : Nat) (l : List Rec) : List Rec :=
  let toEnd := s.ringSize n - (s.ring n).issued.toNat % s.ringSize n
  l.take (min (max 1 (min s.link.mps bytes / 64)) (min toEnd (s.ringFree n)))

/-- The requests of a run (R203): one, or under SPLIT one from byte 8 on and one of the first header. -/
def State.emitRun (s : State) (n : Nat) (c : Word) (l : List Rec) : State :=
  let b := l.flatMap (fun r => r.bytes (s.phaseOf n (r.slot.getD c)))
  let a := s.slotAddr n c
  if s.on Reg.RG_CFG_SPLIT n then (s.emit (.write (a + 8) (b.drop 8))).emit (.write a (b.take 8)) else s.emit (.write a b)

/-- Issue a run of records of a ring in one opportunity. -/
def State.issueRun (s : State) (n : Nat) (l : List Rec) : State :=
  let c := (s.ring n).issued
  let s := l.foldl (fun s r => s.issueRec n r) s
  let s := s.emitRun n c (s.staging.filter (fun r => l.any (fun x => x.uid == r.uid)) |>.foldl (fun acc r => insertRec r acc) [])
  let s : State := { s with flushDue := true, link := { s.link with lastRing := some n, idleFrom := s.now } }
  let s := s.freeEntries
  let s := if s.ringClass n = 2 then
      match (s.ring n).breach with
      | some b =>
        if s.breachPlaceTaken n then s else (s.modRing n (fun r => { r with breach := none })).formBreach n b false
      | none => s
    else s.closeBreach n
  s.noteReady n

/-- The next BULK ring by deficit round robin, with the bytes its deficit allows (R198). -/
def State.bulkTurn (s : State) (l : List Nat) : Option (Nat × Nat × State) :=
  let keep := l.contains s.bulkAt && decide (64 ≤ (s.ring s.bulkAt).deficit)
  let next := if keep then some s.bulkAt
    else ((l.filter (fun n => decide (s.bulkAt < n))) ++ l).foldl (fun (b : Option Nat) n => match b with
      | none => some n
      | some m => if (decide (s.bulkAt < n) == decide (s.bulkAt < m)) && decide (n < m) then some n else some m) none
  next.map (fun n =>
    let q := s.rd Reg.RG_QOS_WEIGHT n * 512
    let s := if keep then s else (s.modRing s.bulkAt (fun r => { r with deficit := 0 })).modRing n (fun r => { r with deficit := q })
    (n, (s.ring n).deficit, { s with bulkAt := n }))

/-- A record that waited for the end of a sleep condition can be written: it leaves before any message (R206). -/
def State.waitedFirst (s : State) : Bool :=
  s.staging.any (fun r => s.link.waiting.contains r.uid && r.eligible && r.slot.isNone && s.ringWrites r.ring &&
    decide (0 < s.ringFree r.ring))

/-- The first message whose records are all issued (R198, R204); none while MSI-X is not enabled (R482), and none before the
records that waited for the end of a sleep condition (R206). -/
def State.readyMsg (s : State) : Option Msg :=
  if !s.link.msixEn || s.waitedFirst then none else
  s.msgs.find? (fun m => m.after.all (fun u => !s.staging.any (fun r => r.uid == u && (r.slot.isNone || r.rewrite))))

/-- Send a mailbox write and its MSI-X message (R283, R284). -/
def State.sendMsg (s : State) (m : Msg) : State :=
  let t := m.target
  let box := (s.reg t 0x223 ++ (s.reg t 0x222 : Word)) + BitVec.ofNat 64 (16 * m.slot)
  let addr := s.reg t 0x225 ++ (s.reg t 0x224 : Word)
  let s : State := { s with msgs := s.msgs.erase m, link := { s.link with idleFrom := s.now } }
  (s.emit (.write box m.bytes)).emit (.msix addr (s.reg t 0x226))

/-- A provisional record may be written: a quarter of the ring stays free after it (R109). -/
def State.provFits (s : State) (r : Rec) : Bool :=
  let n := r.ring
  let held := (s.staging.filter (fun x => x.ring == n && x.inStaging && x.slot.isNone)).length
  let taken := ((s.ring n).issued - (s.ring n).host).toNat + held + 1
  s.ringWrites n && decide (4 * taken ≤ 3 * s.ringSize n)

/-- WRITE_OPPORTUNITY (R198, R229): the first of the mailbox messages, rings under pressure, BOUNDED, LOSSLESS and BULK rings
and provisional records that has something to issue. Records to be written again come before all (R218), and after a takeover
the flush read behind them (R263). -/
def execWriteOpportunity (s : State) : Host.Outcome State Fault Refusal :=
  if !s.mayRequest || s.hinge.flushFirst || s.staging.any (·.rewrite) then .next s else
  match s.readyMsg with
  | some m => .next (s.leaveL1.sendMsg m)
  | none =>
    let ready := s.readyRings
    let byBase : Rec → Rec → Bool := fun a b => sLt a.base b.base
    let byDue : Rec → Rec → Bool := fun a b => decide (s.boundOf a.ring a.since < s.boundOf b.ring b.since)
    let one := s.pressedRing.or
      ((s.bestRing byDue (ready.filter (fun n => s.ringClass n == 1))).or
        (s.bestRing byBase (ready.filter (fun n => s.ringClass n == 0))))
    match one with
    | some n => .next (s.leaveL1.issueRun n (s.runOf n 512 (s.eligibleRecs n)))
    | none =>
      match s.bulkTurn (ready.filter (fun n => s.ringClass n == 2)) with
      | some (n, bytes, s) =>
        let run := s.runOf n bytes (s.eligibleRecs n)
        .next ((s.leaveL1.issueRun n run).modRing n (fun r => { r with deficit := r.deficit - 64 * run.length }))
      | none =>
        match s.staging.find? (fun r => r.prov && r.slot.isNone) with
        | some r =>
          if s.provFits r then .next (s.leaveL1.issueRun r.ring [r])
          else .next { s with staging := s.staging.filter (fun x => x.uid != r.uid) }
        | none => .next s

/-! ### Commit points (R215 to R220) -/

/-- FLUSH_READ_ISSUE (R215): time passes to the edge the spacing allows. -/
def execFlushReadIssue (s : State) : Host.Outcome State Fault Refusal :=
  if s.flushDue && s.mayRequest && decide (s.flushes.length < s.rd Reg.GL_CMTCFG_MAXOUT) &&
     !s.staging.any (·.rewrite) then
    let s := match s.flushAt with
      | some a => s.advance (a + 64 * s.rd Reg.GL_CMTCFG_PERIOD)
      | none => s
    let recs := (s.staging.filter (fun r => r.slot.isSome)).map (·.uid) ++ s.segments.filterMap (·.upload)
    let s := s.request
    .next (({ s with flushes := s.flushes ++ [⟨s.now, recs⟩], flushAt := some s.now, flushDue := false,
                     hinge := { s.hinge with flushFirst := false } } : State).emit
      (.flushRead (s.ringBase (s.link.lastRing.getD 0))))
  else .next s

/-- Records are committed: they leave staging, RG_DEV and RG_WRITTEN advance, and what waited for them moves (R215 to R218,
R369, R451). -/
def State.commit (s : State) (recs : List Nat) : State :=
  let hit := fun (r : Rec) => r.slot.isSome && !r.rewrite && recs.contains r.uid
  let gone := s.staging.filter hit
  let s := s.unstage hit
  let s := gone.foldl (fun s r =>
    let s := s.incWrap Reg.RG_DEV r.ring
    if r.prov then s.incWrap Reg.RG_WRITTEN r.ring else s) s
  let segs := s.segments.filter (fun g => g.upload.any recs.contains)
  let s := segs.foldl State.commitSegment s
  let s := s.commitEntries
  if s.mirrors then
    ((gone.map (·.ring)).eraseDups).foldl (fun s n => s.emit (.hinge (.commit n (BitVec.ofNat 32 (s.rd Reg.RG_DEV n))))) s
  else s

/-- FLUSH_READ_COMPLETE (R215, R221): the oldest flush read completes with success. -/
def execFlushReadComplete (s : State) : Host.Outcome State Fault Refusal :=
  if !s.running then .next s else
  match s.flushes with
  | f :: rest =>
    let s : State := { s with flushes := rest }
    let s := s.wr Reg.GL_CMTSTAT_LASTLAT (min (roundDiv (s.now - f.at_) 64) 65535)
    .next ((s.incWrap Reg.GL_CMTCNT).commit f.recs)
  | [] => .next s

/-- Issued records that are not committed count as not written (R218). -/
def State.unwrite (s : State) : State :=
  { s with staging := s.staging.map (fun r => if r.slot.isSome then { r with rewrite := true } else r),
           segments := s.segments.map (fun g => { g with upload := none }) }

/-- FLUSH_READ_FAIL (R220). -/
def execFlushReadFail (status : BitVec 3) (s : State) : Host.Outcome State Fault Refusal :=
  if !s.running then .next s else
  match s.flushes with
  | _ :: rest =>
    let s : State := { s with flushes := rest }
    .next (((s.incSat Reg.GL_CMTERR_FAIL).raiseEvent 274 status.toNat).unwrite)
  | [] => .next s

/-- Insert a record by its slot, counted from the committed count. -/
def insertSlot (dev : Word) (r : Rec) : List Rec → List Rec
  | [] => [r]
  | x :: t => if (r.slot.getD 0 - dev).toNat < (x.slot.getD 0 - dev).toNat then r :: x :: t else x :: insertSlot dev r t

/-- Write records of a ring, in slot order, in runs (R202, R203). -/
def State.rewriteRuns (n : Nat) : Nat → List Rec → State → State
  | 0, _, s => s
  | _, [], s => s
  | fuel + 1, r :: t, s =>
    let c := r.slot.getD 0
    let k := min (max 1 (min s.link.mps 512 / 64)) (s.ringSize n - c.toNat % s.ringSize n)
    State.rewriteRuns n fuel ((r :: t).drop k) (s.emitRun n c ((r :: t).take k))

/-- Write the records of a ring again, at their slots and with the same bytes (R218). -/
def State.rewriteRing (s : State) (n : Nat) : State :=
  let dev := BitVec.ofNat 32 (s.rd Reg.RG_DEV n)
  let l := (s.staging.filter (fun r => r.rewrite && r.ring == n)).foldl (fun l r => insertSlot dev r l) []
  let s := State.rewriteRuns n l.length l s
  { s with staging := s.staging.map (fun r => if r.ring = n then { r with rewrite := false } else r),
           link := { s.link with lastRing := some n, idleFrom := s.now } }

/-- RECORD_REWRITE (R218): writing is possible again; a flush read follows under R215. -/
def execRecordRewrite (s : State) : Host.Outcome State Fault Refusal :=
  if s.mayRequest && s.staging.any (·.rewrite) then
    let rings := ((s.staging.filter (·.rewrite)).map (·.ring)).eraseDups
    let s := rings.foldl State.rewriteRing s.leaveL1
    .next { s with flushDue := true }
  else .next s

/-! ### Draining, faults (R177, R208) -/

/-- Nothing of a ring is left to write: a ring that is mute after a takeover writes nothing (R177, R264). -/
def State.ringDrained (s : State) (n : Nat) : Bool :=
  (s.ring n).mute ||
  (!s.staging.any (fun r => r.ring == n) && s.descHeld n == 0 && (s.unwritten n).isEmpty && !s.gapWaits.any (fun w => w.ring == n))

/-- RING_DRAIN_DONE (R177, R219). -/
def execRingDrainDone (n : RingIx) (s : State) : Host.Outcome State Fault Refusal :=
  if !s.running then .next s else
  if (s.ring n.val).state = .draining ∧ s.ringDrained n.val then
    .next (s.modRing n.val (fun r => { r with state := .off }))
  else .next s

/-- The descriptor in progress at a port, when its data must be read again after a takeover (R261). -/
def Port.resumed (x : Port) : Option Desc :=
  match x.sending with
  | some { job := .desc d, .. } => if d.data.isNone then some d else none
  | _ => none

/-- The descriptors that `lost` names at a port complete DISABLED (R208); those behind them proceed. -/
def State.loseDescs (s : State) (lost : Desc → Bool) (p : Nat) : State :=
  let s := if (s.port p).resumed.any lost then s.endJob p 5 0 else s
  let q := (s.port p).queue
  let wasHead := match q with | d :: _ => lost d | [] => false
  let s := s.modPort p (fun x =>
    { x with queue := q.filter (fun d => !lost d), launchAt := if wasHead then none else x.launchAt,
             launchOk := if wasHead then false else x.launchOk })
  let s := (q.filter lost).foldl (fun s d => s.txDone p d 5 0 none) s
  (s.checkHead p).restTx p

/-- READ_COMPLETION_FAIL (R208): a descriptor or data read of a submission ring at an address fails. An ACTIVE ring enters FAULT;
one that is DRAINING stays there, since R177 gives it no other way (DEDUCED, log entry 104). -/
def execReadCompletionFail (n : RingIx) (status : BitVec 3) (address : BitVec 64) (s : State) :
    Host.Outcome State Fault Refusal :=
  if !s.running then .next s else
  let r := s.ring n.val
  if r.state ≠ .off ∧ s.rd Reg.RG_CFG_KIND n.val = 0 then
    let s := s.modRing n.val (fun r => { r with state := if r.state = .active then .fault else r.state })
    let s := (s.wr Reg.RG_STAT_FAULT_RD 1 n.val).raiseEvent 272 (n.val + 256 * status.toNat)
    let mine := (s.ports.flatMap (fun x => x.2.resumed.toList ++ x.2.queue)).filter (fun d => d.ring == n.val)
    match mine.find? (fun d => d.data.isNone && decide ((address - d.bufaddr).toNat < d.len)) with
    | some bad =>
      let age := fun (d : Desc) => (r.issued - d.num).toNat
      let lost := fun (d : Desc) => d.ring == n.val && d.data.isNone && decide (age d ≤ age bad)
      .next (((mine.map (·.port)).eraseDups).foldl (fun s p => s.loseDescs lost p) s)
    | none => .next s
  else .next s

end Sys2Proof.Machine
end

