-- ==== Sys2Proof/Machine/Link.lean ====
section
/-!
DEFINITION. The PCI Express side (06_host_link_rings.md R166 to R172, R205, R206, R482; 09_carillon.md R285 to R289): what the
host may write, configuration writes, link states, sleep conditions and wake requests. PERST# is a HOST reset and stands with
the resets.
-/
namespace Sys2Proof.Machine

/-! ### The regions of the BARs (R23, R24, R169, R170, R288) -/

/-- A host write that the device accepts: one DWORD with all four byte enables, to a doorbell, or to CLAIM, EOI, SETPEND or PRIV
of a target page (R171, R288). -/
def hostWritable (bar2 : Bool) (w : HostWrite) : Bool :=
  w.full &&
  (if bar2 then decide (w.offset < 0x10000 ∧ w.offset % 0x1000 ∈ [0, 4, 8, 12])
   else decide (w.offset < 0x100000 ∧ w.offset % 0x1000 = 0))

/-- HOST_WRITE_DISCARD (R24, R171, R172, R288): any other host write is discarded and counted. -/
def execHostWriteDiscard (bar2 : Bool) (w : HostWrite) (s : State) : Host.Outcome State Fault Refusal :=
  .next (if hostWritable bar2 w || !s.link.up then s else s.incSat Reg.GL_HOSTDROP_CNT)

/-- DB_STATE of ring n (R170): the ring's state, and the PHASE of the next record the device writes. -/
def State.dbState (s : State) (n : Nat) : Word :=
  BitVec.ofNat 32 ((s.ring n).state.code + (s.phaseOf n (s.ring n).issued).toNat * 256)

/-- The words of a doorbell page as the host reads them (R170). -/
def State.doorbellWord (s : State) (n k : Nat) : Word :=
  match k with
  | 0 => (s.ring n).host
  | 1 => BitVec.ofNat 32 (s.rd Reg.RG_DEV n)
  | 2 => s.dbState n
  | _ => 0

/-- The pending-bit array (R283): vector t has a deliverable source that a message decision may not take. -/
def State.pbaWord (s : State) : Word :=
  (List.range 16).foldl (fun a t => if s.messageWaits t then a ||| (1#32 <<< t) else a) 0

/-- Entry t of the MSI-X table reads back the CA_MSIX fields (R172, R292): address, data, vector control. -/
def State.msixWord (s : State) (t k : Nat) : Word := s.reg t (0x224 + k)

/-- Words of BAR2 below the status mirror and above it, as the host reads them with no side effect (R172, R283, R288, R292). The
claim word is a command of its own. -/
def State.targetWord (s : State) (k : Nat) : Word :=
  if k < 0x4000 then
    match k % 0x400 with
    | 3 => s.privWord (k / 0x400)
    | 4 => s.tstatWord (k / 0x400)
    | _ => 0
  else if 0x8000 ≤ k ∧ k < 0x8040 then s.msixWord ((k - 0x8000) / 4) (k % 4)
  else if k = 0x8400 then s.pbaWord
  else 0

/-- A word of a BAR as the host reads it; 0 at an unimplemented address (R24). -/
def State.barWord (s : State) (bar2 : Bool) (k : Nat) : Word :=
  if bar2 then s.targetWord k else s.doorbellWord (k / 0x400) (k % 0x400)

/-- A read reaches a claim word, or the status mirror: those reads are commands of their own. -/
def readElsewhere (bar2 : Bool) (first last : Nat) : Bool :=
  bar2 && (List.range (last - first)).any (fun i =>
    decide (first + i < 0x4000 ∧ (first + i) % 0x400 = 0) || decide (0x4000 ≤ first + i ∧ first + i < 0x8000))

/-- HOST_READ_UNIMPL (R24, R170, R172, R288): a host read of `n` bytes of a BAR completes with the words at its addresses, 0 at an
unimplemented one. -/
def execHostReadUnimpl (bar2 : Bool) (offset n : Nat) (s : State) : Host.Outcome State Fault Refusal :=
  let first := offset / 4
  let last := (offset + n + 3) / 4
  .next (if readElsewhere bar2 first last || !s.link.up then s else
    s.emit (.readData ((List.range (last - first)).map (fun i => s.barWord bar2 (first + i)))))

/-! ### Configuration space (R166 to R168) -/

/-- Vendor and Device ID, class code, Subsystem IDs and the Device Serial Number as configuration space reports them (R166,
R167). -/
def configId : Word := 0x1024#16 ++ Config.pciVendor
def configClass : BitVec 24 := 0x118000#24
def configSubsystem : Word := Config.subsystem ++ Config.subsystemVendor
def configSerial : BitVec 64 := Config.serial

/-! ### Sleep conditions (R206, R286) -/

/-- Follow the sleep condition: at its start the coalescing of every source is cut short (R286). -/
def State.noteSleep (s : State) : State :=
  (if s.sleeping then
    if s.link.sleepAt.isSome then s
    else ({ s with link := { s.link with sleepAt := some s.now } } : State).cutCoalescing
  else if s.link.sleepAt.isSome then
    let held := (s.staging.filter (fun r => !r.prov && r.eligible && r.slot.isNone)).map (·.uid)
    { s with link := { s.link with sleepAt := none, waiting := held } }
  else s).noteReadyAll

/-- The domain HOST follows the link: RUN in D0 with the link in L0, NAP in D3hot (R431). -/
def State.hostPower (s : State) : State :=
  { s with power := { s.power with
      host := if s.power.host = .dark then .dark else if s.link.d3hot then .nap
              else if s.link.pm = .l0 then .run else s.power.host } }

/-- Configuration space at its reset values (R482; the values PRESUMED from the Base Specification, log entry 23). -/
def Link.configReset (l : Link) : Link :=
  { l with bme := false, msixEn := false, funcMask := false, d3hot := false, pmeEn := false, aspmL1 := false, ecrcGen := false,
           ecrcCheck := false, pmeOut := false, mps := 128, mrrs := 512, bar0 := 0, bar2 := 0 }

/-- The registers of configuration space the rules use, after a write of one (R168; widths PRESUMED from the Base
Specification, log entry 23). A size the device does not support leaves the field (R166). -/
def Link.config (l : Link) : CfgWrite → Link
  | .command b => { l with bme := b }
  | .msix e m => { l with msixEn := e, funcMask := m }
  | .power d p clear => { l with d3hot := d, pmeEn := p, pmeOut := l.pmeOut && !clear }
  | .deviceControl m r =>
    { l with mps := if m = 128 ∨ m = 256 ∨ m = 512 then m else l.mps,
             mrrs := if r = 128 ∨ r = 256 ∨ r = 512 ∨ r = 1024 ∨ r = 2048 ∨ r = 4096 then r else l.mrrs }
  | .aspm b => { l with aspmL1 := b }
  | .ecrc g c => { l with ecrcGen := g, ecrcCheck := c }
  | .bar0 b => { l with bar0 := b &&& 0xFFFFFFFFFFF00000#64 }
  | .bar2 b => { l with bar2 := b &&& 0xFFFFFFFFFFFC0000#64 }
  | .other => l

/-- CONFIG_WRITE (R168, R206, R285): the write brings the link to L0; in D3hot the link goes back to L1 after it. -/
def execConfigWrite (c : CfgWrite) (s : State) : Host.Outcome State Fault Refusal :=
  if !s.running || !s.link.up then .next s else
  let masked := s.link.funcMask
  let s := if s.link.pm = .l1 then s.emit .linkL0 else s
  let l := ({ s.link with pm := .l0, idleFrom := s.now } : Link).config c
  let s : State := { s with link := l }
  let s := if l.d3hot then ({ s with link := { l with pm := .l1 } } : State).emit .linkL1 else s
  let s := if l.funcMask && !masked then s.markWindow (fun _ => true) else s
  .next (s.emit .cfgDone).hostPower.noteSleep

/-- A submission ring has a descriptor to read, or a port descriptor data that fit its transmit space (R147, R176). -/
def State.fetchWaits (s : State) : Bool :=
  s.rings.any (fun (n, r) => r.state == .active && s.rd Reg.RG_CFG_KIND n == 0 && r.issued != r.host &&
    decide (s.descHeld n < 128)) ||
  s.ports.any (fun (p, x) => x.resumed.isSome ||
    (x.queue.find? (fun d => d.data.isNone)).any (fun d => decide (s.txUsed p + d.len ≤ s.txSpace p)))

/-- Something waits to be requested of the link (R205). -/
def State.requestWaits (s : State) : Bool :=
  (s.readyMsg).isSome || !s.readyRings.isEmpty || s.staging.any (·.rewrite) || !s.flushes.isEmpty || s.flushDue ||
  (s.mayRequest && s.fetchWaits)

/-- ASPM_L1_REQUEST (R205, R431): 16,000 DCLK without a pending request; time passes to that edge. -/
def execAspmL1Request (s : State) : Host.Outcome State Fault Refusal :=
  if s.running && s.link.aspmL1 && s.link.pm == .l0 && !s.link.d3hot && !s.requestWaits then
    let s := s.advance (s.link.idleFrom + 16000)
    .next (({ s with link := { s.link with pm := .l1 }, power := { s.power with host := .idle } } : State).emit .linkL1)
  else .next s

/-- LINK_DOWN (R218, R270, R482): the link goes down, or Hot Reset or a link disable takes it down. -/
def execLinkDown (s : State) : Host.Outcome State Fault Refusal :=
  if !s.link.up then .next s else
  let d0 := !s.link.d3hot
  let s := s.incSat Reg.RG_LINK_DOWNS
  let l := s.link.configReset
  let s : State := { s with link := { l with pm := .down, speed := 0, width := 0, flit := false }, flushes := [] }
  let s := s.unwrite.hostPower.noteSleep
  .next (if d0 then s.raiseEvent 273 (s.rd Reg.RG_LINK_DOWNS) else s)

/-- A rate and width the device supports (R166): 2.5 to 64 GT/s as codes 1 to 6, x1 to x16; 64 GT/s in FLIT mode only. -/
def linkMode (speed : BitVec 4) (width : BitVec 6) (flit : Bool) : Bool :=
  decide (1 ≤ speed.toNat ∧ speed.toNat ≤ 6) && [1, 2, 4, 8, 16].contains width.toNat && (speed != 6 || flit)

/-- LINK_UP (R166, R287, R417): training ends in a mode of R166 and the link core is ready; WAKE# is released. -/
def execLinkUp (speed : BitVec 4) (width : BitVec 6) (flit : Bool) (s : State) : Host.Outcome State Fault Refusal :=
  if !linkMode speed width flit || !s.running || s.link.perst || s.link.up || s.power.host == .dark then .next s else
  let s := if s.link.wakeOut then s.emit (.wakeN false) else s
  .next (({ s with link := { s.link with pm := .l0, speed := speed, width := width, flit := flit, idleFrom := s.now,
                                         wakeOut := false } } : State).hostPower.noteSleep)

/-! ### Wake requests (R206, R287, R290) -/

/-- A source whose pending state asks for a wake request. -/
def State.wakeSource (s : State) : Bool :=
  s.srcs.any (fun (n, x) => x.state == .pend && s.srcOn n && (!s.engagedShadow || decide (275 ≤ n ∧ n ≤ 279)))

/-- WAKE_REQUEST (R206, R287): PM_PME in D3hot, for which the link leaves L1 and to which it returns; WAKE# in L2 and D3cold. A
PM_PME is repeated while PME_Status stays 1, and counted once. -/
def execWakeRequest (s : State) : Host.Outcome State Fault Refusal :=
  if !s.running || !s.link.pmeEn || !s.wakeSource then .next s else
  let cold := s.link.pm == .l2 || s.power.host == .dark
  if cold then
    if s.link.wakeOut then .next s else
    .next ((({ s with link := { s.link with wakeOut := true } } : State).incSat Reg.RG_LINK_PMES).emit (.wakeN true))
  else if s.link.d3hot && s.link.up then
    let s := if s.link.pmeOut then s else s.incSat Reg.RG_LINK_PMES
    let s := if s.link.pm = .l1 then s.emit .linkL0 else s
    .next ((({ s with link := { s.link with pmeOut := true, pm := .l1 } } : State).emit .pme).emit .linkL1)
  else .next s

end Sys2Proof.Machine
end

