-- ==== Sys2Proof/Machine/Timebase.lean ====
section
/-!
DEFINITION. Timebase (02_timebase.md): calibration of delay lines, SYNC, Solstice, the pair offset, Fresco; the checks,
effects and views of the TB_ registers; and the commands that are its own events. C itself stands in `State.c` (R35). The
latch of a Fresco reads every register and stands with the chain's reads.
-/
namespace Sys2Proof.Machine

/-! ### Calibration (R39, R40) -/

/-- A port or a line monitor is enabled: a port by either of its enables, a monitor while it is armed (R362). -/
def State.portsOrMonitorsOn (s : State) : Bool :=
  !s.enabledPorts.isEmpty || s.mons.any (fun x => x.2.armed)

/-- The pin whose line it is; none for a SYNC line. -/
def CalLine.pin : CalLine → Option Nat
  | .upper q | .lower q | .driver q => some q.val
  | .syncIn | .syncOut => none

/-- CAL_MEASURE_DONE (R39, R40): 65,536 DCLK after the start. `fails` are the lines measured outside 0.4 to 1.6 ticks, each
counted; a station line measured well is on its own table (DEDUCED, log entry 25). A written RUN measures the station lines
alone, and the SYNC lines keep what Gesso left. Its end goes to the Almanac (R448). -/
def execCalMeasureDone (fails : List CalLine) (s : State) : Host.Outcome State Fault Refusal :=
  match s.tb.calAt with
  | none => .next s
  | some a =>
    if !s.clocked || s.clk.stopped then .next s else
    let s := s.advance (a + 65536)
    let pins := fails.filterMap CalLine.pin
    let sync := if s.boot.stage = .gesso then (fails.filter (fun l => l.pin.isNone)).length else s.tb.calSync
    let s : State := { s with tb := { s.tb with calAt := none, calSync := sync } }
    let s := (s.listed 0x0A1).foldl (fun s q => s.wr Reg.TB_PINPATH_CAL_FAIL 0 q) s
    let s := pins.foldl (fun s q => s.wr Reg.TB_PINPATH_CAL_FAIL 1 q) s
    let n := pins.length + sync
    let s := (s.wr Reg.TB_CAL_STAT_FAILED (min n 0xFFFF)).wrBit Reg.TB_CAL_STAT_FAIL (n != 0)
    .next (if s.boot.stage = .gesso then s else s.calibEntry 2 0 (s.rd Reg.TB_CAL_STAT_FAILED))

/-! ### SYNC (R44, R45) -/

/-- The fixed delays of SYNC_IN. -/
def State.passIn (s : State) : Stamp := ticks (s.rd Reg.TB_PASS_IN)
def State.syncDly (s : State) : Stamp := ticks (s.rd Reg.TB_SYNC_DLY)

/-- A rising edge that does not qualify (R45), known at the DCLK edge that samples the change which fails it (R50). -/
def State.syncGlitch (s : State) : State :=
  let s := s.advance (s.now + 1)
  let s := (s.incSat Reg.TB_SYNC_CNT_GLITCH).wr Reg.TB_STAT_SYNC_GLITCH 1
  s.raiseEvent 268 (s.rd Reg.TB_SYNC_CNT_GLITCH)

/-- The rising edge being qualified has its 16 high samples: it counts, TB_SYNC_LAST takes it, and an armed Solstice is
committed on it (R45, R50). -/
def State.syncQualify (s : State) (e : SyncEdge) : State :=
  let s := s.incWrap Reg.TB_SYNC_CNT_EDGES
  let armed := match s.tb.armedAt with
    | some a => decide (a < e.n + 1) && s.tb.commit.isNone
    | none => false
  { s with tb := { s.tb with syncEdge := none, commit := if armed then some e else s.tb.commit,
                             syncLast := e.c + ticks e.u - s.syncDly - s.passIn } }

/-- The last change of SYNC_OUT is taken back: its pulse is too short to be forwarded (R44). -/
def dropSyncOut (l : List Out) : List Out :=
  let isSync : Out → Bool := fun o => match o with | .syncOut _ _ => true | _ => false
  (l.reverse.eraseP isSync).reverse

/-- SYNC_OUT follows a level of SYNC_IN after TB_PASS_THRU, when it shows the other one (R44). -/
def State.sendSync (s : State) (level : Bool) : State :=
  let differs := s.tb.syncOut != level
  let s : State := { s with tb := { s.tb with syncOut := level, syncSent := differs } }
  if differs then s.emit (.syncOut level (s.rd Reg.TB_PASS_THRU)) else s

/-- A level change of SYNC_IN at an instant is forwarded; one that ends a pulse shorter than 2 DCLK takes back the change that
began the pulse, when that one was forwarded (R44). -/
def State.forwardSync (s : State) (level : Bool) (at_ : Nat) : State :=
  (if at_ < s.tb.syncAt + 32 && s.tb.syncSent then
    { s with out := dropSyncOut s.out, tb := { s.tb with syncOut := !s.tb.syncOut } } else s).sendSync level

/-- DCLK is valid again: SYNC_IN is sampled from this edge on, and SYNC_OUT follows it (R44, R413). -/
def State.startSync (s : State) : State :=
  ({ s with tb := { s.tb with syncAt := 16 * s.now, syncEdge := none } } : State).sendSync s.tb.syncIn

/-- SYNC_IN_EDGE (R44, R45): SYNC_IN changes at tap `u` after the present DCLK edge. A rising edge needs 16 DCLK of low
before it, and the level must stand for its 16 samples. Without DCLK nothing samples the change. -/
def execSyncInEdge (level : Bool) (u : Fin 16) (s : State) : Host.Outcome State Fault Refusal :=
  if s.tb.syncIn == level then .next s else
  if !s.clocked then .next { s with tb := { s.tb with syncIn := level } } else
  let at_ := 16 * s.now + u.val
  let low := decide (s.tb.syncAt + 256 ≤ at_)
  let s := s.forwardSync level at_
  let s : State := { s with tb := { s.tb with syncIn := level, syncAt := at_ } }
  if level then
    if low then .next { s with tb := { s.tb with syncEdge := some ⟨s.now, u.val, s.c⟩ } } else .next s.syncGlitch
  else
    match s.tb.syncEdge with
    | none => .next s
    | some e =>
      if e.n + 17 ≤ s.now then .next (s.syncQualify e)
      else .next (({ s with tb := { s.tb with syncEdge := none } } : State).syncGlitch)

/-- SYNC_QUALIFIED (R45, R50): the last of the 16 high samples, at N + 17. -/
def execSyncQualified (s : State) : Host.Outcome State Fault Refusal :=
  match s.tb.syncEdge with
  | some e => if s.clocked then .next ((s.advance (e.n + 17)).syncQualify e) else .next s
  | none => .next s

/-! ### Solstice (R49, R50) -/

/-- A pending Fresco is cancelled (R56). -/
def State.cancelFresco (s : State) : State :=
  if s.on Reg.TB_STAT_FR_PENDING then (s.wr Reg.TB_STAT_FR_PENDING 0).wr Reg.TB_STAT_FR_CANCELLED 1 else s

/-- An armed Solstice is cancelled, committed or not. -/
def State.cancelSolstice (s : State) : State := { s with tb := { s.tb with armedAt := none, commit := none } }

/-- E. -/
def State.solE (s : State) : Stamp := s.reg 0 0x084 ++ (s.reg 0 0x083 : Word)

/-- C at N + 20 of the committed edge (R50). -/
def State.solsticeC (s : State) (e : SyncEdge) : Stamp := s.solE + s.syncDly + s.passIn + 320 - ticks e.u

/-- SOLSTICE_APPLY (R50, R54): at N + 20 of the committed edge. -/
def execSolsticeApply (s : State) : Host.Outcome State Fault Refusal :=
  match s.tb.commit with
  | none => .next s
  | some e =>
    if !s.clocked then .next s else
    let s := s.advance (e.n + 20)
    let s : State := { s with c := s.solsticeC e,
                              tb := { s.tb with syncLast := s.solE, armedAt := none, commit := none, pairFrozen := false } }
    let s := ((s.wr Reg.TB_STAT_EPOCH_VALID 1).wr Reg.TB_STAT_SOL_DONE 1).wr Reg.TB_PAIROFS_OFS 0
    let s := s.cancelFresco
    .next ((s.epochEntry s.solE).raiseEvent 266 (s.reg 0 0x083).toNat)

/-! ### The pair offset (R53) -/

/-- One edge that both members stamped, with the stamps of this member and of the primary: the window takes their difference,
without the offset (DEDUCED, log entry 26), and closes at 1,024 edges (R53). -/
def Timebase.sharedEdge (ofs : Stamp) (tb : Timebase) (e : Stamp × Stamp) : Timebase :=
  let sum := tb.pairSum + (e.1 + ofs - e.2).toInt
  if tb.pairEdges = 1023 then { tb with pairEdges := 0, pairSum := 0, pairWindows := tb.pairWindows ++ [sum] }
  else { tb with pairEdges := tb.pairEdges + 1, pairSum := sum }

/-- The edges of a decision block that an engaged shadow has stamped too (R53, R245). -/
def State.shareEdges (s : State) (l : List (Stamp × Stamp)) : State :=
  { s with tb := l.foldl (Timebase.sharedEdge s.pairOfs) s.tb }

/-- PAIROFS_WINDOW (R53): the oldest window that has closed, with this sum, acts in an engaged shadow. -/
def execPairofsWindow (sum : Int) (s : State) : Host.Outcome State Fault Refusal :=
  match s.tb.pairWindows with
  | [] => .next s
  | first :: rest =>
    if !s.running || !s.engagedShadow || first != sum then .next s else
    let mean := roundDivInt sum 1024
    let old := (BitVec.ofNat 16 (s.rd Reg.TB_PAIROFS_OFS)).toInt
    let new := if !s.on Reg.TB_PAIROFS_VALID then mean else if old < mean then old + 1 else if mean < old then old - 1 else old
    let s : State := { s with tb := { s.tb with pairWindows := rest } }
    .next ((s.wr Reg.TB_PAIROFS_OFS (BitVec.ofInt 16 new).toNat).wr Reg.TB_PAIROFS_VALID 1)

/-! ### Fresco (R55 to R59) -/

/-- F, and the count it is compared with (R58). -/
def State.frF (s : State) : Stamp := s.reg 0 0x091 ++ (s.reg 0 0x090 : Word)
def State.frCount (s : State) : Stamp := s.c - s.pairOfs

/-- A word of a level group (R355), which a station of the group names. -/
def isGroupWord (w : Nat) : Bool := decide (0x610 ≤ w ∧ w ≤ 0x615)

/-- The instance that a value of SEL, or of TB_FR_ADDR_INST, names for a word. -/
def selInstance (w sel : Nat) : Nat := if isGroupWord w then sel / 16 else sel

/-- TB_FR_DATA of the present address; RW and WO fields and words outside the map read 0 (R59). A word outside every window
has one instance, 0, and reads 0 under any other TB_FR_ADDR_INST: the spec does not say what it reads (DESIGN CHOICE, log
entry 93). -/
def State.frWord (s : State) : Word :=
  let w := s.rd Reg.TB_FR_ADDR_WORD
  if w = 0xFFF then 0 else Sparse.get (fun _ => 0) s.tb.snap (selInstance w (s.rd Reg.TB_FR_ADDR_INST) * 4096 + w)

/-! ### Register checks, effects and views -/

/-- Values the TB_ registers accept (R49, R63). -/
def tbValue (w : Nat) (d : Word) : Bool :=
  match w with
  | 0x085 => !(Reg.TB_SOL_CTL_ARM.get d == 1 && Reg.TB_SOL_CTL_CANCEL.get d == 1)
  | 0x0A0 => d.toNat < 4096 || d.toNat == 0xFFFF
  | _ => true

/-- F lies far enough in the future for an arm (R55). -/
def State.frFar (s : State) : Bool := sLt s.frCount s.frF && decide (16384 ≤ (s.frF - s.frCount).toNat)

/-- Writes the state refuses (R39, R49, R55); the value check of R55 comes before its state checks (R318). -/
def tbState (s : State) (w : Nat) (d : Word) : Code :=
  match w with
  | 0x083 | 0x084 | 0x086 => Code.unless s.tb.armedAt.isNone Code.state
  | 0x085 =>
    if Reg.TB_SOL_CTL_ARM.get d = 1 then
      Code.unless (s.tb.armedAt.isNone && s.clk.locked && (s.listed 0x501).all (fun n => !s.on Reg.RG_CFG_EN n)) Code.state
    else Code.ok
  | 0x08C =>
    if Reg.TB_CAL_CTL_RUN.get d = 1 then
      Code.unless (!s.portsOrMonitorsOn && s.tb.armedAt.isNone && !s.on Reg.TB_STAT_FR_PENDING && s.tb.calAt.isNone) Code.state
    else Code.ok
  | 0x092 =>
    if Reg.TB_FR_CTL_ARM.get d = 1 then
      (Code.unless s.frFar Code.value).andThen
        (Code.unless (s.on Reg.TB_STAT_EPOCH_VALID && !s.on Reg.TB_STAT_FR_PENDING && !s.on Reg.TB_STAT_FR_VALID) Code.state)
    else Code.ok
  | _ => Code.ok

/-- What follows a stored word (R52): a change of TB_SYNC_DLY goes to the Almanac. -/
def tbApply (s : State) (w : Nat) (old : Word) : State :=
  if w = 0x086 ∧ old ≠ s.reg 0 0x086 then s.calibEntry 1 old.toNat (s.reg 0 0x086).toNat else s

/-- CANCEL takes effect up to N + 17 of a qualified edge, and changes nothing after it (R49, R50). -/
def State.solCancelNow (s : State) : State :=
  match s.tb.commit with
  | some e => if s.now ≤ e.n + 17 then s.cancelSolstice else s
  | none => s.cancelSolstice

/-- Actions of the WO fields. RELEASE and CANCEL act before ARM of the same write (DESIGN CHOICE, log entry 12). -/
def tbAct (s : State) (w : Nat) (d : Word) : State :=
  match w with
  | 0x085 =>
    if Reg.TB_SOL_CTL_ARM.get d = 1 then { s with tb := { s.tb with armedAt := some s.now } }
    else if Reg.TB_SOL_CTL_CANCEL.get d = 1 then s.solCancelNow else s
  | 0x08C => if Reg.TB_CAL_CTL_RUN.get d = 1 then { s with tb := { s.tb with calAt := some s.now } } else s
  | 0x092 =>
    let s := if Reg.TB_FR_CTL_RELEASE.get d = 1 then s.wr Reg.TB_STAT_FR_VALID 0 else s
    let s := if Reg.TB_FR_CTL_CANCEL.get d = 1 then s.cancelFresco else s
    if Reg.TB_FR_CTL_ARM.get d = 1 then s.wr Reg.TB_STAT_FR_PENDING 1 else s
  | _ => s

/-- The views of the TB_ block. -/
def tbView (s : State) (w : Nat) (v : Word) : Word :=
  match w with
  | 0x080 =>
    Reg.TB_STAT_PAIR_LOCKED.set (Reg.TB_STAT_CAL_DONE.set (Reg.TB_STAT_SOL_ARMED.set v s.tb.armedAt.isSome.toNat)
      s.tb.calAt.isNone.toNat) (s.rd Reg.TB_PAIROFS_VALID)
  | 0x081 => s.c.truncate 32
  | 0x082 => s.tb.nowHold
  | 0x088 => s.tb.syncLast.truncate 32
  | 0x089 => s.tb.syncHold
  | 0x08D => Reg.TB_CAL_STAT_BUSY.set v s.tb.calAt.isSome.toNat
  | 0x094 => s.frWord
  | _ => v

end Sys2Proof.Machine
end

