-- ==== Sys2Proof/Machine/AuxMaster.lean ====
section
/-!
DEFINITION. Auxiliary serial masters and the boot flash reader (14_aux_masters.md): transfers, the held select, the mapped
read and discovery; the checks, effects and views of the AX_ registers; and the commands that are their own events.
-/
namespace Sys2Proof.Machine

/-! ### Transfers (R397 to R401) -/

/-- Word and bit position of bit i of a transfer (R397). -/
def bitWord (i : Nat) : Nat := i / 32
def bitPos (lsb : Bool) (i : Nat) : Nat := if lsb then i % 32 else 31 - i % 32

/-- A word with one bit replaced. -/
def setBit (w : Word) (k : Nat) (b : Bool) : Word := if b then w ||| (1#32 <<< k) else w &&& ~~~ (1#32 <<< k)

/-- The buffer with received bits from bit i on in place (R397). -/
def storeBits (lsb : Bool) : Nat → List Bool → Sparse Word → Sparse Word
  | _, [], m => m
  | i, b :: t, m =>
    let w := Sparse.get (fun _ => 0) m (bitWord i)
    storeBits lsb (i + 1) t (Sparse.put (fun _ => 0) m (bitWord i) (setBit w (bitPos lsb i) b))

def State.auxHalf (s : State) (m : Nat) : Nat := s.rd Reg.AX_CFG_HALF m
def State.auxTrail (s : State) (m : Nat) : Nat := s.rd Reg.AX_DLY_TRAIL m
def State.auxGap (s : State) (m : Nat) : Nat := max 1 (s.rd Reg.AX_DLY_GAP m)
def State.auxLsb (s : State) (m : Nat) : Bool := s.on Reg.AX_CFG_LSB m

/-- DCLK edge of a transfer's last bit: S + L + 2 * H * n (R399). -/
def State.auxEnd (s : State) (m : Nat) : Nat :=
  (s.aux m).startAt + (s.aux m).lead + 2 * s.auxHalf m * s.rd Reg.AX_XFER_LEN m

/-- Bits whose MISO sample has been taken by the present edge (R398, R399). -/
def State.auxTaken (s : State) (m : Nat) : Nat :=
  let x := s.aux m
  let first := x.startAt + x.lead + (if s.rd Reg.AX_CFG_MODE m % 2 = 0 then s.auxHalf m else 2 * s.auxHalf m) +
    s.rd Reg.AX_CFG_SDLY m
  if s.now < first then 0 else min (s.rd Reg.AX_XFER_LEN m) ((s.now - first) / (2 * max 1 (s.auxHalf m)) + 1)

/-- Bit i of the transfer as the buffer holds it (R397). -/
def State.auxBit (s : State) (m i : Nat) : Bool :=
  (Sparse.get (fun _ => 0) (s.aux m).buf (bitWord i)).getLsbD (bitPos (s.auxLsb m) i)

/-! ### Pins (R395, R398, R399): `none` while an output is high-impedance; AUX0's SCK and MOSI during a block load are not
given -/

/-- The half-periods of SCK that have begun since the transfer's lead delay: an odd one is active (R399); none outside a running
transfer. -/
def State.auxHalves (s : State) (m : Nat) : Option Nat :=
  let x := s.aux m
  if x.state = .busy && !x.startWaits && x.releaseAt.isNone && decide (x.startAt ≤ s.now) then
    some ((s.now - (x.startAt + x.lead)) / max 1 (s.auxHalf m))
  else none

/-- SCK: the CPOL level at rest, the other in an active half-period. -/
def State.auxSck (s : State) (m : Nat) : Option Bool :=
  if !s.on Reg.AX_CFG_EN m then none else
  let cpol := decide (2 ≤ s.rd Reg.AX_CFG_MODE m)
  some (match s.auxHalves m with
    | some h => cpol != (h % 2 == 1 && decide (h < 2 * s.rd Reg.AX_XFER_LEN m))
    | none => cpol)

/-- MOSI: low at rest; bit i from the trailing edge before it (CPHA 0), or from its leading edge (CPHA 1). -/
def State.auxMosi (s : State) (m : Nat) : Option Bool :=
  if !s.on Reg.AX_CFG_EN m then none else
  let last := s.rd Reg.AX_XFER_LEN m - 1
  some (match s.auxHalves m with
    | some h =>
      if s.rd Reg.AX_CFG_MODE m % 2 = 0 then s.auxBit m (min last (h / 2))
      else decide (0 < h) && s.auxBit m (min last ((h - 1) / 2))
    | none => (s.aux m).csOn && !(s.aux m).startWaits && (s.aux m).lastBit)

/-- Select c: asserted from the start edge of a transfer until its release, and CS0 of AUX0 during a block load and in continuous
read; AX_CFG_CSPOL gives its active level. -/
def State.auxCs (s : State) (m c : Nat) : Option Bool :=
  if !s.on Reg.AX_CFG_EN m then none else
  let x := s.aux m
  let on := (x.csOn && x.cs == c && decide (x.startAt ≤ s.now)) || (m == 0 && c == 0 && (s.flash.busy || s.flash.hold))
  some (on == (s.rd Reg.AX_CFG_CSPOL m / 2 ^ c % 2 == 1))

/-- The select is released T DCLK from now; the next transfer starts after the gap (R399, R400). -/
def State.auxRelease (s : State) (m : Nat) : State :=
  s.modAux m (fun x =>
    { x with state := .busy, releaseAt := some (s.now + s.auxTrail m), freeAt := s.now + s.auxTrail m + s.auxGap m })

/-- A transfer starts (R399, R400): at once or when the gap has run out; with no lead delay from HELD. -/
def State.auxBegin (s : State) (m : Nat) : State :=
  let held := (s.aux m).state == .held
  let cs := s.rd Reg.AX_XFER_CS m
  let s := s.modAux m (fun x =>
    { x with state := .busy, startAt := max s.now (if held then s.now else x.freeAt), csOn := true, cs := cs,
             lead := if held then 0 else s.rd Reg.AX_DLY_LEAD m, startWaits := false, releaseAt := none })
  s.emit (.auxBegin m cs (s.rd Reg.AX_XFER_LEN m))

/-- An error of a master: its flag, and source 282 (R403). -/
def State.auxError (s : State) (m : Nat) (f : Fld) (cause : Nat) : State :=
  (s.wr f 1 m).raiseEvent 282 (m + 256 * cause)

/-! ### Mapped read (R406 to R409) -/

/-- Clocks of a block load: command, address and dummy clocks before the data, and none of them on a resume. -/
def State.blockClocks (s : State) (resume : Bool) : Nat :=
  (if resume then 0 else 8 + (if s.on Reg.AX_FLCFG_ADDR4 then 32 else 24) + 8) + 2048

/-- The load of the block named by AX_FLADDR starts. -/
def State.loadBlock (s : State) (block : Nat) (resume : Bool) : State :=
  let at_ := if resume then s.now else max s.now (s.aux 0).freeAt + s.rd Reg.AX_DLY_LEAD 0
  ({ s with flash := { s.flash with block := some block, words := [], busy := true, waits := false, hold := false,
                                    doneAt := at_ + 2 * s.auxHalf 0 * s.blockClocks resume } } : State).emit
    (.flashRead block resume)

/-- Continuous read ends: CS0 is released after T (R408). -/
def State.endHold (s : State) : State :=
  if s.flash.hold then
    (({ s with flash := { s.flash with hold := false } } : State).modAux 0 (fun x =>
      { x with freeAt := s.now + s.auxTrail 0 + s.auxGap 0 })).emit (.auxSelect 0 0 false)
  else s

/-- A load that waited for AUX0 to be IDLE starts (R409). -/
def State.resumeLoad (s : State) : State :=
  match s.flash.block with
  | some b => if s.flash.waits ∧ (s.aux 0).state = .idle then s.loadBlock b false else s
  | none => s

/-- A block load is cut short: CS0 is released, and a START that waited for the load begins (R399, R406, R409). -/
def State.cutLoad (s : State) : State :=
  if !s.flash.busy then s else
  let s := (({ s with flash := { s.flash with busy := false } } : State).modAux 0 (fun x =>
    { x with freeAt := s.now + s.auxTrail 0 + s.auxGap 0 })).emit (.auxSelect 0 0 false)
  if (s.aux 0).startWaits then s.auxBegin 0 else s

/-- The block an address lies in. -/
def blockOf (addr : Nat) : Nat := addr / 256 * 256

/-- A write of AX_FLADDR (R406, R408, R409). -/
def State.flashAddress (s : State) : State :=
  let b := blockOf (s.rd Reg.AX_FLADDR * 4)
  if !s.on Reg.AX_FLCFG_EN || s.flash.block == some b then s
  else
    let next := s.flash.hold && s.flash.block == some (b - 256) && decide (256 ≤ b)
    if next && (s.aux 0).state == .idle then s.loadBlock b true
    else
      let s := s.endHold.cutLoad
      if (s.aux 0).state == .idle then s.loadBlock b false
      else { s with flash := { s.flash with block := some b, words := [], busy := false, waits := true } }

/-- The buffer is discarded and continuous read ends (R408). -/
def State.dropBlock (s : State) : State :=
  let s := s.endHold.cutLoad
  { s with flash := { s.flash with block := none, words := [], waits := false } }

/-- Words of the block that have arrived (R407): each takes 32 data clocks, the last of them ends the load. -/
def State.flashArrived (s : State) : Nat :=
  if s.flash.busy then
    let h := 64 * max 1 (s.auxHalf 0)
    64 - (s.flash.doneAt - s.now + h - 1) / h
  else min 64 s.flash.words.length

/-- A word of the block; the value of one that has arrived before the load ends is free (log entry 3). -/
def State.flashWord (s : State) (k : Nat) : Word :=
  if s.flash.busy && decide (k < s.flashArrived) then (Config.freeValue s.free).truncate 32 else s.flash.words.getD k 0

/-- A START (R399, R409): on AUX0 it waits for a block load, and ends continuous read. -/
def State.auxStart (s : State) (m : Nat) : State :=
  if m = 0 ∧ s.flash.busy then s.modAux 0 (fun x => { x with state := .busy, startWaits := true })
  else (if m = 0 then s.endHold else s).auxBegin m

/-- ABORT (R400, R401): a running transfer keeps the bits taken before this edge; those of them that no command names are
free values (log entry 3). -/
def State.auxAbort (s : State) (m : Nat) (bits : List Bool) : State :=
  let x := s.aux m
  match x.state with
  | .held => s.auxRelease m
  | .busy =>
    if x.releaseAt.isSome then s
    else if x.startWaits then
      ((s.modAux m (fun x => { x with state := .idle, startWaits := false })).wr Reg.AX_CNT_BITS 0 m).auxError m
        Reg.AX_STAT_EV_ABORT 2
    else
      let n := s.auxTaken m
      let (v, s) := s.takeFree
      let got := (List.range n).map (fun i => (bits[i]?).getD (v.getLsbD (i % 64)))
      let lsb := s.auxLsb m
      let last := s.auxBit m (n - 1)
      let s := s.modAux m (fun x => { x with buf := storeBits lsb 0 got x.buf, lastBit := last })
      ((s.wr Reg.AX_CNT_BITS n m).auxRelease m).auxError m Reg.AX_STAT_EV_ABORT 2
  | _ => s

/-! ### Register checks, effects and views -/

/-- An aperture word. -/
def isAperture (w : Nat) : Bool := decide (0x8C0 ≤ w ∧ w ≤ 0x8FF)

/-- The aperture of a master shows the flash block: its words are RO (R409, R410). -/
def State.flashView (s : State) (i : Nat) : Bool := i == 0 && s.rd Reg.AX_BUFCFG_VIEW i == 2

/-- Buffer word that aperture word `w` shows. -/
def State.bufWord (s : State) (i w : Nat) : Nat := 64 * s.rd Reg.AX_BUFCFG_VIEW i + (w - 0x8C0)

/-- Values the AX_ registers accept (R398, R406, R409, R410). -/
def axValue (s : State) (all : Bool) (i w : Nat) (d : Word) : Bool :=
  match w with
  | 0x880 => d.toNat < 8 || d.toNat == 0xFFFF
  | 0x881 => decide (8 ≤ Reg.AX_CFG_HALF.get d)
  | 0x883 => decide (1 ≤ Reg.AX_XFER_LEN.get d ∧ Reg.AX_XFER_LEN.get d ≤ 4096)
  | 0x886 => d.toNat != 0
  | 0x888 =>
    let v := Reg.AX_BUFCFG_VIEW.get d
    v != 3 && !(v == 2 && (all || i != 0))
  | 0x8A1 =>
    (s.on Reg.AX_FLCFG_ADDR4 || decide (d.toNat < 2 ^ 24)) &&
    (!s.on Reg.AX_SFDP_OK || decide (d.toNat < 2 ^ s.rd Reg.AX_SFDP_DENS))
  | _ => true

/-- Writes the state refuses (R402, R404). -/
def axState (s : State) (i w : Nat) (d : Word) : Code :=
  let x := s.aux i
  let boot := Code.unless (x.state != .boot) Code.state
  if 0x8A0 ≤ w ∧ w ≤ 0x8A5 then Code.unless ((s.aux 0).state != .boot) Code.state
  else if w = 0x881 ∨ w = 0x882 then boot.andThen (Code.unless (x.state != .busy && x.state != .held) Code.state)
  else if w = 0x883 then
    boot.andThen (Code.unless (x.state != .busy && !(x.state == .held && Reg.AX_XFER_CS.get d != x.cs)) Code.state)
  else if w = 0x884 then
    let n := s.rd Reg.AX_XFER_LEN i
    if Reg.AX_CTL_START.get d = 1 then
      (Code.unless (decide (1 ≤ n ∧ n ≤ 4096)) Code.value).andThen (boot.andThen (Code.unless
        (x.state == .idle || (x.state == .off && s.on Reg.AX_CFG_EN i) || (x.state == .held && s.rd Reg.AX_XFER_CS i == x.cs))
        Code.state))
    else boot
  else if isAperture w then boot.andThen (Code.unless (x.state != .busy) Code.state)
  else if w = 0x880 then Code.ok
  else boot

/-- A read of the aperture (R402, R407). -/
def axRead (s : State) (i w : Nat) : Code :=
  if !isAperture w then Code.ok
  else if s.flashView i then Code.unless (decide (w - 0x8C0 < s.flashArrived)) Code.notready
  else Code.unless ((s.aux i).state != .busy) Code.state

/-- What follows a stored word (R395, R397, R406, R408). -/
def axApply (s : State) (i w : Nat) (_old : Word) : State :=
  if isAperture w then
    let v := s.reg i w
    (s.setReg i w 0).modAux i (fun x => { x with buf := Sparse.put (fun _ => 0) x.buf (s.bufWord i w) v })
  else match w with
  | 0x881 =>
    if s.on Reg.AX_CFG_EN i then
      let s := s.modAux i (fun x => { x with state := if x.state = .off then .idle else x.state })
      if i = 0 then s.resumeLoad else s
    else
      let s := s.modAux i (fun x => { x with state := if x.state = .idle then .off else x.state, csOn := false })
      if i = 0 then
        let s := s.endHold
        { s with flash := { s.flash with waits := s.flash.waits || s.flash.busy, busy := false } }
      else s
  | 0x8A0 => if s.on Reg.AX_FLCFG_EN && s.on Reg.AX_FLCFG_CONT then s else s.endHold
  | 0x8A1 => s.flashAddress
  | _ => s

/-- Actions of the WO fields; `bits` are what MISO returned before an abort. ABORT acts before START, and DROP before
DISCOVER, of the same write (DESIGN CHOICE, log entry 12). -/
def axAct (s : State) (i w : Nat) (d : Word) (bits : List Bool) : State :=
  match w with
  | 0x884 =>
    let s := if Reg.AX_CTL_ABORT.get d = 1 then s.auxAbort i bits else s
    if Reg.AX_CTL_START.get d = 1 ∧ ((s.aux i).state = .idle ∨ (s.aux i).state = .held) then s.auxStart i else s
  | 0x8A2 =>
    let s := if Reg.AX_FLCTL_DROP.get d = 1 then s.dropBlock else s
    if Reg.AX_FLCTL_DISCOVER.get d = 1 then
      ({ s with flash := { s.flash with discovering := true } } : State).emit .discover
    else s
  | _ => s

def AxState.code : AxState → Nat
  | .off => 0 | .idle => 1 | .busy => 2 | .held => 3 | .boot => 4

/-- The views of the AX_ block. -/
def axView (s : State) (i w : Nat) (v : Word) : Word :=
  if isAperture w then
    if s.flashView i then s.flashWord (w - 0x8C0)
    else Sparse.get (fun _ => 0) (s.aux i).buf (s.bufWord i w)
  else match w with
  | 0x885 => Reg.AX_STAT_STATE.set v (s.aux i).state.code
  | 0x8A3 =>
    Reg.AX_FLSTAT_BUSY.set (Reg.AX_FLSTAT_HOLD.set (Reg.AX_FLSTAT_LOADED.set v s.flashArrived)
      s.flash.hold.toNat) s.flash.busy.toNat
  | _ => v

/-! ### The commands -/

/-- AX_TRANSFER_DONE (R399, R400): the last bit is taken; time passes to that edge. Bits that are not named are free values. -/
def execAxTransferDone (m : Fin 8) (bits : List Bool) (s : State) : Host.Outcome State Fault Refusal :=
  if !s.running then .next s else
  let x := s.aux m.val
  if x.state ≠ .busy ∨ x.startWaits ∨ x.releaseAt.isSome then .next s else
  let n := s.rd Reg.AX_XFER_LEN m.val
  let s := s.advance (s.auxEnd m.val)
  let (v, s) := s.takeFree
  let got := (List.range n).map (fun i => (bits[i]?).getD (v.getLsbD (i % 64)))
  let lsb := s.auxLsb m.val
  let last := s.auxBit m.val (n - 1)
  let s := s.modAux m.val (fun x => { x with buf := storeBits lsb 0 got x.buf, lastBit := last })
  let s := ((s.wr Reg.AX_STAT_DONE 1 m.val).incWrap Reg.AX_CNT_CNT m.val).wr Reg.AX_CNT_BITS n m.val
  .next (if s.on Reg.AX_XFER_KEEP m.val then s.modAux m.val (fun x => { x with state := .held, heldAt := s.now })
    else s.auxRelease m.val)

/-- AX_SELECT_RELEASE (R399, R400): the trail delay is over; the master is IDLE, and a waiting block load starts (R409). -/
def execAxSelectRelease (m : Fin 8) (s : State) : Host.Outcome State Fault Refusal :=
  if !s.running then .next s else
  match (s.aux m.val).releaseAt with
  | none => .next s
  | some t =>
    let s := s.advance t
    let cs := (s.aux m.val).cs
    let s := (s.modAux m.val (fun x => { x with state := .idle, csOn := false, releaseAt := none })).emit
      (.auxSelect m.val cs false)
    .next (if m.val = 0 then s.resumeLoad else s)

/-- AX_HELD_TIMEOUT (R400): AX_TOUT * 64 DCLK in HELD without a START. -/
def execAxHeldTimeout (m : Fin 8) (s : State) : Host.Outcome State Fault Refusal :=
  if !s.running then .next s else
  let x := s.aux m.val
  if x.state ≠ .held then .next s else
  let s := s.advance (x.heldAt + 64 * s.rd Reg.AX_TOUT m.val)
  .next ((s.auxRelease m.val).auxError m.val Reg.AX_STAT_EV_TOUT 1)

/-- DISCOVERY_DONE (R405): the SFDP tables are read. A failure outside the load sets EV_DISC. -/
def execDiscoveryDone (ok : Bool) (major minor : BitVec 8) (dens : BitVec 6) (s : State) :
    Host.Outcome State Fault Refusal :=
  if !s.running then .next s else
  if !s.flash.discovering then .next s else
  let s : State := { s with flash := { s.flash with discovering := false } }
  let boot := (s.aux 0).state == .boot
  let s := if ok && major == 1 then
      (((s.wr Reg.AX_SFDP_OK 1).wr Reg.AX_SFDP_DENS dens.toNat).wr Reg.AX_SFDP_MAJOR major.toNat).wr Reg.AX_SFDP_MINOR
        minor.toNat
    else
      let s := (s.wr Reg.AX_SFDP_OK 0).wr Reg.AX_SFDP_DENS 0
      if boot then s else s.auxError 0 Reg.AX_STAT_EV_DISC 3
  .next (if boot then ({ s with boot := { s.boot with readAt := s.now } } : State).emit (.imageRead 32) else s)

/-- FLASH_BLOCK_LOADED (R406, R408, R409): the 64 words of a block have arrived; words not named are free values. CS0 stays
asserted in continuous read; a START that waited begins. -/
def execFlashBlockLoaded (words : List Word) (s : State) : Host.Outcome State Fault Refusal :=
  if !s.running then .next s else
  if !s.flash.busy then .next s else
  let s := s.advance s.flash.doneAt
  let (v, s) := s.takeFree
  let got := (List.range 64).map (fun i => (words[i]?).getD (v.truncate 32))
  let cont := s.on Reg.AX_FLCFG_CONT && s.on Reg.AX_FLCFG_EN
  let s : State := { s with flash := { s.flash with words := got, busy := false, hold := cont, holdAt := s.now } }
  let s := s.incWrap Reg.AX_FLCNT
  let s := if cont then s else
    (s.modAux 0 (fun x => { x with freeAt := s.now + s.auxTrail 0 + s.auxGap 0 })).emit (.auxSelect 0 0 false)
  .next (if (s.aux 0).startWaits then s.endHold.auxBegin 0 else s)

/-- FLASH_CONT_TIMEOUT (R408): AX_FLCFG_CTOUT * 64 DCLK without a resume. -/
def execFlashContTimeout (s : State) : Host.Outcome State Fault Refusal :=
  if !s.running then .next s else
  if !s.flash.hold then .next s else
  .next ((s.advance (s.flash.holdAt + 64 * s.rd Reg.AX_FLCFG_CTOUT)).endHold)

end Sys2Proof.Machine
end

