-- ==== Sys2Proof/Machine/Sine.lean ====
section
/-!
DEFINITION. Sine and cosine of a fraction of a turn in fixed point, for the AC results of the contact units
(13_contact_units.md R391): values in units of 2^-160, with errors far below the rounding of a result (log entry 110).
-/
namespace Sys2Proof.Machine

/-- π in units of 2^-160. -/
def piFix : Nat := 0x3243f6a8885a308d313198a2e03707344a4093822

/-- The alternating series of a sine: its terms from number `k` on, `t` the first of them and `y` the square of the angle. -/
def sinSeries : Nat → Nat → Nat → Nat → Int
  | 0, _, _, _ => 0
  | n + 1, k, t, y => (t : Int) - sinSeries n (k + 1) (t * y / (2 ^ 160 * ((2 * k + 2) * (2 * k + 3)))) y

/-- The sine of `r / b` of a quarter turn, `r` at most `b`. -/
def sinQuarter (r b : Nat) : Int :=
  let x := piFix * r / (2 * b)
  sinSeries 30 0 x (x * x / 2 ^ 160)

/-- The sine and the cosine of `a / b` of a turn. -/
def sinTurn (a b : Nat) : Int :=
  let r := 4 * a % b
  match 4 * a / b % 4 with
  | 0 => sinQuarter r b
  | 1 => sinQuarter (b - r) b
  | 2 => - sinQuarter r b
  | _ => - sinQuarter (b - r) b
def cosTurn (a b : Nat) : Int := sinTurn (4 * a + b) (4 * b)

/-- Entry k of the 4,096-entry sine table, a signed 18-bit value of ±131,071 (R388; DEDUCED, log entry 112). -/
def sineEntry (k : Nat) : Int := roundDivInt (131071 * sinTurn k 4096) (2 ^ 160)

/-- round((2 / N) Σ (x - 131,072) f) over samples and the fractions of a turn of their phases (R391, R481). The sum is brought
to units of 2^-64 first, in which an exact half stands exactly. -/
def acResult (f : Nat → Nat → Int) (xs : List (BitVec 18 × Nat × Nat)) : Int :=
  let sum := (xs.map (fun (x, a, b) => ((x.toNat : Int) - 131072) * f a b)).sum
  roundDivInt (2 * roundDivInt sum (2 ^ 96)) (xs.length * 2 ^ 64)

end Sys2Proof.Machine
end

