-- ==== Sys2Proof/Machine/ContactUnit.lean ====
section
/-!
DEFINITION. Contact units (13_contact_units.md): ranges and forcing (R377 to R379), attaching (R380 to R383), the range
sequence (R384), faults and safe values (R385 to R387), alternating stimulus (R388 to R390), measurement (R391, R392), the
checks, effects and views of the CU_ registers, and the commands that are its own events.
-/
namespace Sys2Proof.Machine

/-- Octant of a unit (R1, geometry of 01_architecture.md), and the pin it names. -/
def octOfCu (i : Nat) : Nat := i / 2
def State.cuPinOf (s : State) (i : Nat) : Nat := s.rd Reg.CU_ATTACH_PIN i

/-- The unit's member holds a claim with the drivers of the pin's octant enabled (R383). -/
def State.cuClaimHeld (s : State) (i : Nat) : Bool := s.driverOn (s.cuPinOf i) && !s.engagedShadow

/-- A resting state: OPEN while enabled, else OFF (R393). -/
def State.cuRest (s : State) (i : Nat) : CuState := if s.on Reg.CU_CFG_EN i then .open_ else .off

/-- A fault bit is set (R386), and source 280 follows them: DETAIL is the lowest unit. -/
def State.cuFaulted (s : State) (i : Nat) : Bool := s.on Reg.CU_STAT_EV_COMPL i || s.on Reg.CU_STAT_EV_THERM i
def State.cuFaultSource (s : State) : State :=
  match (List.range 16).find? s.cuFaulted with
  | some i => s.raiseLevel 280 true i
  | none => s.raiseLevel 280 false 0

/-- The safe value in the unit's registers (R387): KIND, RANGE, SRC and LEVEL. -/
def State.cuSafeRegs (s : State) (i : Nat) : State :=
  let u := s.cu i
  let s := s.wr Reg.CU_CFG_KIND (Reg.CU_CFG_KIND.get u.safeCfg) i
  let s := s.wr Reg.CU_CFG_RANGE (Reg.CU_CFG_RANGE.get u.safeCfg) i
  let s := s.wr Reg.CU_CFG_SRC (Reg.CU_CFG_SRC.get u.safeCfg) i
  s.wr Reg.CU_LEVEL (Reg.CU_LEVEL.get u.safeLevel) i

/-- R13, R19 or the octant leaving RUN (R387): the switch opens, ATTACH_EN clears, the safe value holds, without FAULT. -/
def State.cuSafe (s : State) (i : Nat) : State :=
  let attached := s.on Reg.CU_ATTACH_EN i
  let s := (s.cuSafeRegs i).wr Reg.CU_ATTACH_EN 0 i
  s.modCu i (fun u =>
    { u with state := if u.state = .fault then .fault else s.cuRest i, closed := false,
             opening := u.opening || attached, swAt := s.now, rangeAt := none, rangeStep := 0,
             kind := Reg.CU_CFG_KIND.get u.safeCfg == 1, range := BitVec.ofNat 3 (Reg.CU_CFG_RANGE.get u.safeCfg),
             src := BitVec.ofNat 2 (Reg.CU_CFG_SRC.get u.safeCfg), out := BitVec.ofNat 18 (Reg.CU_LEVEL.get u.safeLevel),
             mrun := false })

/-- Entry to FAULT (R386): the switch opens, ATTACH_EN clears and its claim ends under R382, the safe value is applied
through the sequence of R384, source 280 is asserted. A unit in FAULT already takes the second bit. -/
def State.cuFault (s : State) (i : Nat) (bit : Fld) : State :=
  if (s.cu i).state = .fault then (s.wr bit 1 i).cuFaultSource else
  let attached := s.on Reg.CU_ATTACH_EN i
  let s := ((s.cuSafeRegs i).wr Reg.CU_ATTACH_EN 0 i).wr bit 1 i
  let s := s.modCu i (fun u =>
    { u with state := .fault, closed := false, opening := u.opening || attached, swAt := s.now, rangeAt := some s.now,
             rangeStep := 0, mrun := false })
  s.cuFaultSource

/-- A change of KIND or RANGE starts the range sequence (R384). -/
def State.cuStartRange (s : State) (i : Nat) : State :=
  s.modCu i (fun u =>
    { u with state := .ranging, rangeAt := some s.now, rangeStep := 0, mrun := false })

/-! ### Forcing -/

/-- A sine code (R388): CU_LEVEL + round(CU_AMP * T[θ >> 20] / 131,071). -/
def State.sineCode (s : State) (i : Nat) (theta : Word) : BitVec 18 :=
  BitVec.ofInt 18
    ((s.rd Reg.CU_LEVEL i : Int) + roundDivInt ((s.rd Reg.CU_AMP i : Int) * sineEntry (theta >>> 20).toNat) 131071)

/-- Sample k of the waveform store (R390); a sample never written reads 0, as CU_WDATA resets. -/
def Cu.sample (u : Cu) (k : Nat) : BitVec 18 := BitVec.ofNat 18 (Sparse.get (fun _ => 0) u.store k)

/-- What gives the unit's reference phase now. -/
def State.cuRef (s : State) (i : Nat) : CuRef :=
  let u := s.cu i
  { till := s.now, src := u.src, theta := u.theta, wave := u.wave, srcAt := u.srcAt, freq := u.freq,
    len := max 1 (s.rd Reg.CU_WCFG_LEN i), div := max 1 (s.rd Reg.CU_WCFG_DIV i) }

/-- A reference phase ends: a running measurement keeps it for the samples it has taken. -/
def State.cuKeepRef (s : State) (i : Nat) (r : CuRef) : State :=
  s.modCu i (fun u => if u.mrun then { u with past := u.past ++ [r] } else u)

/-- A source takes over the output: DC at CU_LEVEL, SINE at phase 0, WAVE at sample 0 (R379, R384, R388, R390; log entry
66). -/
def State.cuStartSource (s : State) (i : Nat) : State :=
  let src := s.rd Reg.CU_CFG_SRC i
  (s.cuKeepRef i (s.cuRef i)).modCu i (fun u =>
    { u with src := BitVec.ofNat 2 src, theta := 0, wave := 0, srcAt := s.now,
             out := match src with
               | 0 => BitVec.ofNat 18 (s.rd Reg.CU_LEVEL i)
               | 1 => s.sineCode i 0
               | _ => u.sample 0 })

/-- The unit's source runs: enabled, and no range sequence before its step at 16,000 DCLK. -/
def State.cuRuns (s : State) (i : Nat) : Bool :=
  s.on Reg.CU_CFG_EN i && (s.cu i).state != .fault && ((s.cu i).rangeAt.isNone || decide (3 ≤ (s.cu i).rangeStep)) &&
  (s.oct (octOfCu i)).state == .run

/-- Reference phase at a DCLK edge as a fraction of a turn (R388, R390, R391): θ of 2^32, or the index of the sample played of
LEN. -/
def CuRef.phase (r : CuRef) (n : Nat) : Nat × Nat :=
  let d : Int := (n : Int) - (r.srcAt : Int)
  if r.src = 1 then ((BitVec.ofInt 32 ((r.theta.toNat : Int) + d / 16 * (r.freq : Int))).toNat, 2 ^ 32)
  else ((((r.wave : Int) + d / (16 * r.div : Nat)) % (r.len : Int)).toNat, r.len)

/-- Reference phase of a unit's source at a DCLK edge of its measurement. -/
def State.cuPhase (s : State) (i n : Nat) : Nat × Nat :=
  (((s.cu i).past.find? (fun r => decide (n < r.till))).getD (s.cuRef i)).phase n

/-- CU_FREQ is rewritten: the phase goes on without a step from the last update (R388). -/
def State.cuNewFreq (s : State) (i : Nat) : State :=
  let s := s.cuKeepRef i (s.cuRef i)
  let u := s.cu i
  let new := s.rd Reg.CU_FREQ i
  if u.src = 1 && s.cuRuns i then
    let k := (s.now - u.srcAt) / 16
    let theta := u.theta + BitVec.ofNat 32 (k * u.freq)
    s.setCu i { u with theta := theta, srcAt := u.srcAt + 16 * k, out := s.sineCode i theta, freq := new }
  else s.setCu i { u with freq := new }

/-! ### Register checks, effects and views -/

/-- Values the CU_ registers accept (R377, R388, R393). -/
def cuValue (w : Nat) (d : Word) : Bool :=
  match w with
  | 0x800 => d.toNat < 16 || d.toNat == 0xFFFF
  | 0x801 =>
    let force := Reg.CU_CFG_RANGE.get d
    let meas := Reg.CU_CFG_MRANGE.get d
    Reg.CU_CFG_SRC.get d != 3 &&
    (if Reg.CU_CFG_KIND.get d = 0 then decide (force ≤ 1 ∧ meas ≤ 4) else decide (force ≤ 4 ∧ meas ≤ 1))
  | 0x804 => decide (d.toNat ≤ 131071)
  | 0x805 => decide (43 ≤ d.toNat ∧ d.toNat ≤ 42949672)
  | 0x806 => decide (1 ≤ Reg.CU_CLAMP_LIM.get d ∧ Reg.CU_CLAMP_LIM.get d ≤ 32768)
  | 0x807 => decide (Reg.CU_MCFG_LOG2N.get d ≤ 20)
  | 0x811 => Reg.CU_WCFG_DIV.get d != 0 && decide (1 ≤ Reg.CU_WCFG_LEN.get d ∧ Reg.CU_WCFG_LEN.get d ≤ 16384)
  | _ => true

/-- CU_LEVEL and CU_AMP stay inside the code range (R388). -/
def cuCross (s : State) (i w : Nat) : Bool :=
  if w = 0x803 ∨ w = 0x804 then
    decide (s.rd Reg.CU_AMP i ≤ s.rd Reg.CU_LEVEL i ∧ s.rd Reg.CU_LEVEL i + s.rd Reg.CU_AMP i ≤ 0x3FFFF)
  else true

/-- The checks of CU_ATTACH_EN = 1, in order (R380, R386); a switch that is still opening is not OPEN (DEDUCED, log entry 116). -/
def State.attachCode (s : State) (i q : Nat) : Code :=
  let other := if i % 2 = 0 then i + 1 else i - 1
  let st := (s.cu i).state
  if (if st = .off then s.cuRest i else st) ≠ .open_ ∨ (s.cu i).opening ∨ s.cuFaulted i ∨ s.cuClaims other q then Code.state
  else if octOfPin q ≠ octOfCu i then Code.value
  else Code.unless (!s.spanBusy (groupOfPin q)) Code.state

/-- Writes the state refuses (R379, R380, R384, R389, R390, R391): a change of KIND or RANGE in OFF is none of them (DEDUCED,
log entry 16). -/
def cuState (s : State) (i w : Nat) (d : Word) : Code :=
  let u := s.cu i
  let seq := Code.unless u.rangeAt.isNone Code.state
  match w with
  | 0x801 =>
    let moves := Reg.CU_CFG_KIND.get d != s.rd Reg.CU_CFG_KIND i || Reg.CU_CFG_RANGE.get d != s.rd Reg.CU_CFG_RANGE i
    let busy := u.state == .ranging || u.state == .closing || u.state == .fault
    Code.andThen seq (Code.unless
      (!(moves && busy) && !(s.on Reg.CU_ATTACH_EN i && Reg.CU_CFG_EN.get d == 0) &&
       !(Reg.CU_CFG_SRC.get d == 1 && !s.on Reg.CU_GSTAT_SINE_OK) &&
       !(u.mrun && Reg.CU_CFG_MRANGE.get d != s.rd Reg.CU_CFG_MRANGE i)) Code.state)
  | 0x802 =>
    let q := Reg.CU_ATTACH_PIN.get d
    Code.andThen seq (Code.andThen
      (Code.unless (!(s.on Reg.CU_ATTACH_EN i && q != s.rd Reg.CU_ATTACH_PIN i) && !(u.opening && q != s.rd Reg.CU_ATTACH_PIN i))
        Code.state)
      (if Reg.CU_ATTACH_EN.get d = 1 then s.attachCode i q else Code.ok))
  | 0x803 | 0x804 => seq
  | 0x808 => Code.unless (!(Reg.CU_CTL_MEAS.get d == 1 && u.mrun)) Code.state
  | 0x810 | 0x811 => Code.unless (!(s.rd Reg.CU_CFG_SRC i == 2 && s.on Reg.CU_CFG_EN i)) Code.state
  | _ => Code.ok

/-- What follows a stored word (R379 to R384, R388, R390; a write of CU_AMP shows at the next update of the sine, log entry 116). -/
def cuApply (s : State) (i w : Nat) (old : Word) : State :=
  match w with
  | 0x801 =>
    let s := if s.on Reg.CU_CFG_EN i then (s.wakeOct (octOfCu i) 5) else s
    let s := s.modCu i (fun u =>
      { u with state := if u.state = .off ∨ u.state = .open_ then s.cuRest i else u.state })
    if Reg.CU_CFG_KIND.get old ≠ s.rd Reg.CU_CFG_KIND i ∨ Reg.CU_CFG_RANGE.get old ≠ s.rd Reg.CU_CFG_RANGE i then
      s.cuStartRange i
    else if Reg.CU_CFG_SRC.get old ≠ s.rd Reg.CU_CFG_SRC i ∨ (Reg.CU_CFG_EN.get old = 0 ∧ s.on Reg.CU_CFG_EN i) then
      s.cuStartSource i
    else s
  | 0x802 =>
    if s.on Reg.CU_ATTACH_EN i && Reg.CU_ATTACH_EN.get old == 0 then
      (s.wakeOct (octOfCu i) 5).resolve (s.cuPinOf i / 4)
    else if !s.on Reg.CU_ATTACH_EN i && Reg.CU_ATTACH_EN.get old == 1 then
      s.modCu i (fun u => { u with opening := true, swAt := s.now })
    else s
  | 0x803 =>
    if (s.cu i).rangeAt.isSome then s
    else s.modCu i (fun u =>
      { u with out := match u.src.toNat with
                 | 0 => BitVec.ofNat 18 (s.rd Reg.CU_LEVEL i)
                 | 1 => s.sineCode i u.theta
                 | _ => u.out })
  | 0x805 => s.cuNewFreq i
  | 0x810 =>
    let a := s.rd Reg.CU_WADDR i
    let s := s.modCu i (fun u => { u with store := Sparse.put (fun _ => 0) u.store a (s.rd Reg.CU_WDATA i) })
    s.wr Reg.CU_WADDR (min (a + 1) 16383) i
  | _ => s

/-- CU_CTL: MEAS, then STOP (R391, R393; log entry 12). -/
def cuAct (s : State) (i w : Nat) (d : Word) : State :=
  match w with
  | 0x808 =>
    let s := if Reg.CU_CTL_MEAS.get d = 1 then s.modCu i (fun u => { u with mrun := true, mAt := s.now, past := [] }) else s
    if Reg.CU_CTL_STOP.get d = 1 then s.modCu i (fun u => { u with mrun := false }) else s
  | _ => s

/-- Fault bits have been cleared by a write (R386): with both 0 the unit leaves FAULT. -/
def State.cuCleared (s : State) (i : Nat) : State :=
  let s := if (s.cu i).state = .fault ∧ !s.cuFaulted i then
      s.modCu i (fun u => { u with state := s.cuRest i })
    else s
  s.cuFaultSource

def CuState.code : CuState → Nat
  | .off => 0 | .open_ => 1 | .closing => 2 | .closed => 3 | .ranging => 4 | .fault => 5 | .heldoff => 6

/-- CU_STAT_COMPL while the switch is closed is what the load does: a free value (R385; log entry 3). -/
def State.cuCompl (s : State) (i : Nat) : Nat :=
  if (s.cu i).closed then (Config.freeValue s.free).toNat % 2 else 0

def cuView (s : State) (i w : Nat) (v : Word) : Word :=
  let u := s.cu i
  match w with
  | 0x809 =>
    Reg.CU_STAT_COMPL.set (Reg.CU_STAT_MRUN.set (Reg.CU_STAT_STATE.set v u.state.code) u.mrun.toNat) (s.cuCompl i)
  | 0x80B => u.mstampHold.truncate 32
  | 0x80C => (u.mstampHold >>> 32).truncate 32
  | 0x870 =>
    Reg.CU_GSTAT_FAULT.set v
      (((List.range 16).map (fun k => if (s.cu k).state = .fault then 2 ^ k else 0)).sum)
  | _ => v

/-! ### The commands -/

/-- CU_SWITCH_CLOSED (R381): 160 DCLK after W the switch closes, while the claim of R383 is held. -/
def execCuSwitchClosed (i : Fin 16) (s : State) : Host.Outcome State Fault Refusal :=
  if !s.running then .next s else
  let u := s.cu i.val
  if u.state = .closing && !u.opening then
    let s := s.advance (u.swAt + 160)
    .next (s.modCu i.val (fun u => { u with state := .closed, closed := true }))
  else .next s

/-- CU_SWITCH_OPEN (R382): 160 DCLK after the detach the switch is open, the claim ends and the pin is resolved again. -/
def execCuSwitchOpen (i : Fin 16) (s : State) : Host.Outcome State Fault Refusal :=
  if !s.running then .next s else
  let u := s.cu i.val
  if u.opening then
    let s := s.advance (u.swAt + 160)
    let s := s.modCu i.val (fun u =>
      { u with opening := false, closed := false,
               state := if u.state = .fault ∨ u.state = .ranging then u.state else s.cuRest i.val })
    .next (s.resolve (s.cuPinOf i.val / 4))
  else .next s

/-- A step of the range sequence (R384). -/
def State.rangeStepAt (s : State) (i n at_ : Nat) (f : State → State) : State :=
  match (s.cu i).rangeAt with
  | some a =>
    if (s.cu i).rangeStep = n then (f (s.advance (a + at_))).modCu i (fun u => { u with rangeStep := n + 1 }) else s
  | none => s

/-- CU_RANGE_OUTPUT_ZERO (R384): at 160 DCLK the switch is open and the output at 0 in the old range. -/
def execCuRangeOutputZero (i : Fin 16) (s : State) : Host.Outcome State Fault Refusal :=
  if !s.running then .next s else
  .next (s.rangeStepAt i.val 0 160 (fun s => s.modCu i.val (fun u => { u with closed := false, out := 0x20000 })))

/-- CU_RANGE_APPLY (R384): at 8,000 DCLK the new KIND and RANGE, at 0. -/
def execCuRangeApply (i : Fin 16) (s : State) : Host.Outcome State Fault Refusal :=
  if !s.running then .next s else
  .next (s.rangeStepAt i.val 1 8000 (fun s => s.modCu i.val (fun u =>
    { u with kind := s.on Reg.CU_CFG_KIND i.val, range := BitVec.ofNat 3 (s.rd Reg.CU_CFG_RANGE i.val) })))

/-- CU_RANGE_LEVEL_APPLY (R384): at 16,000 DCLK the new level; a sine starts at phase 0. -/
def execCuRangeLevelApply (i : Fin 16) (s : State) : Host.Outcome State Fault Refusal :=
  if !s.running then .next s else
  .next (s.rangeStepAt i.val 2 16000 (fun s => s.cuStartSource i.val))

/-- CU_RANGE_CLOSE (R384): at 32,000 DCLK the switch closes when attached under a claim; STATE CLOSED, HELDOFF or OPEN. A unit
in FAULT keeps its state (R386). -/
def execCuRangeClose (i : Fin 16) (s : State) : Host.Outcome State Fault Refusal :=
  if !s.running then .next s else
  .next (s.rangeStepAt i.val 3 32000 (fun s =>
    let attached := s.on Reg.CU_ATTACH_EN i.val
    let shut := attached && s.cuClaimHeld i.val && (s.cu i.val).state != .fault
    s.modCu i.val (fun u =>
      { u with rangeAt := none, closed := shut,
               state := if u.state = .fault then .fault
                 else if shut then .closed else if attached then .heldoff else s.cuRest i.val })))

/-- CU_COMPLIANCE_FAULT (R385): the limit has acted for CU_CLAMP_TIME * 64 DCLK; CLAMP_TIME 0 never faults. -/
def execCuComplianceFault (i : Fin 16) (s : State) : Host.Outcome State Fault Refusal :=
  if !s.running then .next s else
  if (s.cu i.val).closed && s.rd Reg.CU_CLAMP_TIME i.val != 0 then .next (s.cuFault i.val Reg.CU_STAT_EV_COMPL)
  else .next s

/-- CU_THERMAL_FAULT (R386): CU_TEMP above 125 degrees. -/
def execCuThermalFault (i : Fin 16) (temp : BitVec 8) (s : State) : Host.Outcome State Fault Refusal :=
  if !s.running then .next s else
  let s := s.wr Reg.CU_TEMP temp.toNat i.val
  if 125 < temp.toNat then .next (s.cuFault i.val Reg.CU_STAT_EV_THERM) else .next s

/-- SINE_UPDATE (R388): every 16 DCLK θ advances by CU_FREQ and the forced code follows. -/
def execSineUpdate (i : Fin 16) (s : State) : Host.Outcome State Fault Refusal :=
  if !s.running then .next s else
  let u := s.cu i.val
  if s.cuRuns i.val && u.src == 1 then
    let s := s.advance (u.srcAt + 16)
    let theta := u.theta + BitVec.ofNat 32 u.freq
    .next (s.setCu i.val { u with theta := theta, srcAt := u.srcAt + 16, out := s.sineCode i.val theta })
  else .next s

/-- WAVE_SAMPLE (R390): every CU_WCFG_DIV * 16 DCLK the next of CU_WCFG_LEN samples. -/
def execWaveSample (i : Fin 16) (s : State) : Host.Outcome State Fault Refusal :=
  if !s.running then .next s else
  let u := s.cu i.val
  if s.cuRuns i.val && u.src == 2 then
    let d := 16 * s.rd Reg.CU_WCFG_DIV i.val
    let s := s.advance (u.srcAt + d)
    let k := (u.wave + 1) % max 1 (s.rd Reg.CU_WCFG_LEN i.val)
    .next (s.setCu i.val { u with wave := k, srcAt := u.srcAt + d, out := u.sample k })
  else .next s

/-- The phase step per converter sample cannot separate I from Q (R392). -/
def degenerate (freq : Nat) : Bool :=
  let x := freq * 50 % 2 ^ 32
  decide (x ≤ 2 ^ 20 ∨ 2 ^ 32 - 2 ^ 20 ≤ x ∨ (2 ^ 31 - 2 ^ 20 ≤ x ∧ x ≤ 2 ^ 31 + 2 ^ 20))

/-- CU_MEAS_DONE (R391, R392): the last of N converter samples; the codes are the converter's, missing ones read mid-scale.
The first sample follows the start by one sample period (DESIGN CHOICE, log entry 17). -/
def execCuMeasDone (i : Fin 16) (codes : List (BitVec 18)) (s : State) : Host.Outcome State Fault Refusal :=
  if !s.running then .next s else
  let u := s.cu i.val
  if !u.mrun then .next s else
  let n := 2 ^ s.rd Reg.CU_MCFG_LOG2N i.val
  let xs := codes.take n ++ List.replicate (n - codes.length) 0x20000
  let s := s.advance (u.mAt + n * 800)
  let mean := roundDiv ((xs.map (·.toNat)).sum) n
  let ac := xs.mapIdx (fun k x => (x, s.cuPhase i.val (u.mAt + (k + 1) * 800)))
  let s := s.wr Reg.CU_MRES mean i.val
  let result := fun f => if u.src = 0 then 0 else (BitVec.ofInt 32 (acResult f ac)).toNat
  let s := (s.wr Reg.CU_ACRES_I (result sinTurn) i.val).wr Reg.CU_ACRES_Q (result cosTurn) i.val
  let s := if u.src = 0 then s else s.wrBit Reg.CU_STAT_DEGEN (degenerate (s.rd Reg.CU_FREQ i.val)) i.val
  let s := s.wr Reg.CU_STAT_MDONE 1 i.val
  .next (s.setCu i.val { u with mstamp := s.stamp, mrun := s.on Reg.CU_MCFG_CONT i.val, mAt := s.now, past := [] })

end Sys2Proof.Machine
end

