-- ==== Sys2Proof/Machine/Ports.lean ====
section
/-!
DEFINITION. The registers of palettes, ports and rings: checks, effects and views of the PL_, PT_ and RG_ blocks
(03_receive.md R64 to R71, R90, R97 to R99; 05_transmit_flow_partners.md R140 to R163; 06_host_link_rings.md R209 to R213).
-/
namespace Sys2Proof.Machine

/-! ### Palette (R65, R66) -/

/-- Values a palette word accepts by itself (R65). -/
def plValue (w : Nat) (d : Word) : Bool :=
  match w with
  | 0x300 => d.toNat < 64 || d.toNat == 0xFFFF
  | 0x302 =>
    Reg.PL_FRAME_STOP.get d != 3 && decide (Reg.PL_FRAME_PARITY.get d ≤ 4) &&
    decide (5 ≤ Reg.PL_FRAME_DATA.get d ∧ Reg.PL_FRAME_DATA.get d ≤ 9)
  | 0x303 =>
    Reg.PL_ACQ_AUTODARK.get d != 3 && decide (2 ≤ Reg.PL_ACQ_K.get d ∧ Reg.PL_ACQ_K.get d ≤ 16) &&
    decide (Reg.PL_ACQ_RANGE.get d ≤ 35)
  | 0x304 => Reg.PL_LINK_ADDR.get d != 3 && Reg.PL_LINK_FLOW.get d != 3
  | _ => true

/-- An entry keeps the conditions of R66 and R150: its fastest and slowest hypotheses, its lanes, its address mode. -/
def Settings.valid (x : Settings) : Bool :=
  decide (4096 * (100 + x.rangeA) ≤ 100 * x.period.toNat) && decide (3 * x.period.toNat ≤ 40960000 * (100 - x.rangeA)) &&
  (x.rangeA != 0 || x.lanes == 1) && (x.addrMode != 1 || (x.data == 9 && x.parity == 0)) && (x.addrMode != 2 || x.data != 9)

/-- Relations an entry is left in (R66, R142, R150). -/
def plCross (s : State) (e w : Nat) : Bool :=
  if 0x301 ≤ w ∧ w ≤ 0x304 then
    let x := s.palette e
    x.valid && (x.flow != 1 || s.enabledPorts.all (fun p => p % 2 == 0 || s.rd Reg.PT_RXCFG_PAL p != e))
  else true

/-- PL_STAT_USE (R65). -/
def plView (s : State) (e w : Nat) (v : Word) : Word :=
  if w = 0x305 then
    Reg.PL_STAT_USE.set v (s.enabledPorts.filter (fun p => s.rd Reg.PT_RXCFG_PAL p == e)).length
  else v

/-- What follows accepted writes to palette entries and to PT_RXCFG_PAL, at one edge: the generation of each entry reached
(R65), and the change of each port that names one (R69 to R71, R162). A receiver that the same write enables, in `begun`,
starts under the new settings and has no change. -/
def State.palettesWritten (s : State) (entries ports begun : List Nat) : State :=
  let s := entries.foldl (fun s e => s.incWrap Reg.PL_STAT_GEN e) s
  let hit := s.enabledPorts.filter (fun p => ports.contains p || entries.contains (s.rd Reg.PT_RXCFG_PAL p))
  hit.foldl (fun s p => ((if begun.contains p then s else s.rxPalChange p).txPalChange p).resolve (p / 2)) s

/-! ### Ports -/

/-- A port B may not name an entry with RTS/CTS (R142). -/
def State.rtsOnB (s : State) (p : Nat) : Bool := p % 2 == 1 && (s.portPalette p).flow == 1

/-- Values a port word accepts (R91, R97, R148, R153, R163). -/
def ptValue (s : State) (w : Nat) (d : Word) : Bool :=
  match w with
  | 0x400 => d.toNat < 2048 || d.toNat == 0xFFFF
  | 0x406 => decide (10000 ≤ Reg.PT_FMGATE.get d)
  | 0x419 => Reg.PT_FCCFG_XON.get d != Reg.PT_FCCFG_XOFF.get d
  | 0x41A => decide (Reg.PT_FCTHR_OFF.get d < Reg.PT_FCTHR_ON.get d)
  | 0x41C => decide (Reg.PT_BUFCFG_QUOTA.get d ≤ 128 ∧ Reg.PT_BUFCFG_RXSHARE.get d ≤ 8)
  | 0x425 => (List.range 4).all (fun k => s.rd Reg.RG_CFG_KIND (d.toNat / 256 ^ k % 256) == 1)
  | _ => true

/-- Relations a port is left in (R142). -/
def ptCross (s : State) (p w : Nat) : Bool :=
  match w with
  | 0x401 => !s.rtsOnB p
  | 0x414 => !s.rtsOnB p
  | _ => true

/-- The receive side works, and no earlier word of the same burst stops it; or such a word starts it (R90, R321). -/
def State.rxWorks (s : State) (p : Nat) : Bool :=
  match (s.port p).rx with
  | .off => s.on Reg.PT_RXCFG_EN p && s.pinsTaken (rxPin p) && s.resolvedOwner (rxPin p) == .rx
  | .starved => false
  | _ => s.on Reg.PT_RXCFG_EN p

/-- Writes the state refuses (R90, R148, R351). -/
def ptState (s : State) (p w : Nat) (d : Word) : Bool :=
  match w with
  | 0x401 => Reg.PT_RXCFG_EN.get d == 0 || s.on Reg.PT_RXCFG_EN p || !s.spanBusy (p / 32)
  | 0x414 => Reg.PT_TXCFG_EN.get d == 0 || s.on Reg.PT_TXCFG_EN p || !s.spanBusy (p / 32)
  | 0x402 => Reg.PT_RXCTL_REACQ.get d == 0 || s.rxWorks p
  | 0x41C => !(s.on Reg.PT_RXCFG_EN p || s.on Reg.PT_TXCFG_EN p)
  | _ => true

/-- PT_TXCFG_EN written 0 (R140): a character in flight finishes. -/
def State.disableTx (s : State) (p : Nat) : State :=
  if ((s.port p).line).isSome then
    ((s.endQueue p 5).dropReplies p).modPort p (fun x => { x with stopAfter := some 5 })
  else s.stopTx p 5 .off

/-- What follows a stored word (R96, R140, R143, R333, R453, R454). A receive side that is disabled gives up its pins at that
edge, before its RTS falls. -/
def ptApply (s : State) (p w : Nat) (old : Word) : State :=
  match w with
  | 0x401 =>
    let was := Reg.PT_RXCFG_EN.get old == 1
    let now := s.on Reg.PT_RXCFG_EN p
    if was == now then s
    else if now then (s.touchMem0.sessionBegin p).resolve (p / 2)
    else ((((s.touchMem0.resolve (p / 2)).stopRx p .off).sessionEntry p true)).resolve (p / 2)
  | 0x414 =>
    let was := Reg.PT_TXCFG_EN.get old == 1
    let now := s.on Reg.PT_TXCFG_EN p
    if was == now then s
    else if now then s.touchMem0.resolve (p / 2)
    else (s.touchMem0.disableTx p).resolve (p / 2)
  | 0x419 => s.setRts p
  | 0x41A | 0x41C => s.touchMem0.notePressure p
  | _ => s

/-- PT_TXCTL_FLUSH (R140): a character in flight finishes, the remaining descriptors complete FLUSHED. -/
def State.flushTx (s : State) (p : Nat) : State :=
  let x := s.port p
  if x.tx = .off ∨ x.tx = .starved then s else
  let s := s.endQueue p 2
  match x.sending with
  | some { job := .desc _, .. } =>
    if x.line.isSome then s.modPort p (fun x => { x with stopAfter := x.stopAfter.or (some 2) })
    else (s.endJob p 2 0).restTx p
  | _ => s.restTx p

/-- Actions of the WO fields: REACQ, FMRESTART, FLUSH, RESUME (R90, R91, R140, R145). -/
def ptAct (s : State) (p w : Nat) (d : Word) : State :=
  match w with
  | 0x402 =>
    let s := if s.gateDue p then s.closeGate p else s
    let s := if Reg.PT_RXCTL_REACQ.get d = 1 then s.reacq p else s
    if Reg.PT_RXCTL_FMRESTART.get d = 1 then s.modPort p (fun x => { x with meter := {} }) else s
  | 0x415 =>
    let s := if Reg.PT_TXCTL_RESUME.get d = 1 then s.modPort p (fun x => { x with xoffRx := false }) else s
    if Reg.PT_TXCTL_FLUSH.get d = 1 then s.flushTx p else s
  | _ => s

def RxState.code : RxState → Nat
  | .off => 0 | .starved => 1 | .acq => 2 | .track => 3 | .reacq => 4 | .edgeOnly => 5 | .held => 6

def TxState.code : TxState → Nat
  | .off => 0 | .starved => 1 | .idle => 2 | .wait => 3 | .send => 4 | .flow => 5 | .held => 6

/-- Ports with an alert bit set (R97). -/
def State.alertPorts (s : State) : List Nat :=
  (s.listed 0x403).filter (fun p => s.on Reg.PT_RXSTAT_ALERT_FB p || s.on Reg.PT_RXSTAT_ALERT_RA p || s.on Reg.PT_RXSTAT_ALERT_OV p)

/-- PT_TXSTAT as it reads. -/
def State.txstat (s : State) (p : Nat) : Word :=
  let x := s.port p
  let q := x.queue.length + (match x.sending with | some { job := .desc _, .. } => 1 | _ => 0)
  let wired := x.flowMode == 1 && p % 2 == 0
  BitVec.ofNat 32 (min q 255 * 2 ^ 16 + (wired && x.rts).toNat * 128 + (wired && s.cts p s.now).toNat * 64 +
    x.xoffTx.toNat * 32 + x.xoffRx.toNat * 16 + x.tx.code)

/-- The result set of the frequency meter as the registers show it, for the holding registers (R91, R99). -/
def State.meterShown (s : State) (p : Nat) : MeterResult :=
  { period := s.rd Reg.PT_FM_PER_LO p + 2 ^ 32 * s.rd Reg.PT_FM_PER_HI p, ppm := s.reg p 0x409,
    edges := s.rd Reg.PT_FM_EDGES p, stamp := s.reg p 0x40B ++ (s.reg p 0x40A : Word),
    seq := BitVec.ofNat 16 (s.rd Reg.PT_FM_SEQ p) }

/-- The views of the PT_ block. PT_RXSTAT_DIRECT follows the palette entry that the port names, from POR on, before its Reset
column 0 (log entry 100). -/
def ptView (s : State) (p w : Nat) (v : Word) : Word :=
  let x := s.port p
  match w with
  | 0x403 =>
    Reg.PT_RXSTAT_DIRECT.set (Reg.PT_RXSTAT_WINNER.set (Reg.PT_RXSTAT_STATE.set v x.rx.code) x.winner)
      (s.portPalette p).direct.toNat
  | 0x404 => BitVec.ofNat 32 x.trk.period
  | 0x405 => x.perHold.zeroExtend 32
  | 0x408 => x.holding.seq ++ (BitVec.ofNat 16 (x.holding.period / 2 ^ 32))
  | 0x409 => x.holding.ppm
  | 0x40A => x.holding.stamp.truncate 32
  | 0x40B => (x.holding.stamp >>> 32).truncate 32
  | 0x40C => BitVec.ofNat 32 (x.holding.edges % 2 ^ 24)
  | 0x416 => s.txstat p
  | 0x41D => BitVec.ofNat 32 (roundDiv (s.rxFree p) 64)
  | 0x41E => BitVec.ofNat 32 ((s.txUsed p + 63) / 64)
  | 0x427 => BitVec.ofNat 32 (x.sel.getD 7)
  | 0x4F0 => BitVec.ofNat 32 (s.alertPorts.length * 2 ^ 16 + s.alertPorts.headD 0xFFFF)
  | _ => v

/-! ### Rings -/

/-- Values a ring word accepts (R209, R212). -/
def rgValue (s : State) (w : Nat) (d : Word) : Bool :=
  match w with
  | 0x500 => d.toNat < 256 || d.toNat == 0xFFFF
  | 0x501 =>
    Reg.RG_CFG_IRQ.get d != 3 && Reg.RG_CFG_CLASS.get d != 3 && Reg.RG_CFG_KIND.get d != 3 &&
    decide (6 ≤ Reg.RG_CFG_LOG2.get d ∧ Reg.RG_CFG_LOG2.get d ≤ 20) &&
    (Reg.RG_CFG_EARLY.get d == 0 || Reg.RG_CFG_KIND.get d == 1)
  | 0x504 => decide (30 ≤ Reg.RG_HZ.get d ∧ Reg.RG_HZ.get d ≤ 1250)
  | 0x505 => Reg.RG_QOS_WEIGHT.get d != 0
  | 0x5F0 => Reg.RG_EVRING_EN.get d == 0 || s.rd Reg.RG_CFG_KIND (Reg.RG_EVRING_RING.get d) == 2
  | _ => true

/-- The bound of a BOUNDED ring stands above its horizon (R212). -/
def rgCross (s : State) (n w : Nat) : Bool :=
  w != 0x505 || s.ringClass n != 1 || decide (s.rd Reg.RG_HZ n + 50 ≤ 25 * s.rd Reg.RG_QOS_LAT n)

/-- Something maps to a ring (R213). -/
def State.ringMapped (s : State) (n : Nat) : Bool :=
  s.enabledPorts.any (fun p =>
    (s.on Reg.PT_RXCFG_EN p && (s.portRings p).contains n) ||
    (s.on Reg.PT_TXCFG_EN p && s.rd Reg.PT_TXCFG_RING p == n)) ||
  (s.listed 0x501).any (fun m => s.on Reg.RG_CFG_EN m && s.rd Reg.RG_CFG_KIND m == 0 && s.rd Reg.RG_PAIR m == n) ||
  (s.on Reg.RG_EVRING_EN && s.rd Reg.RG_EVRING_RING == n) ||
  (s.on Reg.AL_CFG_EN && s.rd Reg.AL_CFG_RING == n) || (s.on Reg.LM_UPCFG_EN && s.rd Reg.LM_UPCFG_RING == n)

/-- A ring is ACTIVE, or an earlier word of the same burst enables it (R321). -/
def State.ringActive (s : State) (n : Nat) : Bool :=
  (s.ring n).state == .active || ((s.ring n).state == .off && s.on Reg.RG_CFG_EN n)

/-- Writes the state refuses (R212, R213). -/
def rgState (s : State) (n w : Nat) (d : Word) : Bool :=
  let st := (s.ring n).state
  match w with
  | 0x501 =>
    let same := Reg.RG_CFG_EN.set d 0 == Reg.RG_CFG_EN.set (s.reg n 0x501) 0
    (st == .off || same) &&
    (if Reg.RG_CFG_EN.get d = 1 then
       st == .off && (Reg.RG_CFG_KIND.get d != 0 ||
         (s.ringActive (s.rd Reg.RG_PAIR n) && s.rd Reg.RG_CFG_KIND (s.rd Reg.RG_PAIR n) == 1))
     else !((st == .active || st == .fault) && s.ringMapped n))
  | 0x502 | 0x503 | 0x504 | 0x506 => st == .off && !s.on Reg.RG_CFG_EN n
  | _ => true

/-- RG_CFG_EN (R174, R177, R182). -/
def rgApply (s : State) (n w : Nat) (_old : Word) : State :=
  if w = 0x501 then
    let r := s.ring n
    if s.on Reg.RG_CFG_EN n then
      if r.state = .off then
        (s.setRing n { state := .active, loss := r.loss }).wr Reg.RG_DEV 0 n
      else s
    else if r.state = .active ∨ r.state = .fault then s.setRing n { r with state := .draining } else s
  else s


def LinkPm.code : LinkPm → Nat
  | .l0 => 0 | .l1 => 1 | .l2 => 2 | .down => 3

/-- The views of the RG_ block. -/
def rgView (s : State) (n w : Nat) (v : Word) : Word :=
  let r := s.ring n
  match w with
  | 0x507 => Reg.RG_STAT_STATE.set v r.state.code
  | 0x508 => r.host
  | 0x509 => if s.rd Reg.RG_CFG_KIND n = 0 then r.issued else v
  | 0x50A => BitVec.ofNat 32 (s.staging.filter (fun x => x.ring == n && x.inStaging)).length
  | 0x5F1 =>
    let l := s.link
    BitVec.ofNat 32 (l.msix.toNat * 2 ^ 16 + l.bme.toNat * 2 ^ 15 + l.flit.toNat * 2 ^ 14 + (if l.d3hot then 3 else 0) * 2 ^ 12 +
      l.pm.code * 2 ^ 10 + l.width.toNat * 16 + l.speed.toNat)
  | _ => v

end Sys2Proof.Machine
end

