-- ==== Sys2Proof/Machine/Power.lean ====
section
/-!
DEFINITION. Power domains (16_power_reset.md R429 to R437, R445, R446) and the thermal warning (R473): holders and
permission of an octant, the entries and returns of every domain, the checks, effects and views of the PW_ registers but for
PW_RSTCTL, and the commands that are its own events.
-/
namespace Sys2Proof.Machine


/-! ### Holders and permission (R432, R433) -/

/-- An engaged shadow keeps an octant with an enabled port, a GPIO output or an attached contact unit in RUN (R248). -/
def State.shadowHolds (s : State) (o : Nat) : Bool :=
  s.engagedShadow &&
  (s.enabledPorts.any (fun p => octOfPort p == o) ||
   s.pins.any (fun (q, x) => octOfPin q == o && x.owner == .gpioOut) ||
   s.on Reg.CU_ATTACH_EN (2 * o) || s.on Reg.CU_ATTACH_EN (2 * o + 1))

/-- PW_OCTSTATo_HOLD (R432, R445). -/
def State.holders (s : State) (o : Nat) : Nat :=
  (if s.ports.any (fun (p, x) => octOfPort p == o && x.holds) then 1 else 0) +
  (if s.mons.any (fun (q, m) => octOfPin q == o && m.armed) then 2 else 0) +
  (if s.on Reg.CU_CFG_EN (2 * o) || s.on Reg.CU_CFG_EN (2 * o + 1) then 4 else 0) +
  (if s.groups.any (fun (g, x) => g / 8 == o && x.busyAt.isSome) || s.shadowHolds o then 8 else 0)

/-- The permission a receive palette gives (R433): the fastest hypothesis is at most 2 Mbaud when 2,048 (100 + A) is at most
PL_PERIOD, and at most 21 Mbaud when 4,096 (100 + A) is at most 21 PL_PERIOD. -/
def Settings.permits (x : Settings) : Nat :=
  match Reg.PL_ACQ_AUTODARK.get x.acq with
  | 1 => 1
  | 2 => 3
  | _ =>
    if 2048 * (100 + x.rangeA) ≤ x.period.toNat then 3
    else if 4096 * (100 + x.rangeA) ≤ 21 * x.period.toNat then 2 else 1

/-- The settings whose permission a receive port gives. -/
def State.rxSettings (s : State) (p : Nat) : Settings :=
  let x := s.port p
  if x.rxIdle then s.portPalette p else x.set

/-- The permission of an octant (R433). -/
def State.permission (s : State) (o : Nat) : Nat :=
  ((s.listed 0x401).filter (fun p => octOfPort p == o && s.on Reg.PT_RXCFG_EN p)).foldl
    (fun a p => min a (s.rxSettings p).permits) (s.rd (Reg.PW_OCTCFG_MAXST.at o))

/-- Octants deeper than their permission ask for RUN (R434). -/
def State.notePermits (s : State) : State :=
  (List.range 8).foldl (fun s o =>
    let x := s.oct o
    let deep := max x.state.code ((x.entering.map DomState.code).getD 0)
    if s.permission o < deep then s.wakeOct o 8 else s) s

/-! ### Octants (R430 to R437) -/

/-- V has passed: domains move between states (R430). -/
def State.pastV (s : State) : Bool := match s.boot.vAt with | some v => decide (v ≤ s.now) && s.running | none => false

/-- An octant may leave RUN, or go deeper, into a state of this code. -/
def State.octMay (s : State) (o code : Nat) : Bool :=
  let x := s.oct o
  s.pastV && !x.failed && s.holders o == 0 && decide (code ≤ s.permission o) && x.wakeAt.isNone && x.entering.isNone

/-- The ports of an octant stand HELD (R93); a transmitter at rest too. -/
def State.holdPorts (s : State) (o : Nat) : State :=
  let hold : Port → Port := fun x =>
    let x := if x.rx = .off ∨ x.rx = .held then x
      else { x with rxHeld := x.rx, rx := .held, replay := false, replayEnd := none }
    if x.tx = .idle then { x with tx := .held } else x
  { s with ports := s.ports.map (fun (p, (x : Port)) => if octOfPort p = o then (p, hold x) else (p, x)) }

/-- The contact units of an octant that leaves RUN (R387). -/
def State.safeUnits (s : State) (o : Nat) : State := (s.cuSafe (2 * o)).cuSafe (2 * o + 1)

/-- OCTANT_IDLE_ENTER (R431, R434): PW_OCTCFG_IDLET after the last activity (log entry 30). -/
def execOctantIdleEnter (o : Fin 8) (s : State) : Host.Outcome State Fault Refusal :=
  let x := s.oct o.val
  if x.state = .run && s.octMay o.val 1 then
    let s := s.advance (x.activeAt + 64 * s.rd (Reg.PW_OCTCFG_IDLET.at o.val))
    .next (((s.modOct o.val (fun x => { x with state := .idle, since := s.now, leftAt := s.now })).holdPorts o.val).safeUnits o.val)
  else .next s

/-- OCTANT_NAP_ENTER (R431, R435): a further PW_OCTCFG_NAPT in IDLE; pads in DRIVE enter HOLD, and the entry begins. -/
def execOctantNapEnter (o : Fin 8) (s : State) : Host.Outcome State Fault Refusal :=
  let x := s.oct o.val
  if x.state = .idle && s.octMay o.val 2 then
    let s := s.advance (max x.since x.activeAt + 1600 * s.rd (Reg.PW_OCTCFG_NAPT.at o.val))
    .next ((s.modOct o.val (fun x => { x with entering := some .nap, since := s.now })).holdOct o.val)
  else .next s

/-- OCTANT_DARK_ENTER (R431, R435): a further PW_OCTCFG_DARKT in NAP. -/
def execOctantDarkEnter (o : Fin 8) (s : State) : Host.Outcome State Fault Refusal :=
  let x := s.oct o.val
  if x.state = .nap && s.octMay o.val 3 then
    let s := s.advance (max x.since x.activeAt + 160000 * s.rd (Reg.PW_OCTCFG_DARKT.at o.val))
    .next (s.modOct o.val (fun x => { x with entering := some .dark, since := s.now }))
  else .next s

/-- OCTANT_ENTRY_DONE (R437): the entry is complete, at its bound of 3,200 DCLK (log entry 31). -/
def execOctantEntryDone (o : Fin 8) (s : State) : Host.Outcome State Fault Refusal :=
  if !s.running then .next s else
  match (s.oct o.val).entering with
  | some into =>
    let s := s.advance ((s.oct o.val).since + 3200)
    let s := s.modOct o.val (fun x => { x with state := into, entering := none, since := s.now })
    .next (if into = .dark then s.safeLevels o.val else s)
  | none => .next s

/-- A held port of an octant that reaches RUN (R90, R93): it returns to its state, a held REACQ acts first, the recorder
replays; the transmitter's head is looked at again. -/
def State.releasePort (s : State) (p : Nat) : State :=
  let x := s.port p
  let s := if x.rx = .held then
      let s := s.setPort p { x with rx := x.rxHeld, rxHeld := .off, reacqHeld := false,
                                    replay := decide (0 < (s.pin (rxPin p)).fresh) }
      if x.reacqHeld then s.reacq p else s
    else s
  if x.tx = .held then (s.modPort p (fun x => { x with tx := .idle })).checkHead p else s

/-- The stations of an octant whose P3 GPIO input holds: their sources replay what was recorded (R273). -/
def State.replayInputs (s : State) (o left : Nat) : State :=
  ((s.pins.filter (fun (q, x) => octOfPin q == o && q % 4 == 3 && x.owner == .gpioIn)).map (·.1)).foldl
    (fun s q => s.replayInput (q / 4) left) s

/-- An octant reaches RUN (R341, R435, R436): this edge is W for its pads, its waiting settings take effect, its DACs are
loaded, its station sources see what was recorded (R273), its ports leave HELD. -/
def State.octRuns (s : State) (o : Nat) : State :=
  let left := (s.oct o).leftAt
  let s := s.modOct o (fun x => { x with state := .run, wakeAt := none, since := s.now, activeAt := s.now })
  let s : State := { s with pins := s.pins.map (fun (q, (x : Pin)) =>
    if octOfPin q = o ∧ x.switchAt.isSome then (q, { x with switchAt := some s.now }) else (q, x)) }
  let s := s.unholdOct o
  let s := ((s.pins.filter (fun (q, x) => octOfPin q == o && x.cfgWaits.isSome && !s.inFlight q)).map (·.1)).foldl
    (fun s q => match (s.pin q).cfgWaits with | some v => s.applyPinCfg q v | none => s) s
  let s := [2 * o, 2 * o + 1].foldl (fun s i => if s.cuRuns i && (s.cu i).rangeAt.isNone then s.cuStartSource i else s) s
  let s := (s.restoreLevels o).replayInputs o left
  ((s.ports.map (·.1)).filter (fun p => octOfPort p == o)).foldl State.releasePort s

/-- OCTANT_RUN (R431, R436, R437, R445): the octant reaches RUN at the bound of its latency after the request, or after the entry
under way (log entry 31); at once after a request at the edge of its entry into IDLE, which is cancelled. An OCT reset, whose
request carries cause 0, is no wake (DEDUCED, log entry 34). -/
def execOctantRun (o : Fin 8) (s : State) : Host.Outcome State Fault Refusal :=
  if !s.running then .next s else
  let x := s.oct o.val
  match x.wakeAt with
  | none => .next s
  | some (w, cause) =>
    if x.entering.isSome || x.state = .run || x.failed then .next s else
    let lat := match x.state with | .nap => 1600 | .dark => 44800 | _ => if w = x.leftAt then 0 else 8
    let s := s.advance (max w x.since + lat)
    let s := if cause = 0 then s else
      let s := s.wr (Reg.PW_OCTSTAT_LASTCAUSE.at o.val) cause
      if x.state = .nap ∨ x.state = .dark then s.incWrap (Reg.PW_OCTSTAT_WAKES.at o.val) else s
    .next (s.octRuns o.val)

/-! ### The other domains (R431) -/

/-- An engine of the core has work: a record in staging, a message, a character on a line, a segment, an auxiliary
transfer. -/
def State.coreBusy (s : State) : Bool :=
  !s.staging.isEmpty || !s.unbuilt.isEmpty || !s.msgs.isEmpty || !s.segments.isEmpty || s.ports.any (fun (_, x) => x.line.isSome) ||
  s.auxs.any (fun (_, x) => x.state == .busy || x.state == .boot)

/-- Stack 0 holds data: a port's space is filled beyond its 2 KiB on the die (R146, R147, R431). -/
def State.reserveHolds (s : State) : Bool :=
  s.ports.any (fun (p, _) => decide (2048 < s.rxUsed p) || decide (2048 < s.txUsed p))

/-- A memory domain may enter a state (R431): nothing requests it, since a request starts the return at once, and a stack that
holds data does not enter DARK. -/
def memMay (state into : DomState) (maxst : Nat) (holds wanted : Bool) : Bool :=
  decide (state.code < into.code) && decide (into.code ≤ maxst) && !wanted && (into != .dark || !holds)

/-- Time without access before a stack enters a state (R431): 1,600 DCLK before IDLE, PW_MEMCFG_SRT µs before NAP. -/
def State.memRest (s : State) : DomState → Nat
  | .idle => 1600
  | .nap => 1600 * s.rd Reg.PW_MEMCFG_SRT
  | _ => 0

/-- The last edge at which an engine of the core had work: an edge or a start on a pin, a write to the host, or its return to
RUN (R431; DEDUCED, log entry 113). -/
def State.coreIdleFrom (s : State) : Nat :=
  s.octs.foldl (fun n x => max n x.2.activeAt) (max s.power.coreAt s.link.idleFrom)

/-- Stack 0 enters a state: the space of the ports follows, and their flow decisions with it (R28, R143, R229). -/
def State.setMem0 (s : State) (x : DomState) : State :=
  (s.ports.map (·.1)).foldl State.flowRelease { s with power := { s.power with mem0 := x } }

/-- DOMAIN_SLEEP_ENTER (R431): a switched domain enters a deeper state when its condition holds, at the edge at which the time
it asks for has passed. D3cold, which only D3hot leads to, takes the link with it. -/
def execDomainSleepEnter (d : Domain) (into : DomState) (s : State) : Host.Outcome State Fault Refusal :=
  if !s.pastV then .next s else
  let p := s.power
  match d with
  | .core => .next (if into = .idle && p.core = .run && !s.coreBusy then
      { s.advance (s.coreIdleFrom + 1600) with power := { p with core := .idle } } else s)
  | .host =>
    if into = .dark && s.link.d3hot && p.host != .dark then
      let s : State := { s with power := { p with host := .dark }, link := { s.link with pm := .l2 } }
      .next s.noteSleep
    else .next s
  | .hinge =>
    .next (if into = .dark && s.rd Reg.HG_CFG_ROLE = 0 then
      { s with power := { p with hinge := .dark }, hinge := { s.hinge with up := false } } else s)
  | .mem0 =>
    .next (if memMay p.mem0 into (s.rd Reg.PW_MEMCFG_MAXST0) s.reserveHolds s.mem0Wanted then
      (s.advance (p.mem0At + s.memRest into)).setMem0 into else s)
  | .mem1 =>
    .next (if memMay p.mem1 into (s.rd Reg.PW_MEMCFG_MAXST1) (!s.segments.isEmpty) s.mem1Wanted then
      { s.advance (p.mem1At + s.memRest into) with power := { p with mem1 := into } } else s)

/-- The latency of a stack's return (R431). -/
def memLatency : DomState → Nat
  | .run => 0 | .idle => 16 | .nap => 3200 | .dark => 320000

/-- DOMAIN_WAKE (R28, R431): a request brings a domain to RUN at the bound of its latency (log entry 31). HOST returns from
D3cold through PERST# alone. -/
def execDomainWake (d : Domain) (s : State) : Host.Outcome State Fault Refusal :=
  if !s.running then .next s else
  match d with
  | .core =>
    if s.power.core = .run then .next s else
    let s := s.advance (s.now + 16)
    .next { s with power := { s.power with core := .run, coreAt := s.now } }
  | .host =>
    if s.power.host = .idle then .next s.leaveL1
    else if s.power.host = .nap && !s.link.d3hot then
      let s := s.advance (s.now + 32)
      .next { s with power := { s.power with host := .run } }
    else .next s
  | .hinge =>
    if s.power.hinge = .dark && s.rd Reg.HG_CFG_ROLE != 0 then
      let s := s.advance (s.now + 64000)
      .next { s with power := { s.power with hinge := .run } }
    else .next s
  | .mem0 =>
    if s.power.mem0 = .run then .next s else
    let s := s.advance (s.power.wake0.getD s.now + memLatency s.power.mem0)
    .next (State.setMem0 { s with power := { s.power with mem0At := s.now, wake0 := none } } .run)
  | .mem1 =>
    if s.power.mem1 = .run then .next s else
    let s := s.advance (s.power.wake1.getD s.now + memLatency s.power.mem1)
    .next { s with power := { s.power with mem1 := .run, mem1At := s.now, wake1 := none } }

/-! ### Register checks, effects and views -/

/-- Values the PW_ registers accept (R439, R445). -/
def pwValue (w : Nat) (d : Word) : Bool :=
  if w = 0x101 then Reg.PW_MEMCFG_SRT.get d != 0
  else if 0x108 ≤ w ∧ w ≤ 0x10F then
    Reg.PW_OCTCFG_IDLET.get d != 0 && Reg.PW_OCTCFG_NAPT.get d != 0 && Reg.PW_OCTCFG_DARKT.get d != 0
  else if w = 0x120 then Reg.PW_RSTCTL_CONFIRM.get d == 0x0A5F
  else true

/-- Resets that the state refuses (R439). -/
def pwState (s : State) (w : Nat) (d : Word) : Bool :=
  if w = 0x120 then
    Reg.PW_RSTCTL_SOFT.get d == 1 ||
    (!(d.getLsbD 11 && s.reserveHolds) && !(d.getLsbD 12 && (s.mem1Wanted || !s.segments.isEmpty)) &&
     (List.range 8).all (fun o => !(d.getLsbD o && s.holders o != 0)))
  else true

/-- What follows a stored word (R434, R446): a domain deeper than its new MAXST starts its return to RUN. -/
def pwApply (s : State) (w : Nat) : State :=
  if w = 0x101 then s.askMem0.askMem1
  else if 0x108 ≤ w ∧ w ≤ 0x10F then s.notePermits
  else s

/-- The views of the PW_ block. -/
def pwView (s : State) (w : Nat) (v : Word) : Word :=
  if w = 0x100 then
    let p := s.power
    BitVec.ofNat 32 (p.mem1.code * 2 ^ 24 + p.mem0.code * 2 ^ 22 + p.hinge.code * 2 ^ 20 + p.host.code * 2 ^ 18 +
      p.core.code * 2 ^ 16 + ((List.range 8).map (fun o => (s.oct o).state.code * 4 ^ o)).sum)
  else if 0x110 ≤ w ∧ w ≤ 0x117 then
    Reg.PW_OCTSTAT_PERMIT.set (Reg.PW_OCTSTAT_HOLD.set v (s.holders (w - 0x110))) (s.permission (w - 0x110))
  else v

/-! ### The thermal warning (R473) -/

/-- Temperatures of the hottest sensor of each kind of die reach their registers. -/
def State.setTemps (s : State) (core sio hbm : BitVec 8) : State :=
  ((s.wr Reg.GL_THERM_TCORE core.toNat).wr Reg.GL_THERM_TSIO sio.toNat).wr Reg.GL_THERM_THBM hbm.toNat

/-- WARN - HYST: below it, at every sensor, the warning ends and Gesso may start (R473, R474). -/
def State.coolLimit (s : State) : Nat := s.rd Reg.GL_THERMCFG_WARN - s.rd Reg.GL_THERMCFG_HYST

/-- Source 259 follows WARN and HYST (R473). -/
def State.noteHeat (s : State) (hot : Nat) : State :=
  if s.rd Reg.GL_THERMCFG_WARN ≤ hot then s.raiseLevel 259 true hot
  else if hot < s.coolLimit then s.raiseLevel 259 false hot else s

/-- THERMAL_WARN (R473, R474): the sensors read these temperatures; source 259 follows, and a Gesso that waits for cool dies
starts. -/
def execThermalWarn (core sio hbm : BitVec 8) (s : State) : Host.Outcome State Fault Refusal :=
  let s := s.setTemps core sio hbm
  let hot := max core.toNat (max sio.toNat hbm.toNat)
  let s := if s.boot.hot && decide (hot < s.coolLimit) then
      { s with boot := { s.boot with hot := false, fuseAt := s.now } } else s
  .next (if s.running then s.noteHeat hot else s)

end Sys2Proof.Machine
end

