-- ==== Sys2Proof/Machine/Response.lean ====
section
/-!
DEFINITION. Responses of the chain (10_tureus_chain.md R310, R311, R318 to R322, R328 to R330): the status byte, CH_STAT, the
response an executed slot leaves, and the settings of the chain that wait for a frame's end.
-/
namespace Sys2Proof.Machine

def ChMode.code : ChMode → Nat
  | .full => 0 | .selected => 1 | .bypassed => 2 | .broadcast => 3

/-- A device of one bit (R300). -/
def ChMode.oneBit (m : ChMode) : Bool := m == .bypassed || m == .broadcast

/-- CH_STAT as it reads (R329). -/
def State.chStat (s : State) : Word :=
  let c := s.chain
  BitVec.ofNat 32 (c.assigned.toNat * 2 ^ 31 + c.pos.toNat * 2 ^ 24 + c.target.toNat * 2 ^ 16 + c.mode.code * 2 ^ 8 + c.len)

/-- GL_POS as it reads (R330). -/
def State.glPos (s : State) : Word := BitVec.ofNat 32 (s.chain.assigned.toNat * 256 + s.chain.pos.toNat)

/-- The status byte (R311), without UNDERRUN. -/
def State.statusByte (s : State) (c : Code) : BitVec 8 := (if s.attn then 0x20 else 0) ||| c.zeroExtend 8

/-- The chain executes slots: DCLK is valid, Gesso has ended, the device has a position and is not bypassed (R300, R313). -/
def State.chainOn (s : State) : Bool :=
  s.clocked && s.boot.stage != .gesso && s.chain.assigned && s.chain.mode != .bypassed

/-- The head of a slot with tag 0 (R306). -/
def slotHead (op : BitVec 4) (addr : BitVec 12) (data : Word) : BitVec 64 := op ++ 0#4 ++ addr ++ data ++ 0#12

/-- CH_LEN, CH_NDEV and CH_FRMFULL that are due take effect (R328). -/
def State.chainDue (s : State) : State :=
  match s.chain.lenNext with
  | some (k, n, f) =>
    if s.chain.lenWait = 0 then { s with chain := { s.chain with len := k, ndev := n, frmfull := f, lenNext := none } } else s
  | none => s

/-- The opcode and tag a response repeats: 0 for a slot that failed its CRC (R319; log entry 49). -/
def respOp (head : BitVec 64) (code : Code) : BitVec 4 := if code == Code.crc then 0 else (head >>> 60).truncate 4
def respTag (head : BitVec 64) (code : Code) : BitVec 2 := if code == Code.crc then 0 else (head >>> 58).truncate 2

/-- CH_LASTST after an executed slot (R329): status, opcode, tag and address. -/
def State.lastWord (s : State) (head : BitVec 64) (code : Code) : Word :=
  BitVec.ofNat 32 ((s.statusByte code).toNat * 2 ^ 24 + (respOp head code).toNat * 2 ^ 20 + (respTag head code).toNat * 2 ^ 18) |||
    ((head >>> 44).truncate 12 : BitVec 12).zeroExtend 32

/-- The chain part with a response in it (R304, R330): GL_ERRLOG keeps a head that failed, and a device of one bit shows between
frames whether the status is OK. -/
def Chain.withResp (c : Chain) (r : Resp) (head : BitVec 64) (code : Code) : Chain :=
  { c with
    resp := some r,
    errlog := if code = Code.ok then c.errlog else (head &&& ~~~ 0xFF#64) ||| r.status.zeroExtend 64,
    stage := if c.mode.oneBit && !c.inFrame then [decide (code = Code.ok)] else c.stage,
    dout := if c.mode.oneBit && !c.inFrame then decide (code = Code.ok) else c.dout }

/-- An executed slot leaves its response (R304, R310, R319, R320, R322), ready after `delay` DCLK. -/
def State.respond (s : State) (head : BitVec 64) (code : Code) (data : Word) (more : List Word) (delay : Nat) : State :=
  let r : Resp := { tag := respTag head code, status := s.statusByte code, op := respOp head code, data := data, more := more,
                    readyAt := s.now + delay }
  let s := (s.setReg 0 0x047 (s.lastWord head code)).chainDue
  { s with chain := s.chain.withResp r head code }

end Sys2Proof.Machine
end

