-- ==== Sys2Proof/Machine/Hinge.lean ====
section
/-!
DEFINITION. Diptych and the Hinge (08_diptych.md): pair states, heartbeats, engagement, the decisions and records that cross
the Hinge, the release line and its claim, releases and takeovers; the checks, effects and views of the HG_ registers; and
the commands that are its own events. Mirrored chain writes stand with the chain.
-/
namespace Sys2Proof.Machine

/-! ### Codes and states -/

/-- Codes of HG_CFG_ROLE and of HG_STAT_STATE (R266). -/
def Role.code : Role → Nat
  | .solo => 0 | .primary => 1 | .shadow => 2
def PairState.code : PairState → Nat
  | .solo => 0 | .disengaged => 1 | .engaging => 2 | .engaged => 3 | .degraded => 4 | .released => 5 | .taken => 6

/-- The role that HG_CFG_ROLE reads. -/
def State.role (s : State) : Role := if s.isPrimary then .primary else if s.isShadow then .shadow else .solo

def State.setPair (s : State) (x : PairState) : State := { s with hinge := { s.hinge with state := x } }

/-- A Fresco of the shadow that waits for the primary's values shows its own (R226). -/
def State.frescoAlone (s : State) : State :=
  if s.tb.frWaits then ({ s with tb := { s.tb with frWaits := false } } : State).wr Reg.TB_STAT_FR_VALID 1 else s

/-- The engagement is over: TB_PAIROFS_VALID clears, OFS stays, and the window being filled is gone (R53); a Fresco waits for the
primary no longer (R226). -/
def State.pairEnds (s : State) : State :=
  (({ s with tb := { s.tb with pairEdges := 0, pairSum := 0, pairWindows := [] } } : State).wr Reg.TB_PAIROFS_VALID 0).frescoAlone

/-- In the primary and in SOLO, OFS is 0 and VALID is 0 (R53); an offset that a takeover froze stays until the next Solstice
(R54). -/
def State.clearOffset (s : State) : State := if s.tb.pairFrozen then s else s.pairEnds.wr Reg.TB_PAIROFS_OFS 0


/-- A member may seek and hold a claim (R255). -/
def State.eligible (s : State) : Bool :=
  match s.hinge.state with
  | .solo | .taken => true
  | .disengaged | .engaging | .engaged | .degraded => s.isPrimary
  | .released => false

/-- A ring, port, Cue engine or line monitor of the member is enabled (R251). -/
def State.anyEnabled (s : State) : Bool :=
  !s.enabledPorts.isEmpty || (s.listed 0x501).any (fun n => s.on Reg.RG_CFG_EN n) ||
  (s.listed 0x901).any (fun p => s.on Reg.CQ_CTL_EN p) || s.mem1Wanted

/-! ### Drivers and the release line (R255 to R257) -/

/-- Every station driver turns off at one edge; each pad is left to its keeper at its last level, and switches open (R256,
R383). HG_RELO follows 64 DCLK later. -/
def State.driversOff (s : State) : State :=
  let h := s.hinge
  if !h.claim && !h.relo then s else
  let s : State := { s with
    hinge := { h with claim := false, drivers := 0, offAt := some s.now, firstRel := none },
    pins := s.pins.map (fun (q, (x : Pin)) => if x.pad = .drive then (q, { x with pad := .keep }) else (q, x)),
    cus := s.cus.map (fun (i, (u : Cu)) =>
      if u.state = .closing ∨ u.state = .closed then (i, { u with state := .heldoff, closed := false }) else (i, u)) }
  s

/-- What is no longer eligible gives its drivers up, and waits for no claim (R255, R256). -/
def State.noteEligible (s : State) : State :=
  if s.eligible then s else { s.driversOff with hinge := { s.driversOff.hinge with blocked := false } }

/-- Neither member owes the other anything of a pair: blocks, marks and decisions that wait are gone (R242 to R246). -/
def Port.unpaired (x : Port) : Port :=
  { x with block := [], blockNo := 0, blockAck := 0, sent := [], own := [], matched := [], transfer := 0, later := [], ending := [] }

def State.unpair (s : State) : State := { s.freeHeld with ports := s.ports.map (fun (p, x) => (p, x.unpaired)) }

/-- The release of a primary (R257): pins to keepers, memory requests stop, state RELEASED. -/
def State.release (s : State) : State :=
  if s.isPrimary && s.hinge.state.paired then
    let s := s.unpair.driversOff
    { s with hinge := { s.hinge with state := .released, blocked := false } }
  else s

/-- The pad of a driving function commits its level, with the driver on (R260). -/
def State.enablePad (s : State) (q : Nat) : State :=
  match s.ownerLevel q with
  | some b =>
    let s := s.modPin q (fun x => { x with pad := .drive, driven := some b, drivenAt := s.now })
    s.emit (.pinLevel q ((s.pin q).outLevel b) (s.ballStamp q))
  | none => s.modPin q (fun x => { x with pad := .off, driven := none })

/-- Station drivers of an octant are enabled (R255, R260, R383): pads that a driving function holds commit its level, and
contact units that held off close. In an octant that sleeps the driver holds the keeper's level and RUN is asked for, at which
the pads take their levels (DESIGN CHOICE, log entry 106). -/
def State.enableDrivers (s : State) (o : Nat) : State :=
  let s : State := { s with hinge := { s.hinge with drivers := o + 1 } }
  let kept := (s.pins.filter (fun (q, x) =>
    octOfPin q == o && x.pad == .keep && !(s.group (groupOfPin q)).frozen)).map (·.1)
  let s :=
    if (s.oct o).state = .run then kept.foldl State.enablePad s
    else if kept.isEmpty then s
    else (kept.foldl (fun s q => s.modPin q (fun x => { x with pad := .hold })) s).wakeOct o 8
  [2 * o, 2 * o + 1].foldl (fun s i =>
    s.modCu i (fun u => if u.state = .heldoff then { u with state := .closing, swAt := s.now } else u)) s

/-! ### Yielding (R253, the TAKEOVER column of R443) -/

/-- A port of a member that yields: its counters and numbers stay. -/
def Port.yielded (x : Port) : Port :=
  { set := x.set, txSet := x.txSet, result := x.result, holding := x.holding, winner := x.winner, serial := x.serial,
    seq0 := x.seq0, seq1 := x.seq1, seq2 := x.seq2, seq3 := x.seq3, session := x.session, perHold := x.perHold }

/-- Words that hold the state of rings, beside RG_CFG_EN (R443). -/
def ringStateWords : List Nat := [0x507, 0x509, 0x50A, 0x50B, 0x50C, 0x50D]

/-- Every ring OFF, with its ring state at the reset values (R441, R443). -/
def State.ringsOff (s : State) : State :=
  let s := (s.listed 0x501).foldl (fun s n => s.wr Reg.RG_CFG_EN 0 n) s
  let s := ringStateWords.foldl (fun s w => (s.listed w).foldl (fun s n => s.setReg n w (resetWord (n * 4096 + w))) s) s
  { s with rings := [], gapWaits := [], flushes := [], flushDue := false,
           segments := s.segments.map (fun g => { g with upload := none }) }

/-- Monitors disarmed, without waiting for a capture. -/
def State.monitorsOff (s : State) : State :=
  { s with mons := s.mons.map (fun (q, (m : Monitor)) =>
      if m.armed then (q, { m with state := .off, trig := none, disPend := false }) else (q, m)) }

/-- The TAKEOVER reset (R253, R442, R443): enables 0, sessions end, rings OFF without records, monitors disarmed, keepers
off. -/
def State.yieldMember (s : State) : State :=
  let s := (s.ports.filter (fun x => x.2.sessionOpen)).foldl (fun s x => s.sessionEntry x.1 true) s
  let s := (s.listed 0x401).foldl (fun s p => s.wr Reg.PT_RXCFG_EN 0 p) s
  let s := (s.listed 0x414).foldl (fun s p => s.wr Reg.PT_TXCFG_EN 0 p) s
  let s := (s.listed 0x901).foldl (fun s p => s.wr Reg.CQ_CTL_EN 0 p) s
  let s := s.forget ((s.staging ++ s.unbuilt).flatMap (·.events))
  let s : State := { s with ports := s.ports.map (fun (p, x) => (p, x.yielded)), staging := [], unbuilt := [], segments := [],
                            extents := [] }
  let s := s.ringsOff.monitorsOff.settle
  let s : State := { s with pins := s.pins.map (fun (q, (x : Pin)) => (q, { x with pad := .off, driven := none })) }
  let stations := ((s.pins.filter (fun x => x.2.owner != .monitor)).map (fun x => stationOfPin x.1)).eraseDups
  ((stations.foldl State.resolve s).wr Reg.TB_PAIROFS_VALID 0).wr Reg.PW_RSTSTAT_LAST 11

/-- A shadow that leaves without a takeover resumes its own Almanac chain (R458). -/
def State.resumeAlmanac (s : State) : State :=
  if !s.alSuspended then s else
  ({ s with almanac := s.almanac.restore } : State).pairEntry 2 (s.almanac.index - 1) s.almanac.hash

/-- A member leaves ENGAGED, DEGRADED or RELEASED for DISENGAGED (R241, R253); a TAKEN one becomes PRIMARY and keeps its
claim. -/
def State.disengage (s : State) : State :=
  let s := s.pairEnds
  match s.hinge.state with
  | .engaged | .degraded =>
    let s := s.setPair .disengaged
    if s.isShadow then s.yieldMember.resumeAlmanac else s.unpair
  | .released => (s.setPair .disengaged).yieldMember
  | .taken => ((s.setPair .disengaged).wr Reg.HG_CFG_ROLE 1).clearOffset
  | _ => s

/-! ### The Hinge down (R239, R241, R247) -/

/-- An engagement ends without success: HG_STAT_ENGFAIL and source 278 (R241, R251). -/
def State.engageFails (s : State) (code : Nat) : State := (s.wr Reg.HG_STAT_ENGFAIL code).raiseEvent 278 code

/-- ENGAGING is given up (R241): the shadow clears its enables. -/
def State.abandonEngage (s : State) (code : Nat) : State :=
  let s := (s.setPair .disengaged).engageFails code
  let s : State := { s with hinge := { s.hinge with alImage := none } }
  if s.isShadow then s.yieldMember else s.unpair

/-- A mirrored write that waits for its acknowledgement ends with E_MIRROR (R249), and one of the shadow's that waits behind it
is dropped. -/
def State.mirrorFails (s : State) : State :=
  let s : State := { s with hinge := { s.hinge with mirrorLate := none } }
  match s.hinge.mirror with
  | none => s
  | some m =>
    let s : State := { s with hinge := { s.hinge with mirror := none } }
    s.respond m.head Code.mirror 0 [] 0

/-- A member declares the Hinge down (R239, R241). -/
def State.hingeDown (s : State) : State :=
  let s := s.mirrorFails
  let s := (s.incSat Reg.HG_HBMISS 0 ((s.now - s.hinge.lastRecv) / 1600)).wr Reg.HG_STAT_EV_DOWN 1
  let s : State := { s with hinge := { s.hinge with up := false, retrainAt := none,
                                                    peer := { s.hinge.peer with state := .solo } } }
  match s.hinge.state with
  | .engaged =>
    let s := s.pairEnds.setPair .degraded
    let s := if s.isShadow then s else s.unpair
    s.raiseEvent 276 (s.rd Reg.HG_HBMISS % 65536)
  | .engaging => s.abandonEngage 1
  | _ => s

/-! ### Engagement (R251, R252) -/

/-- Only the mirrored fields of a word (R252): the others at their reset values. -/
def mirrorMask (w : Nat) : Word := ((wordFields w).filter (·.mir)).foldl (fun a f => a ||| f.mask) 0

/-- The mirrored fields of a register store. -/
def mirrored (m : Sparse Word) : Sparse Word :=
  (m.map (fun (k, v) => (k, v &&& mirrorMask (k % 4096)))).filter (fun x => mirrorMask (x.1 % 4096) != 0)

/-- The image of R252, with the counts of rings. -/
def State.image (s : State) : Image :=
  { regs := mirrored s.regs ++ (s.regs.filter (fun x => decide (0x507 ≤ x.1 % 4096 ∧ x.1 % 4096 ≤ 0x50D))),
    rings := s.rings, ports := s.ports, srcs := s.srcs, tgts := s.tgts, mons := s.mons, staging := s.staging,
    almanac := { s.almanac with saved := none }, uids := s.nextUid }

/-- The engagement starts at the primary (R251, R252): the first failed check ends it. -/
def State.engage (s : State) : State :=
  let p := s.hinge.peer
  let far := !(sLe p.tofs 256 && sLe (-256#64) p.tofs)
  if !s.hinge.up then s.engageFails 1
  else if p.state != .disengaged || p.role != .shadow then s.engageFails 2
  else if !s.on Reg.TB_STAT_EPOCH_VALID || !p.epoch || far then s.engageFails 3
  else if p.busy then s.engageFails 4
  else
    let s := s.unpair
    let s : State := { s with hinge := { s.hinge with state := .engaging, engagedAt := s.now } }
    s.emit (.hinge (.engage s.image))

/-- Mirrored registers are replaced by those of the image; words with no mirrored field, but for the counts of rings, stay
(R252). -/
def State.adoptRegs (s : State) (m : Sparse Word) : State :=
  let mine := s.regs.map (·.1)
  let s := mine.foldl (fun s k =>
    let mask := mirrorMask (k % 4096)
    if mask = 0 then s
    else s.setReg (k / 4096) (k % 4096) ((s.reg (k / 4096) (k % 4096) &&& ~~~ mask) ||| (resetWord k &&& mask))) s
  m.foldl (fun s (k, v) =>
    let mask := if 0x507 ≤ k % 4096 ∧ k % 4096 ≤ 0x50D then 0xFFFFFFFF#32 else mirrorMask (k % 4096)
    s.setReg (k / 4096) (k % 4096) ((s.reg (k / 4096) (k % 4096) &&& ~~~ mask) ||| (v &&& mask))) s

/-- The downstream state of a port (R252): numbers, shown list, selection, windows, flow state, space, and the descriptors fetched
and not completed, the one in progress among them. -/
def Port.downstream (x y : Port) : Port :=
  { x.unpaired with
    serial := y.serial, seq0 := y.seq0, seq1 := y.seq1, seq2 := y.seq2, seq3 := y.seq3, sel := y.sel,
    windows := y.windows, stopped := y.stopped, xoffRx := y.xoffRx, xoffTx := y.xoffTx, sinceXoff := y.sinceXoff,
    entries := y.entries, losses := y.losses, session := y.session, sessionOpen := y.sessionOpen, elements := y.elements,
    lastFrameEnd := y.lastFrameEnd, flowDue := y.flowDue, flowFlight := y.flowFlight,
    sending := y.sending.map (fun sd => match sd.job with
      | .desc d => { sd with job := .desc { d with data := none } }
      | .reply _ => sd),
    queue := y.queue.map (fun d => { d with data := none }), replies := y.waiting,
    acq := x.acq.map (fun a => match y.acq with
      | some b => { a with shown := b.shown, lastOffer := b.lastOffer, provSel := b.provSel, provEnd := b.provEnd }
      | none => a) }

/-- The shadow takes the image (R252): its mirrored state is replaced, and the functions it enables take their pins. Records of
its own that were under way go; its events are numbered on from the primary's. -/
def State.adopt (s : State) (i : Image) : State :=
  let s := s.adoptRegs i.regs
  let s : State := { s with rings := i.rings, srcs := i.srcs, tgts := i.tgts, mons := i.mons,
                            staging := (i.staging.filter (fun r => !r.prov || r.slot.isSome)).map (fun r =>
                              { r with marked := false, blocks := 0, held := true }),
                            unbuilt := [], gated := [], nextUid := max s.nextUid i.uids,
                            hinge := { s.hinge with alImage := some i.almanac, segs := [], ownDigest := none } }
  let stations := (s.enabledPorts.map (· / 2) ++ s.listed 0x605).eraseDups
  let s := stations.foldl State.resolve s
  let s := i.ports.foldl (fun s (p, y) => s.modPort p (fun x => x.downstream y)) s
  s.notePermits

/-- The shadow's own Almanac chain is suspended at ENGAGED, and the primary's head and queue stand in its place (R457). -/
def State.suspendAlmanac (s : State) : State :=
  match s.hinge.alImage with
  | none => s
  | some i => { s with almanac := s.almanac.suspend i, hinge := { s.hinge with alImage := none } }

/-! ### Decisions (R243, R245) -/

/-- Bytes of the entries a CRC covers (R243; their layout is the model's, log entry 42). -/
def BlockEntry.bytes (e : BlockEntry) : List Byte :=
  [BitVec.ofNat 8 e.kind] ++ leBytes 4 e.data.toNat ++ [e.flags] ++ e.stamps.flatMap (fun t => leBytes 8 t.toNat)
def blockCrc (l : List BlockEntry) : BitVec 32 := crc32c (l.flatMap BlockEntry.bytes)

/-- The entry a shadow's own one corresponds to in a decision block (R243). -/
def Own.entryOf : Own → Option BlockEntry
  | .entry e => some e
  | .chr c _ _ _ => some c.blockEntry
  | _ => none

/-- An own entry with the primary's stamps: each is the own one and the difference its stamp code gives (R243). -/
def BlockEntry.moved (e : BlockEntry) (code : List Stamp) : BlockEntry :=
  { e with stamps := (e.stamps.zip code).map (fun x => x.1 + x.2) }

/-- The primary's character: the shadow's own `c`, at the primary's stamp, with its data and flags. -/
def BlockEntry.asChr (e : BlockEntry) (c : Chr) : Chr :=
  let t := e.stamps.headD 0
  let d := t - c.stamp
  { c with stamp := t, t0 := c.t0 + d, centre := c.centre + d, data := e.data.truncate 9, fe := e.flags.getLsbD 0,
           pe := e.flags.getLsbD 1, noise := e.flags.getLsbD 2, wide := false }

/-- A port-level entry of the primary is confirmed (R245): stages 6 onward of R21. What the port transmits is observed only. -/
def State.decided (s : State) (p : Nat) (e : BlockEntry) : State :=
  let t := e.stamps.headD 0
  let u := e.stamps.getD 1 0
  match e.kind with
  | 2 =>
    let r := (s.breakClears p).portEntryNow p .brk t (leBytes 8 u.toNat)
    r.2.countEvent .sat Reg.PT_RXERR2_BREAK p 1 r.1
  | 3 => (s.portEntryNow p .edge t ([e.flags] ++ leBytes 7 0 ++ leBytes 8 u.toNat)).2
  | 4 => (s.portEntryNow p .overflow t (leBytes 4 e.data.toNat ++ leBytes 4 0 ++ leBytes 8 u.toNat)).2
  | _ => s

/-- A character that a shadow did not decode itself, framed under the settings and the period of its start: its last stop-bit
centre follows from them (R75). -/
def State.bareChr (s : State) (p : Nat) (t : Stamp) : Chr :=
  let x := s.port p
  { stamp := 0, t0 := 0, centre := ({ t0 := 0, stamp := 0 } : Frame).centre (x.setAt t) x.trk.period, data := 0 }

/-- Entry `e` of the primary is confirmed in place of the shadow's own `o` (R245). -/
def State.decideAs (s : State) (p : Nat) (o : Option Own) (e : BlockEntry) : State :=
  if e.kind = 1 then
    match o with
    | some (.chr c set period win) =>
      if win then s.confirmWon p set period (e.asChr c) else s.confirmChar p set (e.asChr c) period false
    | _ =>
      let t := e.stamps.headD 0
      s.confirmChar p ((s.port p).setAt t) (e.asChr (s.bareChr p t)) (s.port p).trk.period false
  else s.decided p e

/-- Events of the primary at the head of what a shadow has undecided settle (R125, R224, R248). -/
def State.settleList (p : Nat) : List Own → State → State
  | .win w :: t, s => State.settleList p t ((s.modPort p (fun x => { x with own := t })).settleWin p w)
  | .ended reason base stamp shown :: t, s =>
    State.settleList p t ((s.modPort p (fun x => { x with own := t })).settleEnd p reason base stamp shown)
  | .profile set clear stamp :: t, s =>
    let s := s.modPort p (fun x => { x with own := t, sel := if clear then none else x.sel })
    State.settleList p t (s.portEntryNow p .profile stamp (profileBody set 0)).2
  | _, s => s

def State.settleOwn (s : State) (p : Nat) : State := State.settleList p (s.port p).own s

/-- One stamp code (R243, R245): the next Cue match of the characters decided, else the next entry of the shadow's own, becomes
the primary's, and is confirmed. With the entry come the stamps both members gave the same edge (R53). -/
def State.rebuildOne (p : Nat) (a : Option (State × List BlockEntry × List (Stamp × Stamp))) (code : List Stamp) :
    Option (State × List BlockEntry × List (Stamp × Stamp)) :=
  a.bind (fun (s, es, sh) =>
    let s := s.settleOwn p
    match (s.port p).matched with
    | m :: t => some (s.modPort p (fun x => { x with matched := t }), es ++ [m.moved code], sh)
    | [] =>
      match (s.port p).own with
      | o :: t =>
        match o.entryOf with
        | some e =>
          some ((s.modPort p (fun x => { x with own := t })).decideAs p (some o) (e.moved code), es ++ [e.moved code],
            sh ++ e.stamps.zip (e.moved code).stamps)
        | none => none
      | [] => none)

/-- What the shadow makes of a decision block, when its CRC matches the entries rebuilt (R245). -/
def State.rebuild (s : State) (p : Nat) (codes : List (List Stamp)) (crc : BitVec 32) :
    Option (State × List (Stamp × Stamp)) :=
  match codes.foldl (State.rebuildOne p) (some (s, [], [])) with
  | some (t, es, sh) => if blockCrc es = crc then some (t.settleOwn p, sh) else none
  | none => none

/-- A block disagrees (R245): it is counted, its port and first stamp are kept, source 277 rises, and the shadow asks for its
transfer. -/
def State.disagree (s : State) (p : Nat) (codes : List (List Stamp)) : State :=
  let first := (codes.head?.bind (fun c => State.rebuildOne p (some (s, [], [])) c)).bind (fun r => r.2.1.head?)
  let s := s.modPort p (fun x => { x with transfer := codes.length })
  let s := ((s.incSat Reg.HG_DISAGREE).wr Reg.HG_DISLAST_V 1).wr Reg.HG_DISLAST_PORT p
  let s : State := { s with hinge := { s.hinge with disStamp := ((first.map (·.stamps)).getD []).headD s.hinge.disStamp } }
  ((s.wr Reg.HG_STAT_EV_DIS 1).raiseEvent 277 p).emit (.hinge (.answer (.request (Fin.ofNat 2048 p))))

/-- A decision block reaches the shadow (R245): it agrees and is acknowledged, or it disagrees; one behind a block that disagreed
waits for the transfer. -/
def State.takeBlock (s : State) (p : Nat) (codes : List (List Stamp)) (crc : BitVec 32) : State :=
  if (s.port p).transfer ≠ 0 then s.modPort p (fun x => { x with later := x.later ++ [(codes, crc)] }) else
  match s.rebuild p codes crc with
  | some (t, sh) =>
    let t := t.incWrap Reg.HG_AGREE 0 codes.length
    (if s.engagedShadow then t.shareEdges sh else t).emit (.hinge (.answer (.block (Fin.ofNat 2048 p))))
  | none => s.disagree p codes

/-- An entry of a block that disagreed, as the primary has it (R245). -/
def State.adoptEntry (p : Nat) (s : State) (e : BlockEntry) : State :=
  let s := s.settleOwn p
  if e.kind = 5 then s.modPort p (fun x => { x with matched := x.matched.drop 1 }) else
  let o := (s.port p).own.head?
  (s.modPort p (fun x => { x with own := x.own.drop 1 })).decideAs p o e

/-- The transfer of a block ends with the receive state of its port (R245): the shadow adopts it, acknowledges the block, and
goes on with those that waited. -/
def State.adoptPort (s : State) (p : Nat) (y : Port) : State :=
  let waiting := (s.port p).later
  let s := s.modPort p (fun x =>
    { x with rx := y.rx, rxHeld := y.rxHeld, acq := y.acq, trk := y.trk, feRun := y.feRun, breaking := y.breaking,
             winner := y.winner, set := y.set, setOld := y.setOld, transfer := 0, later := [] })
  waiting.foldl (fun s b => s.takeBlock p b.1 b.2) (s.emit (.hinge (.answer (.block (Fin.ofNat 2048 p)))))

/-- The shadow decides up to `n` entries on its own (R262). -/
def State.decideSome (p : Nat) : Nat → State → State
  | 0, s => s.settleOwn p
  | n + 1, s =>
    let s := s.settleOwn p
    match (s.port p).own with
    | o :: t =>
      let s := s.modPort p (fun x => { x with own := t })
      State.decideSome p n (match o.entryOf with | some e => s.decideAs p (some o) e | none => s)
    | [] => s

/-- What a shadow holds of the primary's decisions it still takes (R262): blocks behind one whose transfer has not ended. -/
def State.decideLater (s : State) (p : Nat) : State :=
  let x := s.port p
  let s := (s.decideSome p x.transfer).modPort p (fun x => { x with transfer := 0, later := [], matched := [] })
  x.later.foldl (fun s b => match s.rebuild p b.1 b.2 with
    | some (t, _) => t
    | none => (State.decideSome p b.1.length s).modPort p (fun x => { x with matched := [] })) s

/-- From the takeover edge the shadow decides on its own (R262). -/
def State.decideRest (s : State) (p : Nat) : State :=
  (State.decideSome p (s.port p).own.length s).modPort p Port.unpaired

/-! ### Records in the shadow (R242, R245, R246, R263, R457) -/

/-- Events of what a record of the primary covers in the shadow: the characters of a stream by their numbers, or the port
entry with its type and base. -/
def Entry.coveredBy (e : Entry) (r : Rec) : Bool :=
  match e.kind, r.body with
  | .chr _ k _ q _ _, .chars _ _ cs =>
    r.type != .txecho && k == r.partner && decide ((q - r.seq).toNat < cs.length)
  | .port ty _ _, .raw _ => ty == r.type && e.base == r.base
  | _, _ => false

/-- A completion names the descriptor it ends. -/
def Desc.endedBy (d : Desc) (r : Rec) : Bool := r.type == .txdone && d.tag == r.seq && d.partner == r.partner

/-- A CUE record ends the reply to the character it names. -/
def Reply.endedBy (y : Reply) (r : Rec) : Bool := r.type == .cue && y.matched.stamp == r.base

/-- What a record covers leaves the port: entries, the descriptor a TXDONE ends, the reply a CUE record ends. -/
def Port.cover (x : Port) (r : Rec) : Port :=
  { x with
    entries := x.entries.filter (fun e => !e.coveredBy r),
    queue := if x.sending.any (fun sd => match sd.job with | .desc d => d.endedBy r | _ => false) then x.queue
             else x.queue.eraseP (fun d => d.endedBy r),
    sending := x.sending.filter (fun sd => !(match sd.job with
      | .desc d => d.endedBy r
      | .reply y => y.endedBy r)),
    replies := x.replies.filter (fun y => !y.endedBy r) }

/-- Events of what a record covers at the port: they are committed with it (R216). -/
def Port.covered (x : Port) (r : Rec) : List Nat :=
  (x.entries.filter (fun e => e.coveredBy r)).map (·.uid) ++ (x.replies.filter (fun y => y.endedBy r)).map (·.uid) ++
  (match x.sending with
   | some { job := .reply y, .. } => if y.endedBy r then [y.uid] else []
   | _ => [])

/-- The same record of the primary, extended or in full. -/
def Rec.same (a b : Rec) : Bool := a.held && a.ring == b.ring && a.type == b.type && a.port == b.port && a.partner == b.partner &&
  a.seq == b.seq && a.base == b.base

/-- What the shadow formed of a transmit record that it waits for: the primary's takes its place (R245). -/
def Rec.awaited (a b : Rec) : Bool := a.type == b.type && a.port == b.port && a.partner == b.partner && a.seq == b.seq

/-- The shadow holds a record of the primary in its staging (R242, R246, R263): it carries the events of what it covers. -/
def State.holdRecord (s : State) (r : Rec) : State :=
  let p := r.port
  let covered := if r.ofEventPart then [] else (s.port p).covered r
  let mine := s.unbuilt.find? (fun x => x.awaited r)
  let old := (s.staging.filter (fun x => x.same r)).flatMap (·.events) ++ (mine.map (·.events)).getD []
  let (u, s) := s.fresh
  let (o, s) := s.takeOrder
  let r : Rec := { r with uid := u, order := o, since := s.now, slot := none, eligible := false, marked := false, blocks := 0,
                          held := true, rewrite := false, events := old ++ covered ++ [u] }
  let s : State := if r.ofEventPart then s else s.modPort p (fun x => x.cover r)
  State.noteStaging { s with staging := s.staging.filter (fun x => !x.same r) ++ [r],
                             unbuilt := s.unbuilt.filter (fun x => !(mine.any (fun y => y.uid == x.uid))) }

/-- Records whose bytes only the primary has: the shadow asks for them in full (R374, R457). -/
def Rec.wantsFull (r : Rec) : Bool := r.type == .capture || r.type == .almanac

/-- The bytes of an Almanac entry from its records, all of them held (R450). -/
def State.entryBytes (s : State) (r : Rec) : Option (List Byte) :=
  let l := s.staging.filter (fun x => x.type == .almanac && x.seq == r.seq && x.base == r.base)
  let body : Rec → List Byte := fun x => match x.body with | .raw b => padTo 48 b | _ => []
  let n := ((l.head?.map body).getD []).getD 1 0
  let chunks := (List.range n.toNat).map (fun k => l.find? (fun x => (body x).headD 0 == BitVec.ofNat 8 k))
  if n ≠ 0 ∧ chunks.all Option.isSome then
    some (chunks.flatMap (fun x => ((x.map body).getD []).drop 8))
  else none

/-- The shadow holds an entry of the primary once it holds all of its records (R457): head, queue and accumulators follow it; the
CONFIG entry of the engagement is compared (R449). -/
def State.followEntry (s : State) (r : Rec) : State :=
  if r.type != .almanac then s else
  match s.entryBytes r with
  | none => s
  | some b =>
    let (u, s) := s.fresh
    let s : State := { s with staging := s.staging.map (fun x =>
      if x.type = .almanac ∧ x.seq = r.seq ∧ x.base = r.base then { x with events := x.events ++ [u] } else x) }
    let s : State :=
      if s.alSuspended then { s with almanac := s.almanac.follow b u s.now }
      else { s with hinge := { s.hinge with alImage := s.hinge.alImage.map (fun a => a.follow b u s.now) } }
    let s := s.followSession b
    if slice b 16 1 = [4#8] ∧ slice b 56 1 = [3#8] ∧ s.hinge.ownDigest.any (fun d => d != slice b 64 32) then
      s.wr Reg.AL_STAT_MIRDIFF 1
    else s

/-- A CAPTURE record of a committed segment takes it off the count of the pin (R374). -/
def State.followCapture (s : State) (r : Rec) : State :=
  match r.type, r.body with
  | .capture, .raw b =>
    let q := ofLe (slice b 0 2)
    if slice b 2 1 = [1#8] then s else
    { s with hinge := { s.hinge with
        segs := Sparse.put (fun _ => 0) s.hinge.segs q (Sparse.get (fun _ => 0) s.hinge.segs q - 1) } }
  | _, _ => s

/-! ### Takeover (R54, R258 to R264, R290, R374, R458) -/

/-- Carillon at a takeover (R290): stacks empty, sources outside 257 to 383 cleared. -/
def State.takeCarillon (s : State) : State :=
  { s with tgts := s.tgts.map (fun (t, (x : Tgt)) => (t, { x with stack := [] })),
           srcs := s.srcs.map (fun (n, (x : Src)) =>
             if 257 ≤ n % 4096 ∧ n % 4096 ≤ 383 then (n, { x with state := if x.state = .active then .idle else x.state })
             else (n, { x with held := 0, timer := none, mark := false, cut := false, recs := [], state := .idle })) }

/-- The character in flight at the release goes again, and the job stands before it (R261). -/
def Sending.cutBack (sd : Sending) (now : Stamp) : Sending :=
  let job := match sd.job with | .desc d => TxJob.desc { d with data := none } | j => j
  { sd with job := job, used := if sd.flight.isSome then sd.usedBefore else sd.used, flight := none, seen := none,
            first := if sd.sent = 0 then none else sd.first, observed := if sd.sent = 0 then none else sd.observed,
            lastEnd := now }

/-- The transmitter of a port resumes from what its pin showed (R261): a character seen whole before the release is sent, one cut
is sent again, a flow character too. -/
def State.resumeTx (s : State) (p : Nat) : State :=
  let x := s.port p
  let x := if x.seenEnd.any (fun e => sLe e s.hinge.tkStamp) then x.seenWhole else x
  let s := if x.seenEnd.isSome then s.incSat Reg.HG_TKINFO_CUT else s
  let again := (x.flowFlight.map (·.xoff)).toList
  let s := s.setPort p
    { x with flowDue := again ++ x.flowDue, flowFlight := none, ahead := none, launchAt := none, launchOk := false,
             sending := x.sending.map (fun sd => sd.cutBack s.hinge.tkStamp),
             tx := if x.tx = .off ∨ x.tx = .starved ∨ x.tx = .held then x.tx else .idle }
  s.finishJob p

/-- Records of a ring in the order of their slots, from the last commit point on: those whose slot is known stand in it, the others
fill the slots between in writing order (R174, R195, R263). -/
def inSlots : Nat → Word → List Rec → List Rec → List Rec
  | 0, _, _, _ => []
  | fuel + 1, c, fixed, rest =>
    match fixed.find? (fun r => r.slot == some c), rest with
    | some r, _ => r :: inSlots fuel (c + 1) (fixed.filter (fun x => x.uid != r.uid)) rest
    | none, r :: t => r :: inSlots fuel (c + 1) fixed t
    | none, [] =>
      match fixed with
      | r :: t => r :: inSlots fuel (c + 1) t []
      | [] => []

/-- The records that a shadow holds of a ring, in the order of their slots: of those whose slot it does not know, the ones that
`p` picks. -/
def State.slotOrder (s : State) (n : Nat) (p : Rec → Bool) : List Rec :=
  let mine := s.staging.filter (fun r => r.ring == n && r.held)
  let fixed := mine.filter (fun r => r.slot.isSome)
  let rest := (mine.filter (fun r => r.slot.isNone && p r)).foldl (fun l r => insertRec r l) []
  inSlots mine.length (BitVec.ofNat 32 (s.rd Reg.RG_DEV n)) fixed rest

/-- A record of the primary is in its slot (R174, R182): its ring has issued it, and it is to be written again. -/
def State.issueAgain (n : Nat) (s : State) (r : Rec) : State :=
  let x := s.ring n
  let seq := if r.slot.isSome then r.seq else x.seqFor r
  let r' : Rec := { r with slot := some x.issued, seq := seq, rewrite := true, held := false, isOpen := false, eligible := true }
  let x := if r.slot.isSome then x else x.tally r
  let s := s.setRing n { x with issued := x.issued + 1 }
  { s with staging := s.staging.map (fun y => if y.uid = r.uid then r' else y) }

/-- The records of a ring that the primary may have written are to be written again, from the last commit point, in their slots
(R263): those the horizon has passed. -/
def State.rewriteFrom (s : State) (n : Nat) : State :=
  if s.rd Reg.RG_CFG_KIND n = 0 then s else
  let h := s.hp n
  let l := s.slotOrder n (fun r => r.eligible || sLe r.base h)
  l.foldl (State.issueAgain n) (s.modRing n (fun r => { r with issued := BitVec.ofNat 32 (s.rd Reg.RG_DEV n) }))

/-- After an engaged takeover (R261 to R263): transmitters, records from the last commit point, the flush read behind them, the
event, ring sources. -/
def State.takeEngaged (s : State) : State :=
  let s := (s.ports.map (·.1)).foldl State.resumeTx s
  let s := (s.rings.map (·.1)).foldl State.rewriteFrom s
  let s : State := { s with staging := s.staging.map (fun r => { r with held := false }), flushDue := true,
                            hinge := { s.hinge with flushFirst := true } }
  let s := (s.hinge.segs.filter (fun x => x.2 != 0)).foldl (fun s (q, k) =>
    (s.captureRecord s.hinge.tkStamp q 1 3 0 0 0xFFFF 0 0 0 0 k 0).2) s
  let s : State := { s with hinge := { s.hinge with segs := [] } }
  let detail := s.rd Reg.HG_TKINFO_CAUSE + s.rd Reg.HG_TKINFO_CUT * 65536
  let s := s.raiseEvent 275 detail
  let head := s.almanac.saved.map (fun h => (h.index - 1, h.hash))
  let s : State := { s with almanac := { s.almanac with saved := none, cutAsked := head.isSome || s.almanac.cutAsked } }
  let s := match head with | some (i, h) => s.pairEntry 1 i h | none => s
  (s.rings.map (·.1)).foldl (fun s n =>
    if s.rd Reg.RG_CFG_KIND n ≠ 0 ∧ (s.ring n).issued ≠ (s.ring n).host then s.srcEvent (n + 1) s.stamp else s) s

/-- The receive entries that a record the shadow holds was built of (R264). -/
def Rec.entries (r : Rec) : List Entry :=
  match r.body with
  | .chars compact cf cs =>
    cs.mapIdx (fun i c =>
      let k : EntryKind := .chr { stamp := c.stamp, t0 := c.stamp, centre := c.stamp, data := c.data } r.partner r.ring
        (r.seq + BitVec.ofNat 32 i) cf compact
      ⟨r.events.getD i r.uid, k, [r.partner], c.stamp, r.since, 8, r.order, false, 0⟩)
  | .raw b =>
    [⟨r.events.headD r.uid, .port r.type (r.partner == 3) [(r.ring, r.partner, r.seq, b)], [r.partner], r.base, r.since, 64, r.order,
      false, 0⟩]

/-- A record built of receive entries: no record of the transmitter, of an interval or of the event part (R264). -/
def Rec.received (r : Rec) : Bool :=
  r.held && !r.prov && r.described && r.type != .txdone && r.type != .txecho && r.type != .txdesc

/-- Receive entries that the shadow had built into records wait in port receive space again (R264; DEDUCED, log entry 107). -/
def State.unbuildHeld (s : State) : State :=
  let l := s.staging.filter Rec.received
  let s := l.foldl (fun s r => s.modPort r.port (fun x =>
    { x with entries := x.entries.filter (fun e => decide (e.order < r.order)) ++ r.entries ++
                        x.entries.filter (fun e => !decide (e.order < r.order)) })) s
  { s with staging := (s.staging.filter (fun r => !r.received && !r.prov)).map (fun r =>
      { r with held := false, slot := none, rewrite := false }) }

/-- A takeover from ENGAGING or DEGRADED (R264, R267): rings in FAULT and mute, transmitters empty, and the event of source 275. The
own Almanac chain goes on without a PAIR entry (DEDUCED, log entry 115). -/
def State.takeDegraded (s : State) : State :=
  let fault : Ring → Ring := fun r => if r.state = .off then r else { r with state := .fault, mute := true }
  let empty : Port → Port := fun x =>
    { x with queue := [], sending := none, flowFlight := none, ahead := none, replies := [], flowDue := [], launchAt := none,
             launchOk := false, tx := if x.tx = .off ∨ x.tx = .starved ∨ x.tx = .held then x.tx else .idle }
  let s : State := { s with rings := s.rings.map (fun (n, r) => (n, fault r)), ports := s.ports.map (fun (p, x) => (p, empty x)),
                            hinge := { s.hinge with tkdeg := true, alImage := none } }
  let s := s.unbuildHeld.settle
  let s : State := { s with almanac := s.almanac.restore }
  s.raiseEvent 275 (s.rd Reg.HG_TKINFO_CAUSE + 4 + s.rd Reg.HG_TKINFO_CUT * 65536)

/-- The takeover (R258) at the edge at which HG_RELI qualifies, which is the present one; `n` and `t` are the edge and stamp of its
first released sample. Decisions of the primary that the shadow holds act first, then its own (R262). -/
def State.takeover (s : State) (n : Nat) (t : Stamp) : State :=
  let was := s.hinge.state
  let deliberate := s.hinge.noticeAt.any (fun m => decide (m ≤ s.now ∧ s.now ≤ m + 1600))
  let ports := s.ports.map (·.1)
  let s := ports.foldl State.decideLater s
  let s : State := { s with hinge := { s.hinge with state := .taken, tkFrom := n, tkStamp := t, attnTk := true, tkdeg := false },
                            tb := { s.tb with pairFrozen := true },
                            pins := s.pins.map (fun (q, (x : Pin)) =>
                              if x.pad = .keep then (q, { x with driven := x.level.or x.driven }) else (q, x)) }
  let s := s.pairEnds
  let s := (s.setReg 0 0x18F 0).wr Reg.HG_TKINFO_CAUSE (if deliberate then 2 else 1)
  let s := (s.wr Reg.HG_STAT_EV_TK 1).takeCarillon
  let s := ports.foldl State.decideRest s
  if was = .engaged then s.takeEngaged else s.takeDegraded

/-! ### Register checks, effects and views -/

/-- Values the HG_ registers accept (R266). -/
def hgValue (w : Nat) (d : Word) : Bool :=
  match w with
  | 0x180 =>
    Reg.HG_CFG_ROLE.get d != 3 && decide (6 ≤ Reg.HG_CFG_HBTO.get d) &&
    decide (2 ≤ Reg.HG_CFG_WDOG.get d ∧ Reg.HG_CFG_WDOG.get d ≤ 251) &&
    decide (Reg.HG_CFG_WDOG.get d + 4 ≤ Reg.HG_CFG_HBTO.get d)
  | _ => true

/-- The pair state the role in force gives: a role of the same burst has moved SOLO or DISENGAGED (R240, R321). -/
def State.pairNow (s : State) : PairState :=
  match s.hinge.state with
  | .solo => if s.rd Reg.HG_CFG_ROLE = 0 then .solo else .disengaged
  | .disengaged => if s.rd Reg.HG_CFG_ROLE = 0 then .solo else .disengaged
  | x => x

/-- Writes the state refuses (R240, R251, R266). -/
def hgState (s : State) (w : Nat) (d : Word) : Bool :=
  match w with
  | 0x180 =>
    Reg.HG_CFG_ROLE.get d == s.rd Reg.HG_CFG_ROLE || s.hinge.state == .solo || s.hinge.state == .disengaged
  | 0x181 =>
    (Reg.HG_CTL_ENGAGE.get d == 0 || (s.pairNow == .disengaged && s.isPrimary)) &&
    (Reg.HG_CTL_RELEASE.get d == 0 || (s.isPrimary && s.hinge.state.paired))
  | _ => true

/-- A role written (R240, R241, R255): SOLO ignores the lanes; a member that may no longer drive turns its drivers off. -/
def hgApply (s : State) (w : Nat) (old : Word) : State :=
  if w = 0x180 ∧ Reg.HG_CFG_ROLE.get old ≠ s.rd Reg.HG_CFG_ROLE then
    let s := if s.rd Reg.HG_CFG_ROLE = 2 then s else s.clearOffset
    if s.rd Reg.HG_CFG_ROLE = 0 then
      ({ s.setPair .solo with hinge := { s.hinge with state := .solo, up := false, retrainAt := none } } : State).noteEligible
    else (s.setPair .disengaged).noteEligible
  else s

/-- RELEASE, DISENGAGE and ENGAGE (R251, R253, R257), in the order RELEASE, DISENGAGE, ENGAGE (DESIGN CHOICE, log entry 12).
The drivers turn off 64 DCLK after the notice (R242). -/
def hgAct (s : State) (w : Nat) (d : Word) : State :=
  if w ≠ 0x181 then s else
  let s := if Reg.HG_CTL_RELEASE.get d = 1 then
      let s := s.emit (.hinge .notice)
      (s.advance (s.now + 64)).release
    else s
  let s := if Reg.HG_CTL_DISENGAGE.get d = 1 then s.disengage else s
  if Reg.HG_CTL_ENGAGE.get d = 1 then s.engage else s

/-- HG_STAT_EV_TK cleared ends CA_ATTN_TK (R280). -/
def State.hgCleared (s : State) : State :=
  if s.on Reg.HG_STAT_EV_TK then s else { s with hinge := { s.hinge with attnTk := false } }

/-- The views of the HG_ block. -/
def hgView (s : State) (w : Nat) (v : Word) : Word :=
  let h := s.hinge
  match w with
  | 0x182 =>
    let v := Reg.HG_STAT_TKDEG.set v h.tkdeg.toNat
    let v := Reg.HG_STAT_BLOCKED.set v (h.blocked && s.eligible).toNat
    let v := Reg.HG_STAT_DRIVE.set v h.claim.toNat
    let v := Reg.HG_STAT_RELO.set v h.relo.toNat
    let v := Reg.HG_STAT_RELI.set v h.reli.toNat
    let v := Reg.HG_STAT_LINK.set v h.up.toNat
    let v := Reg.HG_STAT_STRAP.set v s.strap.code
    Reg.HG_STAT_STATE.set v h.state.code
  | 0x188 => h.disStamp.truncate 32
  | 0x189 => h.disHold
  | 0x18B => match h.peer.pos with
    | some p => Reg.HG_PEER_POS.set (Reg.HG_PEER_V.set v 1) p.toNat
    | none => v
  | 0x18C => (h.peer.tofs.truncate 16 : BitVec 16).zeroExtend 32
  | 0x18D => h.tkStamp.truncate 32
  | 0x18E => h.tkHold
  | _ => v

/-! ### The commands: the link -/

/-- The Hinge works: DCLK, its domain in RUN, and a role. -/
def State.hingeOn (s : State) : Bool := s.running && s.power.hinge == .run && s.rd Reg.HG_CFG_ROLE != 0

/-- HEARTBEAT_SEND (R239, R242): every 1,600 DCLK. -/
def execHeartbeatSend (s : State) : Host.Outcome State Fault Refusal :=
  if s.hingeOn && s.hinge.up then
    let s := s.advance (s.hinge.lastSent + 1600)
    let s : State := { s with hinge := { s.hinge with lastSent := s.now } }
    .next (s.emit (.hinge (.heartbeat s.hinge.state s.role s.c (s.on Reg.TB_STAT_EPOCH_VALID) s.anyEnabled
      (if s.chain.assigned then some s.chain.pos else none))))
  else .next s

/-- HEARTBEAT_RECV (R239, R253): `c` is the peer's C at this edge, the fixed latency corrected. A peer that has left the pair
since its last heartbeat, with the Hinge up, takes this member along (DEDUCED, log entry 38). -/
def execHeartbeatRecv (state : PairState) (role : Role) (c : Stamp) (epoch busy : Bool) (pos : Option (BitVec 6))
    (s : State) : Host.Outcome State Fault Refusal :=
  if s.hingeOn && s.hinge.up then
    let was := s.hinge.peer.state
    let s : State := { s with hinge := { s.hinge with lastRecv := s.now,
                                                      peer := ⟨state, role, epoch, busy, pos, c - s.c⟩ } }
    .next (if state = .disengaged ∧ was ≠ .disengaged ∧ was ≠ .solo ∧
              (s.hinge.state = .engaged ∨ s.hinge.state = .degraded ∨ s.hinge.state = .released) then s.disengage else s)
  else .next s

/-- HEARTBEAT_TIMEOUT (R239): HG_CFG_HBTO µs after the last heartbeat, in a retraining too. -/
def execHeartbeatTimeout (s : State) : Host.Outcome State Fault Refusal :=
  if s.hingeOn && (s.hinge.up || s.hinge.retrainAt.isSome) then .next (s.advance (s.hinge.lastRecv + 1600 * s.rd Reg.HG_CFG_HBTO)).hingeDown
  else .next s

/-- HINGE_RETRAINING (R238): a lane loses training; which of the eight lanes stay trained is open (log entry 3). -/
def execHingeRetraining (s : State) : Host.Outcome State Fault Refusal :=
  if s.hingeOn && s.hinge.up then
    let (v, s) := s.takeFree
    let s := (s.incSat Reg.HG_LINK_RETRAIN).wr Reg.HG_LINK_LANES (v.toNat % 256)
    .next { s with hinge := { s.hinge with up := false, retrainAt := some s.now } }
  else .next s

/-- HINGE_RETRAIN_TIMEOUT (R239): 3,200 DCLK after the retraining began. -/
def execHingeRetrainTimeout (s : State) : Host.Outcome State Fault Refusal :=
  if !s.running then .next s else
  match s.hinge.retrainAt with
  | some n =>
    let s := s.advance (n + 3200)
    .next ({ s with hinge := { s.hinge with retrainAt := none } } : State).hingeDown
  | none => .next s

/-- HINGE_UP (R238): all eight lanes are trained. Heartbeats missed in a retraining still count (R239). -/
def execHingeUp (s : State) : Host.Outcome State Fault Refusal :=
  if s.hingeOn && !s.hinge.up then
    let s : State := { s with hinge := { s.hinge with
      up := true, retrainAt := none, lastRecv := if s.hinge.retrainAt.isSome then s.hinge.lastRecv else s.now } }
    .next (s.wr Reg.HG_LINK_LANES 0xFF)
  else .next s

/-! ### The commands: engagement -/

/-- ENGAGE_REQUEST_RECV (R241, R252): a DISENGAGED shadow takes the image. -/
def execEngageRequestRecv (image : Image) (s : State) : Host.Outcome State Fault Refusal :=
  if s.hingeOn && s.hinge.up && s.isShadow && s.hinge.state == .disengaged then
    let s : State := { s with hinge := { s.hinge with state := .engaging, engagedAt := s.now } }
    .next (s.adopt image)
  else .next s

/-- ENGAGE_COMPLETE (R241, R448, R449, R457): every part of the image is acknowledged; the digest of SOURCE 3 begins. -/
def execEngageComplete (s : State) : Host.Outcome State Fault Refusal :=
  if s.hinge.state = .engaging ∧ s.running then
    let s := ((s.setPair .engaged).wr Reg.HG_STAT_ENGFAIL 0).raiseEvent 278 0
    let s : State := { s with boot := { s.boot with digest := some (3, s.regs) } }
    .next (if s.isShadow then s.suspendAlmanac else s)
  else .next s

/-- ENGAGE_TIMEOUT (R241): 3.2 * 10^9 DCLK in ENGAGING. -/
def execEngageTimeout (s : State) : Host.Outcome State Fault Refusal :=
  if s.hinge.state = .engaging ∧ s.running then
    .next ((s.advance (s.hinge.engagedAt + 3200000000)).abandonEngage 5)
  else .next s

/-- WATCHDOG_EXPIRE (R257): the core has not refreshed the watchdog for HG_CFG_WDOG µs. -/
def execWatchdogExpire (s : State) : Host.Outcome State Fault Refusal := .next s.release

/-! ### The commands: what crosses the Hinge -/

/-- DECISION_BLOCK_CLOSE (R243): at 16 entries, else 2,048 DCLK after the first. -/
def execDecisionBlockClose (p : PortIx) (s : State) : Host.Outcome State Fault Refusal :=
  if !s.running || !s.mirrors then .next s else
  match (s.port p.val).block with
  | [] => .next s
  | first :: rest =>
    let s := if 15 ≤ rest.length then s else s.advance (first.1 + 2048)
    let b := ((first :: rest).take 16).map (·.2)
    let s := s.modPort p.val (fun x =>
      { x with block := x.block.drop 16, blockNo := x.blockNo + 1, sent := x.sent ++ [b] })
    .next (s.emit (.hinge (.block p.val (b.map (·.stamps)) (blockCrc b))))

/-- A shadow that follows its primary, with its engines running (R19). -/
def State.follows (s : State) : Bool :=
  s.running && s.isShadow && (s.hinge.state == .engaged || s.hinge.state == .engaging)

/-- DECISION_BLOCK_RECV (R243, R245): the shadow rebuilds the primary's entries from its own and the stamp codes; when they agree it
confirms them, else it asks for the primary's. -/
def execDecisionBlockRecv (p : PortIx) (codes : List (List Stamp)) (crc : BitVec 32) (s : State) :
    Host.Outcome State Fault Refusal :=
  .next (if s.follows then s.takeBlock p.val codes crc else s)

/-- FULL_RECORD_RECV (R245, R252, R374, R457): a record in full, which the shadow holds and acknowledges; or the entries of a block
that disagreed, and behind them the receive state of its port. -/
def execFullRecordRecv (r : Full) (s : State) : Host.Outcome State Fault Refusal :=
  if !s.follows then .next s else
  match r with
  | .record r =>
    let s := ((s.holdRecord r).followEntry r).followCapture r
    .next (s.emit (.hinge (.answer (.mark r.uid r.body.count))))
  | .entries p l =>
    if (s.port p.val).transfer = 0 then .next s else
    let s := l.foldl (State.adoptEntry p.val) s
    .next { s with hinge := { s.hinge with disStamp := ((l.head?.map (·.stamps)).getD []).headD s.hinge.disStamp } }
  | .port p y => .next (if (s.port p.val).transfer = 0 then s else s.adoptPort p.val y)

/-- The oldest decision block of a port that is not acknowledged crosses again: its entries, then the receive state (R245). -/
def State.sendTransfer (s : State) (p : Fin 2048) : State :=
  match (s.port p.val).sent with
  | b :: _ => (s.emit (.hinge (.full (.entries p b)))).emit (.hinge (.full (.port p (s.port p.val))))
  | [] => s

/-- BLOCK_ACK_RECV (R245, R246): the shadow holds a block or a record, and what waited only for that is no longer held; or it asks
for what it lacks. Any frame with a CRC error counts and brings nothing (R266; DESIGN CHOICE, log entry 105). -/
def execBlockAckRecv (a : Answer) (s : State) : Host.Outcome State Fault Refusal :=
  match a with
  | .spoiled => .next (if s.hingeOn && s.hinge.up then s.incSat Reg.HG_LINK_CRCERR else s)
  | .block p =>
    .next (if s.running && s.mirrors && !(s.port p.val).sent.isEmpty then
      s.modPort p.val (fun x => { x with blockAck := x.blockAck + 1, sent := x.sent.drop 1 }) else s)
  | .mark u k =>
    .next (if s.running && s.mirrors then
      { s with staging := s.staging.map (fun r => if r.uid = u ∧ r.body.count = k then { r with marked := false } else r) } else s)
  | .request p => .next (if s.running && s.mirrors then s.sendTransfer p else s)
  | .record u =>
    .next (if s.running && s.mirrors then
      (match s.staging.find? (fun r => r.uid == u) with
       | some r => s.emit (.hinge (.full (.record r)))
       | none => s) else s)

/-- RECORD_MARK_RECV (R242, R246, R263): the shadow builds the record the mark names, `r`, from the entries it holds; CAPTURE
and ALMANAC records it asks for in full. -/
def execRecordMarkRecv (n : RingIx) (r : Rec) (s : State) : Host.Outcome State Fault Refusal :=
  if !s.follows then .next s
  else if r.wantsFull then .next (s.emit (.hinge (.answer (.record r.uid))))
  else .next ((s.holdRecord { r with ring := n.val }).emit (.hinge (.answer (.mark r.uid r.body.count))))

/-- HINGE_DOORBELL_RECV (R242). -/
def execHingeDoorbellRecv (n : RingIx) (value : Word) (s : State) : Host.Outcome State Fault Refusal :=
  .next (if s.follows then s.takeDoorbell n.val value else s)

/-- HINGE_DESCRIPTOR_RECV (R242, R261): the shadow queues the descriptor; its data it fetches only after a takeover. -/
def execHingeDescriptorRecv (d : Desc) (s : State) : Host.Outcome State Fault Refusal :=
  .next (if s.follows then
    let s := s.modRing d.ring (fun r => { r with issued := d.num + 1 })
    (s.wr Reg.RG_DEV (d.num.toNat + 1) d.ring).modPort d.port (fun x => { x with queue := x.queue ++ [{ d with data := none }] })
  else s)

/-- The primary's DCLK edge of an event, by its stamp. -/
def State.peerEdge (s : State) (t : Stamp) : Nat := s.edgeOf (t + s.pairOfs)

/-- What reached the core of a port behind edge `n` is read again (R248). -/
def State.rewindRx (s : State) (p n : Nat) : State :=
  s.modPin (rxPin p) (fun q =>
    { q with fresh := max q.fresh (q.recorder.filter (fun e => decide (n < e.edge + 16))).length })

/-- The primary's win (R125, R248): the shadow's characters of that lane wait for their blocks behind the settlement, those whose
check lies behind the win as tracked ones; the tracker is seeded with the primary's period. -/
def State.peerWin (s : State) (p lane period : Nat) (stamp base : Stamp) (first : Word) (agreed : Nat) : State :=
  let x := s.port p
  let a := x.acq.getD {}
  let w := a.lanes.getD lane {}
  let n := s.peerEdge stamp
  let won := fun (c : Chr) => decide (s.edgeOf (s.toSampler (rxPin p) c.centre) + 16 ≤ n)
  let kept := (s.sortAll p period x.sel x.lastFrameEnd (w.done.filter won)).filter (fun y => !y.2.removed)
  let y : Settlement := { lane := lane, period := period, stamp := stamp, base := base, first := first, agreed := agreed,
                          shown := a.shown, behind := (kept.drop agreed).map (·.2.into) }
  let s := (s.dropProv p).noteOwn p (.win y)
  let s := w.done.foldl (fun s c => s.noteOwn p (.chr c x.set period (won c))) s
  (s.modPort p (fun x => x.track lane period w)).settleOwn p

/-- The primary's acquisition has ended without a win (R125, R248): the shown list settles in its turn, and the shadow acquires
anew from the primary's edge, or is EDGE_ONLY (R118). -/
def State.peerEnded (s : State) (p reason : Nat) (base stamp : Stamp) : State :=
  let x := s.port p
  let shown := match x.acq with | some a => a.shown | none => x.ending
  let s := ((s.dropProv p).modPort p (fun x => { x with ending := [] })).noteOwn p (.ended reason base stamp shown)
  let n := s.peerEdge stamp
  let s :=
    if reason = 3 then s.goEdgeOnly p
    else if x.acq.isSome then (s.modPort p (Port.inside (fun x => x.restart n))).rewindRx p n
    else s
  s.settleOwn p

/-- The primary's receive boundary (R224, R248): the settings change as of its edge and stamp; the PROFILE record, and what the
change clears, come in their turn. -/
def State.peerBoundary (s : State) (p : Nat) (stamp : Stamp) : State :=
  let new := s.portPalette p
  let old := (s.port p).set
  let n := s.peerEdge stamp
  let s := s.modPort p (Port.inside (fun x => x.switchSet new false n stamp))
  let s := if (s.port p).acq.isSome then s.rewindRx p n else s
  ((s.noteOwn p (.profile new (new.addrMode != old.addrMode) stamp)).settleOwn p).flowChanged p new old

/-- HINGE_EVENT_RECV (R125, R224, R248): a win, an ending or a palette boundary of the primary, applied at its stamp. -/
def execHingeEventRecv (p : PortIx) (e : PeerEvent) (s : State) : Host.Outcome State Fault Refusal :=
  if !s.follows then .next s else
  match e with
  | .win lane stamp period base first agreed => .next (s.peerWin p.val lane period stamp base first agreed)
  | .ended reason base stamp => .next (s.peerEnded p.val reason base stamp)
  | .boundary false stamp => .next (s.peerBoundary p.val stamp)
  | .boundary true _ => .next (s.txSwitch p.val)

/-- HINGE_PROV_RECV (R125, R126): the PROV record with its slot, the serial counter and the shown list, as provisional state. -/
def execHingeProvRecv (p : PortIx) (r : Rec) (serial : Word) (shown : List Shown) (s : State) :
    Host.Outcome State Fault Refusal :=
  if !s.follows then .next s else
  let (u, s) := s.fresh
  let s := s.modPort p.val (fun x =>
    { x with serial := serial, acq := x.acq.map (fun a =>
        { a with shown := shown, lastOffer := (shown.getLast?.map (·.chr.t0)).or a.lastOffer }) })
  let r : Rec := { r with uid := u, marked := false, blocks := 0, held := true, events := [] }
  .next (State.noteStaging { s with staging := s.staging ++ [r] })

/-- COMMIT_POINT_RECV (R242, R248): the primary's committed count of a ring; the records before it are committed. -/
def execCommitPointRecv (n : RingIx) (count : Word) (s : State) : Host.Outcome State Fault Refusal :=
  if !s.follows then .next s else
  let gone := (s.slotOrder n.val (fun _ => true)).take (count - s.reg n.val 0x509).toNat
  let s := gone.foldl (fun s r => if r.slot.isSome then s else s.modRing n.val (fun x => x.tally r)) s
  let s := s.incWrap Reg.RG_WRITTEN n.val (gone.filter (·.prov)).length
  let s := s.setReg n.val 0x509 count
  .next (s.unstage (fun r => gone.any (fun x => x.uid == r.uid))).commitEntries

/-- ARM_STATE_RECV (R248, R374): the shadow's monitor follows the primary's; an admitted capture occupies a segment there. -/
def execArmStateRecv (q : PinIx) (m : Monitor) (s : State) : Host.Outcome State Fault Refusal :=
  if !s.follows then .next s else
  let s := s.setMon q.val m
  .next (if m.state = .capture then
    { s with hinge := { s.hinge with
        segs := Sparse.put (fun _ => 0) s.hinge.segs q.val (Sparse.get (fun _ => 0) s.hinge.segs q.val + 1) } }
  else s)

/-- Bits of a word that show committed events only (R216). -/
def gatedMask (w : Nat) : Word :=
  if (0x407 ≤ w ∧ w ≤ 0x413) ∨ w = 0x417 ∨ w = 0x418 ∨ w = 0x41B ∨ w = 0x41F ∨ w = 0x426 ∨ w = 0x902 ∨ w = 0x509 ∨ w = 0x50C ∨
     w = 0x50D ∨ w = 0x70F ∨ (0x1C3 ≤ w ∧ w ≤ 0x1C5) ∨ (0x1C8 ≤ w ∧ w ≤ 0x1CF) ∨ baseWord w = Reg.CQ_RCNT.word then
    (wordFields w).foldl (fun a f => a ||| f.mask) 0
  else if w = 0x507 then Reg.RG_STAT_BREACH.mask ||| Reg.RG_STAT_GAP.mask
  else if w = 0x50B then Reg.RG_ERR_BREACH.mask
  else if w = 0x710 then Reg.LM_CNT_DECL.mask
  else 0

/-- FRESCO_VALUES_RECV (R226): the primary's commit-gated values take the place of the shadow's own, and FR_VALID follows. -/
def execFrescoValuesRecv (values : Sparse Word) (s : State) : Host.Outcome State Fault Refusal :=
  if s.running && s.tb.frWaits then
    let rest := (s.tb.snap.map (fun (k, v) => (k, v &&& ~~~ gatedMask (k % 4096)))).filter (fun x => x.2 != 0)
    let snap := values.foldl (fun m (k, v) =>
      Sparse.put (fun _ => 0) m k (Sparse.get (fun _ => 0) m k ||| (v &&& gatedMask (k % 4096)))) rest
    .next (({ s with tb := { s.tb with snap := snap, frWaits := false } } : State).wr Reg.TB_STAT_FR_VALID 1)
  else .next s

/-- RELEASE_NOTICE_RECV (R242, R258). -/
def execReleaseNoticeRecv (s : State) : Host.Outcome State Fault Refusal :=
  .next (if s.follows || (s.running && s.hinge.state == .degraded) then { s with hinge := { s.hinge with noticeAt := some s.now } } else s)

/-! ### The commands: the release line -/

/-- RELO_RELEASE (R256): 64 DCLK after the drivers turned off. -/
def execReloRelease (s : State) : Host.Outcome State Fault Refusal :=
  match s.hinge.offAt with
  | some n =>
    let s := s.advance (n + 64)
    .next { s with hinge := { s.hinge with relo := false, offAt := none } }
  | none => .next s

/-- RELI_RELEASED (R255): the first released sample of HG_RELI, or of an eligible member that now seeks. -/
def execReliReleased (s : State) : Host.Outcome State Fault Refusal :=
  if !s.clocked then .next s
  else .next { s with hinge := { s.hinge with reli := true,
                                              firstRel := if s.hinge.claim then s.hinge.firstRel
                                                          else s.hinge.firstRel.or (some (s.now, s.stamp)) } }

/-- A shadow that R241 lets take over. -/
def State.mayTake (s : State) : Bool :=
  s.isShadow && (s.hinge.state == .engaged ||
    (s.on Reg.HG_CFG_TKDEG && (s.hinge.state == .engaging || s.hinge.state == .degraded)))

/-- CLAIM_QUALIFY (R255, R258): 64 DCLK of released; the member drives HG_RELO to hold, and a shadow takes over. Seeking
begins at V (R425). -/
def execClaimQualify (s : State) : Host.Outcome State Fault Refusal :=
  let h := s.hinge
  match h.firstRel with
  | none => .next s
  | some (n, t) =>
    if !s.pastV || !h.reli || h.relo || h.claim || h.blocked || !(s.eligible || s.mayTake) then .next s else
    let s := s.advance (n + 64)
    let take := s.mayTake
    let s : State := { s with hinge := { s.hinge with relo := true } }
    .next (if take then s.takeover n t else s)

/-- CLAIM_HELD (R255): released still at 192 DCLK. -/
def execClaimHeld (s : State) : Host.Outcome State Fault Refusal :=
  if !s.running then .next s else
  let h := s.hinge
  match h.firstRel with
  | none => .next s
  | some (n, _) =>
    if h.reli && h.relo && !h.claim && s.eligible && h.offAt.isNone then
      let s := s.advance (n + 192)
      .next { s with hinge := { s.hinge with claim := true, drivers := 0 } }
    else .next s

/-- OCTANT_DRIVER_ENABLE (R255, R259, R260, R261): octant o at 192 + 64 o DCLK; after a takeover the last one gives
HG_TKINFO_LAT, and every transmit pin of the octant waits (F_b + 1) P_tx of mark. -/
def execOctantDriverEnable (o : Fin 8) (s : State) : Host.Outcome State Fault Refusal :=
  if !s.running then .next s else
  match s.hinge.firstRel with
  | none => .next s
  | some (n, _) =>
    if !s.hinge.claim || s.hinge.drivers != o.val then .next s else
    let s := (s.advance (n + 192 + 64 * o.val)).enableDrivers o.val
    if s.hinge.state != .taken then .next s else
    let s := if o.val = 7 then s.wr Reg.HG_TKINFO_LAT (min (s.now - s.hinge.tkFrom) 0x3FFF) else s
    let ports := (s.ports.map (·.1)).filter (fun p => octOfPort p == o.val)
    .next (ports.foldl (fun s p =>
      let x := s.port p
      if x.tx = .off ∨ x.tx = .starved then s else
      let w := s.ballStamp (txPin p) + halfBits (s.bitPeriod p) (x.txSet.frame2 + 2)
      (s.modPort p (fun x => { x with waitUntil := some w, markFrom := s.now })).checkHead p) s)

/-- CLAIM_BLOCKED (R255): HG_RELI reads hold. A member that was seeking its claim releases HG_RELO and is blocked; for any
other it is the reading alone (log entry 39). -/
def execClaimBlocked (s : State) : Host.Outcome State Fault Refusal :=
  if !s.clocked then .next s else
  let h := s.hinge
  let seeking := s.pastV && h.firstRel.isSome && !h.claim && s.eligible
  let s : State := { s with hinge := { h with reli := false, firstRel := if h.claim then h.firstRel else none } }
  if seeking then
    let s : State := { s with hinge := { s.hinge with relo := false, blocked := true } }
    .next ((s.wr Reg.HG_STAT_EV_BLOCK 1).raiseEvent 279 s.chain.pos.toNat)
  else .next s

/-- CLAIM_RETRY (R255): HG_RELI has read released for 1,600 + 128 p DCLK. -/
def execClaimRetry (s : State) : Host.Outcome State Fault Refusal :=
  if !s.running then .next s else
  match s.hinge.firstRel with
  | some (n, _) =>
    if !s.hinge.blocked || !s.hinge.reli then .next s else
    let s := s.advance (n + 1600 + 128 * s.chain.pos.toNat)
    .next { s with hinge := { s.hinge with blocked := false, firstRel := some (s.now, s.stamp) } }
  | none => .next s

/-- VST_P_FALL (R254, R465): the station drivers stop, and the monitor of their supply stops HG_RELO holding. -/
def execVstPFall (s : State) : Host.Outcome State Fault Refusal :=
  let s := s.driversOff
  .next { s with hinge := { s.hinge with relo := false, offAt := none, firstRel := none },
                 pins := s.pins.map (fun (q, (x : Pin)) => if x.pad = .hold then (q, { x with pad := .keep }) else (q, x)) }

end Sys2Proof.Machine
end

