-- ==== Sys2Proof/Machine/Boot.lean ====
section
/-!
DEFINITION. From power to Vernissage (01_architecture.md R13, R14, R19, R33; 15_boot.md R412 to R428): Gesso, the Iatil load up
to the end of its checks of the header, digest and signature, Vernissage, the die and clock status, the checks and effects of
the GL_ registers, and the commands that are its own events. The body of an image is checked and applied with the chain.
-/
namespace Sys2Proof.Machine

/-! ### Dies and clock (R13, R14, R19) -/

/-- Ports and pins of an octant that hold any state. -/
def State.octPorts (s : State) (o : Nat) : List Nat := (s.ports.map (·.1)).filter (fun p => octOfPort p == o)

/-- The receive, transmit and monitor functions of an octant stop (R13): queued descriptors complete DISABLED (DEDUCED, log
entry 43). -/
def State.stopOct (s : State) (o : Nat) : State :=
  let s := (s.octPorts o).foldl (fun s p => ((s.stopRx p .off).stopTx p 5 .off)) s
  s.cutCaptures (fun q => octOfPin q == o)

/-- The link of SIO die d fails (R13, R387). -/
def State.sioFails (s : State) (d : Nat) : State :=
  let s := [2 * d, 2 * d + 1].foldl (fun s o =>
    (((s.holdOct o).stopOct o).safeUnits o).modOct o (fun x => { x with failed := true })) s
  let s := s.wr Reg.GL_DIESTAT_SIO_OK (s.rd Reg.GL_DIESTAT_SIO_OK &&& (15 - 2 ^ d))
  let s := s.wr Reg.GL_DIESTAT_SIO_FAULT (s.rd Reg.GL_DIESTAT_SIO_FAULT ||| 2 ^ d)
  s.raiseLevel (260 + d) true d

/-- HBM3 stack h fails (R14). -/
def State.hbmFails (s : State) (h : Nat) : State :=
  let s := s.wr Reg.GL_DIESTAT_HBM_OK (s.rd Reg.GL_DIESTAT_HBM_OK &&& (3 - 2 ^ h))
  let s := s.wr Reg.GL_DIESTAT_HBM_FAULT (s.rd Reg.GL_DIESTAT_HBM_FAULT ||| 2 ^ h)
  s.raiseLevel (264 + h) true h

/-- Sources 260 to 265 follow the bits of GL_DIESTAT (R270). -/
def State.dieSources (s : State) : State :=
  let s := (List.range 4).foldl (fun s d => s.raiseLevel (260 + d) ((s.rd Reg.GL_DIESTAT_SIO_FAULT).testBit d) d) s
  (List.range 2).foldl (fun s h => s.raiseLevel (264 + h) ((s.rd Reg.GL_DIESTAT_HBM_FAULT).testBit h) h) s

/-! ### The load (R404, R405, R420, R424) -/

/-- The Iatil load starts: AUX0 belongs to it, and SFDP discovery comes first. The status of an earlier load is cleared
(DESIGN CHOICE, log entry 44). -/
def State.startLoad (s : State) : State :=
  let b := s.boot
  let s : State := { s with
    boot := { b with stage := .load, header := none, image := none, fast := false, retried := false, digestOk := false,
                     sigOk := false },
    flash := { discovering := true } }
  let s := s.modAux 0 (fun x => { x with state := .boot, csOn := false, startWaits := false })
  let s := (((s.wr Reg.GL_BOOTSTAT_RETRY 0).wr Reg.GL_BOOTSTAT_FASTCLK 0).wr Reg.GL_BOOTSTAT_SIGNED 0).wr Reg.GL_BOOTSTAT_HOLD 0
  s.emit .discover

/-- The AX_ words of AUX0. -/
def auxWords : List Nat := [0x881, 0x882, 0x883, 0x884, 0x885, 0x886, 0x887, 0x888, 0x8A0, 0x8A1, 0x8A2, 0x8A3, 0x8A4, 0x8A5]

/-- The image read ends (R420): CS0 is released, AUX0 leaves BOOT for OFF with every AX_ field at its reset value. -/
def State.endRead (s : State) : State :=
  if (s.aux 0).state != .boot then s else
  let s := auxWords.foldl (fun s w => s.setReg 0 w (resetWord w)) (s.setAux 0 {})
  ({ s with flash := {} } : State).emit (.auxSelect 0 0 false)

/-- The load ends with a code (R421): source 257 carries it. -/
def State.endLoad (s : State) (code offset : Nat) : State :=
  let s := s.endRead
  let s : State := { s with boot := { s.boot with stage := .wait, header := none, image := none } }
  ((s.wr Reg.GL_BOOTSTAT_ERR code).setReg 0 0x012 (BitVec.ofNat 32 offset)).raiseEvent 257 code

/-- V is set 16,000 DCLK ahead (R424). -/
def State.startVern (s : State) : State :=
  { s with boot := { s.boot with stage := .vern, vAt := some (s.now + 16000) } }

/-! ### The image header (R418, R421) -/

/-- A little-endian field of an image. -/
def imgField (h : List Byte) (a n : Nat) : Nat := ofLe (slice h a n)
def imgLength (h : List Byte) : Nat := imgField h 8 4
def imgSigned (h : List Byte) : Bool := (imgField h 6 1).testBit 0
def imgFast (h : List Byte) : Bool := (imgField h 6 1).testBit 1
def imgHold (h : List Byte) : Bool := (imgField h 6 1).testBit 2
def imgHalf (h : List Byte) : Nat := imgField h 12 2
def allZero (l : List Byte) : Bool := l.all (· == 0)

/-- LENGTH is in range (R418), and not above the density of a flash that SFDP describes (R421). -/
def State.lengthOk (s : State) (h : List Byte) : Bool :=
  let n := imgLength h
  (n == 256 || decide (264 ≤ n ∧ n ≤ 1048576)) && n % 4 == 0 &&
  (!s.on Reg.AX_SFDP_OK || decide (n ≤ 2 ^ s.rd Reg.AX_SFDP_DENS))

/-- Checks of format, in the order R421 lists them, with the offset of the field each names (DEDUCED, log entry 45). -/
def State.formatFault (s : State) (h : List Byte) : Option Nat :=
  ([(imgField h 4 2 == 1, 4), (decide (imgField h 6 1 < 8), 6), (imgField h 7 1 == 0, 7), (imgField h 14 2 == 0, 14),
    (allZero (slice h 192 64), 192), (s.lengthOk h, 8),
    ((if imgFast h then decide (8 ≤ imgHalf h ∧ imgHalf h ≤ 32) else imgHalf h == 0), 12),
    (imgSigned h || allZero (slice h 64 64), 64), (imgSigned h || allZero (slice h 128 64), 128)].find? (fun x => !x.1)).map (·.2)

/-- The image key is acceptable (R415, R421): an uncorrectable key row fails every image. -/
def State.keyOk (s : State) (h : List Byte) : Bool :=
  !s.boot.failed.contains .keys && (!Config.reqSig || imgSigned h) &&
  (!imgSigned h || (match Config.keyHash with | some k => sha256 (slice h 64 64) == k | none => true))

/-- The first header check that fails (R421): its code and the offset it reports. -/
def State.headerFault (s : State) (h : List Byte) : Option (Nat × Nat) :=
  if imgField h 0 4 ≠ 0x4C544149 then some (if s.on Reg.AX_SFDP_OK then 2 else 1, 0)
  else match s.formatFault h with
  | some a => some (3, a)
  | none => if imgField h 20 4 ≠ 0xD3E04001 then some (4, 0) else if s.keyOk h then none else some (6, 0)

/-- The message of DIGEST and SIG (R418). -/
def imgMessage (img : List Byte) : List Byte := img.take 32 ++ img.drop 256

/-- The signature is checked against a fused key hash (R421). -/
def needsSignature (h : List Byte) : Bool := imgSigned h && Config.keyHash.isSome

/-! ### GL_ registers: checks, effects, views -/

def Stage.code : Stage → Nat
  | .gesso | .load => 2 | .loaded => 3 | .wait => 4 | .vern => 5 | .ready => 6

/-- Values the GL_ registers accept (R222, R428, R473). -/
def glValue (w : Nat) (d : Word) : Bool :=
  match w with
  | 0x008 => decide (1 ≤ Reg.GL_CMTCFG_MAXOUT.get d ∧ Reg.GL_CMTCFG_MAXOUT.get d ≤ 8) && Reg.GL_CMTCFG_PERIOD.get d != 0
  | 0x00D => Reg.GL_THERMCFG_HYST.get d != 0 && decide (60 ≤ Reg.GL_THERMCFG_WARN.get d ∧ Reg.GL_THERMCFG_WARN.get d ≤ 105)
  | 0x011 => decide (d.toNat ≤ 2 ∨ d.toNat = 4)
  | _ => true

/-- Writes the state refuses (R428). -/
def glState (s : State) (w : Nat) (d : Word) : Bool :=
  match w with
  | 0x011 =>
    let st := s.boot.stage
    (Reg.GL_BOOTCTL_SKIP.get d == 0 || st == .load) && (Reg.GL_BOOTCTL_RELOAD.get d == 0 || st == .wait) &&
    (Reg.GL_BOOTCTL_VERNISSAGE.get d == 0 || st == .loaded || st == .wait)
  | _ => true

/-- What follows a stored word (R270, R473). -/
def glApply (s : State) (w : Nat) : State :=
  match w with
  | 0x002 => s.dieSources
  | 0x00D => s.noteHeat (max (s.rd Reg.GL_THERM_TCORE) (max (s.rd Reg.GL_THERM_TSIO) (s.rd Reg.GL_THERM_THBM)))
  | _ => s

/-- SKIP, RELOAD and VERNISSAGE (R424); VERNISSAGE from WAIT starts the state digest of SOURCE 2 (R448, R449). -/
def glAct (s : State) (w : Nat) (d : Word) : State :=
  if w ≠ 0x011 then s
  else if Reg.GL_BOOTCTL_SKIP.get d = 1 then s.endLoad 9 0
  else if Reg.GL_BOOTCTL_RELOAD.get d = 1 then s.startLoad
  else if Reg.GL_BOOTCTL_VERNISSAGE.get d = 1 then
    let s := if s.boot.stage = .wait then
        let s := s.wr Reg.GL_BOOTSTAT_SUPV 1
        { s with boot := { s.boot with digest := some (2, s.regs) } }
      else s
    s.startVern
  else s

/-- The views of the GL_ block. -/
def glView (s : State) (w : Nat) (v : Word) : Word :=
  match w with
  | 0x003 => Reg.GL_CLKSTAT_LOCK.set v s.clk.locked.toNat
  | 0x005 => s.glPos
  | 0x006 => s.chain.errlog.truncate 32
  | 0x007 => s.chain.errHold
  | 0x009 => Reg.GL_CMTSTAT_OUT.set v s.flushes.length
  | 0x010 => Reg.GL_BOOTSTAT_STAGE.set v s.boot.stage.code
  | 0x014 => s.boot.imageId.truncate 32
  | _ => v

/-! ### The commands: Gesso -/

/-- The state of a device without power history (R412): what stands outside it stays, with the queue and what it has put
out. -/
def State.powerOn (s : State) (strap : Role) : State :=
  let r : State := { State.reset with
    pending := s.pending, free := s.free, out := s.out, strap := strap,
    hinge := { state := if strap = .solo then .solo else .disengaged, reli := s.hinge.reli },
    link := { perst := s.link.perst }, tb := { syncIn := s.tb.syncIn } }
  r.wr Reg.HG_CFG_ROLE strap.code

/-- POR (R412, R426, R443): POR_N rises, and Gesso begins with every field at its reset value. -/
def execPor (strap : Role) (s : State) : Host.Outcome State Fault Refusal := .next (s.powerOn strap)

/-- POR_N_FALL (R412): outputs in their POR state, nothing kept. -/
def execPorNFall (s : State) : Host.Outcome State Fault Refusal :=
  .next { s.powerOn s.strap with clk := { porN := false } }

/-- PLL_LOCK (R33, R35, R39, R413): the first lock since POR is edge P, at which C is 0 and the fuse read and the measurement
of the delay lines begin; a later one makes DCLK valid again (R19). -/
def execPllLock (s : State) : Host.Outcome State Fault Refusal :=
  if !s.clk.porN || s.clk.locked then .next s
  else if s.clk.once then .next ({ s with clk := { s.clk with locked := true } } : State).startSync
  else
    .next ({ s with clk := { s.clk with locked := true, once := true }, now := 0, c := 0,
                    boot := { s.boot with fuseAt := 0 }, tb := { s.tb with calAt := some 0 } } : State).startSync

/-- FUSE_READ_DONE (R413 to R415): 65,536 DCLK after the read began. -/
def execFuseReadDone (corrected failRows : BitVec 16) (failed : List FuseContent) (s : State) :
    Host.Outcome State Fault Refusal :=
  if !s.clocked || s.boot.stage != .gesso || s.boot.fusesRead || s.boot.hot then .next s else
  let s := s.advance (s.boot.fuseAt + 65536)
  let s : State := { s with boot := { s.boot with fusesRead := true, failed := failed } }
  let s := (s.wr Reg.GL_FUSESTAT_CORRECTED corrected.toNat).wr Reg.GL_FUSESTAT_FAILROWS failRows.toNat
  .next (s.wrBit Reg.AL_STAT_NOKEY (failed.contains .keys))

/-- GESSO_END (R389, R413, R424, R448): training ends at G; failed dies are handled, GENESIS follows a POR, the load
starts. -/
def execGessoEnd (sioFail : BitVec 4) (hbmFail : BitVec 2) (sineOk : Bool) (s : State) : Host.Outcome State Fault Refusal :=
  if !s.clocked || s.boot.stage != .gesso || !s.boot.fusesRead then .next s else
  let s : State := { s with boot := { s.boot with stage := .load } }
  let s := s.wrBit Reg.CU_GSTAT_SINE_OK sineOk
  let s := (List.range 4).foldl (fun s d => if sioFail.getLsbD d then s.sioFails d else s) s
  let s := (List.range 2).foldl (fun s h => if hbmFail.getLsbD h then s.hbmFails h else s) s
  let s := if s.almanac.index = 0 ∧ s.almanac.lapseDue.isNone then
      ({ s with almanac := { s.almanac with cutAt := s.now } } : State).genesisEntry else s
  .next s.startLoad

/-! ### The commands: dies and clock in service -/

/-- SIO_LINK_FAIL (R13): the link of die d loses lock in service. -/
def execSioLinkFail (d : Fin 4) (s : State) : Host.Outcome State Fault Refusal :=
  .next (if s.running && (s.rd Reg.GL_DIESTAT_SIO_OK).testBit d.val then s.sioFails d.val else s)

/-- HBM_FAULT (R14): stack h reports an uncorrectable error. -/
def execHbmFault (h : Fin 2) (s : State) : Host.Outcome State Fault Refusal :=
  .next (if s.running && (s.rd Reg.GL_DIESTAT_HBM_OK).testBit h.val then s.hbmFails h.val else s)

/-- LOSS_OF_LOCK (R19, R52, R56, R257, R371, R387): at the next DCLK edge every pad holds, every engine stops, the epoch is
no longer valid, a Fresco is cancelled; a primary of a pair releases. -/
def execLossOfLock (s : State) : Host.Outcome State Fault Refusal :=
  if !s.clk.locked then .next s else
  let s := s.advance (s.now + 1)
  let s := s.release
  let s := (List.range 8).foldl (fun s o => (s.holdOct o).safeUnits o) s
  let s := s.cutCaptures (fun _ => true)
  let s := (s.wr Reg.TB_STAT_EPOCH_VALID 0).cancelSolstice.cancelFresco
  let s := (s.wr Reg.GL_CLKSTAT_LOCK_LOST 1).incSat Reg.GL_CLKSTAT_LOSS_CNT
  .next { s with clk := { s.clk with locked := false, stopped := true } }

/-- REFCLK_TOGGLE_CHANGE (R33). -/
def execRefclkToggleChange (ok : Bool) (s : State) : Host.Outcome State Fault Refusal :=
  .next (s.wrBit Reg.GL_CLKSTAT_REFCLK ok)

/-! ### The commands: the load -/

/-- Clocks of AUX0 per byte at a half-period: 8 bits of 2 H DCLK (R420). -/
def byteTime (half : Nat) : Nat := 16 * half

/-- IMAGE_HEADER_CHECK (R420, R421): the 256th byte, 2,088 clocks after the read began at 25 MHz. -/
def execImageHeaderCheck (header : List Byte) (s : State) : Host.Outcome State Fault Refusal :=
  if !s.running || s.boot.stage != .load || s.flash.discovering || s.boot.header.isSome then .next s else
  let s := s.advance (s.boot.readAt + (5 + 256) * byteTime 32)
  let h := padTo 256 header
  match s.headerFault h with
  | some (code, a) => .next (s.endLoad code a)
  | none =>
    let fast := imgFast h && !s.boot.retried
    let s : State := { s with boot := { s.boot with header := some h, fast := fast } }
    let s := s.wrBit Reg.GL_BOOTSTAT_HOLD (imgHold h)
    .next (if fast then (s.wr Reg.GL_BOOTSTAT_FASTCLK 1).emit (.imageRead (imgHalf h)) else s)

/-- IMAGE_READ_END (R420, R421): LENGTH bytes have been read. A digest that fails after a fast read is tried once more at
25 MHz. -/
def execImageReadEnd (image : List Byte) (s : State) : Host.Outcome State Fault Refusal :=
  match s.boot.header with
  | none => .next s
  | some h =>
    if !s.running || s.boot.stage != .load || s.boot.image.isSome then .next s else
    let half := if s.boot.fast then imgHalf h else 32
    let s := s.advance (s.boot.readAt + (5 + 256) * byteTime 32 + (imgLength h - 256) * byteTime half)
    let img := h ++ (padTo (imgLength h) image).drop 256
    if sha256 (imgMessage img) = slice h 32 32 then
      let s := s.endRead
      .next { s with boot := { s.boot with image := some img, digestOk := true, sigOk := !needsSignature h } }
    else if s.boot.fast then
      let s := s.wr Reg.GL_BOOTSTAT_RETRY 1
      let s : State := { s with boot := { s.boot with header := none, fast := false, retried := true, readAt := s.now } }
      .next (s.emit (.imageRead 32))
    else .next (s.endLoad 5 0)

/-- SIGNATURE_VERIFIED (R421): the verification of SIG ends. -/
def execSignatureVerified (s : State) : Host.Outcome State Fault Refusal :=
  match s.boot.image with
  | none => .next s
  | some img =>
    if !s.running || s.boot.stage != .load || s.boot.sigOk then .next s
    else if Config.verify (slice img 64 64) (sha256 (imgMessage img)) (slice img 128 64) then
      .next (({ s with boot := { s.boot with sigOk := true } } : State).wr Reg.GL_BOOTSTAT_SIGNED 1)
    else .next (s.endLoad 7 0)

/-! ### The commands: Vernissage -/

/-- VERNISSAGE (R255, R424, R425, R427, R434): edge V. -/
def execVernissage (s : State) : Host.Outcome State Fault Refusal :=
  match s.boot.vAt with
  | none => .next s
  | some v =>
    if !s.running || s.boot.stage != .vern then .next s else
    let s := s.advance v
    let s : State := { s with boot := { s.boot with stage := .ready, octTaken := 0 },
                              hinge := { s.hinge with firstRel := if s.hinge.reli then some (s.now, s.stamp) else none } }
    let s := s.setReg 0 0x013 (BitVec.ofNat 32 (min (s.now / 1600) (2 ^ 32 - 1)))
    .next ((List.range 8).foldl State.octActive s)

/-- Stations of an octant that a stored enable, mode or attachment names. -/
def State.namedStations (s : State) (o : Nat) : List Nat :=
  ((s.enabledPorts.map (· / 2)) ++ s.listed 0x605 ++ ([2 * o, 2 * o + 1].map (fun i => stationOfPin (s.cuPinOf i)))).eraseDups.filter
    (fun st => st / 128 == o)

/-- OCTANT_TAKE_PINS (R332, R340, R425): octant o, in octant order, at V + 192 + 64 o DCLK. -/
def execOctantTakePins (o : Fin 8) (s : State) : Host.Outcome State Fault Refusal :=
  match s.boot.vAt with
  | none => .next s
  | some v =>
    if !s.running || s.boot.stage != .ready || s.boot.octTaken != o.val then .next s else
    let s := s.advance (v + 192 + 64 * o.val)
    let s : State := { s with boot := { s.boot with octTaken := o.val + 1 } }
    .next ((s.namedStations o.val).foldl State.resolve s)

end Sys2Proof.Machine
end

