-- ==== Sys2Proof/Machine/Reset.lean ====
section
/-!
DEFINITION. Resets (10_tureus_chain.md R326; 16_power_reset.md R438 to R444; 17_almanac.md R459; 18_electrical_package.md R474):
what each kind keeps and clears, the action of PW_RSTCTL, and the commands that are its own events. The TAKEOVER kind stands
with the pair.
-/
namespace Sys2Proof.Machine

/-! ### CHAIN (R326) -/

/-- The words of the CH_ block. -/
def chWords : List Nat := [0x040, 0x041, 0x042, 0x043, 0x044, 0x045, 0x046, 0x047]

/-- A chain reset (R326): CH_ fields and the position return to their reset values, a pending response and a slot in execution
are dropped; GL_ERRLOG stays. -/
def State.chainReset (s : State) : State :=
  let s := chWords.foldl (fun s w => s.setReg 0 w (resetWord w)) s
  { s with chain := { errlog := s.chain.errlog, errHold := s.chain.errHold, rstLow := s.chain.rstLow },
           hinge := { s.hinge with mirror := none, mirrorLate := none } }

/-! ### SOFT and CORE (R442, R443, R459) -/

/-- Bits of a stored word that a SOFT reset keeps (R443, R33, R210, R474). -/
def softMask (k : Nat) : Word :=
  if k = 0x080 then Reg.TB_STAT_EPOCH_VALID.mask
  else if k = 0x08B then Reg.TB_PAIROFS_OFS.mask
  else if k = 0x003 then Reg.GL_CLKSTAT_LOSS_CNT.mask ||| Reg.GL_CLKSTAT_REFCLK.mask
  else if k = 0x00C ∨ k = 0x121 ∨ k = 0x122 ∨ k = 0x1C5 ∨ k = 0x1C6 ∨ k = 0x5F2 then 0xFFFFFFFF#32
  else 0

/-- Bits of a stored word that a CORE reset keeps (R443). -/
def coreMask (k : Nat) : Word :=
  let w := k % 4096
  if k = 0x08B then softMask k
  else if (0x080 ≤ w ∧ w ≤ 0x0FF) ∨ (0x040 ≤ k ∧ k ≤ 0x047) ∨ (0x100 ≤ k ∧ k ≤ 0x17F) ∨ k = 0x002 ∨ k = 0x003 ∨ k = 0x018 then
    0xFFFFFFFF#32
  else if k = 0x1C2 then Reg.AL_STAT_NOKEY.mask
  else if k = 0x870 then Reg.CU_GSTAT_SINE_OK.mask
  else softMask k

/-- The register file after a reset that keeps the bits of a mask. -/
def keepRegs (mask : Nat → Word) (m : Sparse Word) : Sparse Word :=
  m.foldl (fun a (k, v) => Sparse.put resetWord a k ((v &&& mask k) ||| (resetWord k &&& ~~~ mask k))) []

/-- The hash of the last formed entry, an unsigned CHECKPOINT included (R459). -/
def Almanac.lastHash (a : Almanac) : List Byte :=
  ({ a with queue := a.queue.map (fun (e : AlEntry) => { e with signed := true }) } : Almanac).resolve.hash

/-- The Almanac after a SOFT or CORE reset (R459): the head stays, queue and accumulators are discarded, a LAPSE is due. A
suspended chain has its own head again. -/
def Almanac.afterReset (a : Almanac) (cut : Nat) : Almanac :=
  let a := a.restore
  let n := a.queue.length
  let from_ := (a.queue.head?.map (·.index)).getD a.index
  let t0 := (a.queue.head?.map (·.stamp)).getD 0
  let t1 := (a.queue.getLast?.map (·.stamp)).getD 0
  let due := match a.lapseDue with
    | some (m, f, u, v, c) =>
      if m = 0 then (n, from_, t0, t1, c + cut) else (m + n, f, u, if n = 0 then v else t1, c + cut)
    | none => (n, from_, t0, t1, cut)
  { a with hash := a.lastHash, queue := [], halt := false, haltCount := 0, cutAsked := false, lapseDue := some due }

/-- A pin after SOFT or CORE (R442, R443), its pad held: recorder and settings are cleared. The edge extractor has no level after
SOFT (R72); after CORE its level stays, and the debounced levels stay after both (log entry 32). -/
def Pin.afterReset (x : Pin) (soft : Bool) : Pin :=
  let y : Pin := if soft then {} else
    { level := x.level, sample := x.sample, lastHigh := x.lastHigh, lastLow := x.lastLow, history := x.history }
  { y with pad := x.pad, driven := x.driven, drivenAt := x.drivenAt, gpin := x.gpin, srcIn := x.srcIn }

/-- The timebase after SOFT (R39, R54, R443): the lines are measured again. Sampling and forwarding of SYNC_IN go on, since AON
stays powered and DCLK valid (R44, R45). -/
def Timebase.afterSoft (tb : Timebase) (now : Nat) : Timebase :=
  { syncIn := tb.syncIn, syncAt := tb.syncAt, syncOut := tb.syncOut, syncSent := tb.syncSent, syncEdge := tb.syncEdge,
    calAt := some now, pairFrozen := tb.pairFrozen }

/-- Records of staging, those that waited for room in it among them, and segments are discarded, and PW_LOST counts them (R441,
R443). What would have counted with such a record never counts (R210, R216; log entry 79). -/
def State.discard (s : State) : State :=
  let n := (s.staging.filter Rec.inStaging).length + s.unbuilt.length
  let s := s.forget ((s.staging ++ s.unbuilt).flatMap (·.events))
  let s := (s.incSat Reg.PW_LOST_REC 0 n).incSat Reg.PW_LOST_SEG 0 s.segments.length
  { s with staging := [], stagingLow := false, unbuilt := [], segments := [], extents := [], upHead := 0 }

/-- SOFT (`soft`) and CORE resets as R443 gives them, at the present edge. Member and claim state follow the strap; a claim
ends with its drivers, and HG_RELO follows under R256 (DEDUCED, log entry 46). -/
def State.widerReset (s : State) (soft : Bool) : State :=
  let s := if soft then s else s.frescoAlone
  let s := s.discard
  let cut := (s.ports.filter (fun x => x.2.sessionOpen)).length
  let s : State :=
    { s with
      regs := keepRegs (if soft then softMask else coreMask) s.regs,
      pins := s.pins.map (fun (q, x) => (q, (s.held q x).afterReset soft)),
      ports := (s.ports.filter (fun x => x.2.session != 0)).map (fun (p, x) => (p, { session := x.session })),
      octs := if soft then [] else (s.octs.filter (fun x => x.2.failed)).map (fun (o, _) => (o, { failed := true })),
      rings := [], groups := [],
      mons := (s.mons.filter (fun x => x.2.pseq != 0)).map (fun (q, m) => (q, { pseq := m.pseq })), cus := [], auxs := [], srcs := [], tgts := [],
      gated := [], gapWaits := [], msgs := [], flushes := [], flushAt := none, flushDue := false, bulkAt := 0,
      hinge := { state := if s.strap = .solo then .solo else .disengaged, reli := s.hinge.reli, relo := s.hinge.relo,
                 offAt := if s.hinge.relo then s.hinge.offAt.or (some s.now) else none },
      almanac := s.almanac.afterReset cut, flash := {},
      power := if soft then {} else { host := s.power.host },
      boot := if soft then { fuseAt := s.now } else { fusesRead := true, failed := s.boot.failed },
      clk := if soft then { s.clk with stopped := false } else s.clk,
      tb := if soft then s.tb.afterSoft s.now else { s.tb with pairEdges := 0, pairSum := 0, pairWindows := [], frWaits := false },
      link := if soft then { s.link.configReset with pm := .down, speed := 0, width := 0, flit := false, wakeOut := false, pmeOut := false,
                                                     waiting := [], lastRing := none, sleepAt := none }
              else { s.link with waiting := [] },
      chain := { s.chain with errlog := 0, errHold := 0 } }
  s.wr Reg.HG_CFG_ROLE s.strap.code

/-- SOFT (R438, R440): back to the fuse read of Gesso. -/
def State.softReset (s : State) : State :=
  (((s.widerReset true).chainReset).incSat Reg.PW_RSTSTAT_SOFT).wr Reg.PW_RSTSTAT_LAST 2

/-- CORE (R438): back to the load; the faults of GL_DIESTAT stand. -/
def State.coreReset (s : State) : State :=
  ((s.widerReset false).wr Reg.PW_RSTSTAT_LAST 3).dieSources.startLoad

/-! ### HOST (R441) -/

/-- A port at a HOST reset: queued descriptors that have not started go without completion, the shown list goes without
records. -/
def Port.hostReset (x : Port) : Port :=
  let kept := x.sending.filter (fun sd => sd.flight.isSome || decide (0 < sd.sent))
  { x with queue := [], launchAt := none, launchOk := false, sending := kept,
           tx := if kept.isNone && (x.tx == .wait || x.tx == .send) && x.flowFlight.isNone then .idle else x.tx,
           acq := x.acq.map (fun a => { a with shown := [] }) }

/-- The stacks of message-type targets are emptied and their messages dropped; what was ACTIVE there goes on as after its end
of interrupt (R441, R277; DEDUCED, log entry 47). -/
def State.dropMessages (s : State) : State :=
  let gone := (s.tgts.filter (fun x => s.on Reg.CA_TCFG_KIND x.1)).flatMap (fun (t, x) => x.stack.map (fun e => (t, e.source % 4096)))
  gone.foldl (fun s (t, n) => s.endOfInterrupt t n) { s with msgs := [] }

/-- Link and configuration space at a HOST reset (R441); WAKE# stands until PERST# is deasserted (R287). -/
def State.linkReset (s : State) : State :=
  (({ s with link := { s.link.configReset with pm := .down, speed := 0, width := 0, flit := false, pmeOut := false, waiting := [],
                                               lastRing := none } } : State).hostPower).noteSleep

/-- HOST (R441, R443, R459); in an engaged shadow the link alone. -/
def State.hostReset (s : State) : State :=
  if s.engagedShadow then s.linkReset else
  let s := s.discard.ringsOff
  let s : State := { s with ports := s.ports.map (fun (p, x) => (p, x.hostReset)),
                            almanac := { s.almanac with queue := s.almanac.queue.map (fun e => { e with built := none }) } }
  let s := s.settle.freeEntries
  let s := s.monitorsOff.dropMessages
  ((s.wr Reg.LM_UPCFG_EN 0).wr Reg.AL_CFG_EN 0).linkReset

/-- A primary of a pair releases first; the reset follows 128 DCLK after its cause (R257, R440). -/
def State.releaseFirst (s : State) : State :=
  if s.isPrimary && s.hinge.state.paired then let s := s.release; s.advance (s.now + 128) else s

/-! ### The other kinds -/

/-- HINGE (R438, R443): the Hinge goes down and trains again. -/
def State.hingeReset (s : State) : State :=
  let s := if s.hinge.up then s.hingeDown else s
  ({ s with hinge := { s.hinge with up := false, retrainAt := none } } : State).wr Reg.PW_RSTSTAT_LAST 6

/-- MEMh (R438): stack h is trained again. -/
def State.memReset (s : State) (h : Nat) : State :=
  let s := if h = 0 then State.setMem0 { s with power := { s.power with mem0At := s.now, wake0 := none } } .run
    else { s with power := { s.power with mem1 := .run, mem1At := s.now, wake1 := none } }
  s.wr Reg.PW_RSTSTAT_LAST (7 + h)

/-- OCTo (R438, R442 to R444): pads hold, ports stand HELD, and the octant is restored as by a wake from DARK. -/
def State.octReset (s : State) (o : Nat) : State :=
  let s := (((s.holdPorts o).holdOct o).safeLevels o).modOct o (fun x =>
    { x with state := .dark, since := s.now, entering := none, wakeAt := some (s.now, 0),
             leftAt := if x.state = .run then s.now else x.leftAt })
  s.wr Reg.PW_RSTSTAT_LAST 9

/-- The action of PW_RSTCTL (R439, R440): SOFT alone when it is named; else every named domain at one edge, the widest
last. -/
def pwAct (s : State) (w : Nat) (d : Word) : State :=
  if w ≠ 0x120 then s
  else if Reg.PW_RSTCTL_SOFT.get d = 1 then s.releaseFirst.softReset
  else
    let s := (List.range 8).foldl (fun s o => if d.getLsbD o then s.octReset o else s) s
    let s := if d.getLsbD 11 then s.memReset 0 else s
    let s := if d.getLsbD 12 then s.memReset 1 else s
    let s := if d.getLsbD 10 then s.hingeReset else s
    let s := if d.getLsbD 9 ∨ d.getLsbD 8 then s.releaseFirst else s
    let s := if d.getLsbD 9 then s.hostReset.wr Reg.PW_RSTSTAT_LAST 4 else s
    if d.getLsbD 8 then s.coreReset else s

/-! ### The commands -/

/-- PERST_ASSERT (R438, R441): PERST# falls; HOST is in reset while it is low. -/
def execPerstAssert (s : State) : Host.Outcome State Fault Refusal :=
  if s.link.perst then .next s else
  let s : State := { s with link := { s.link with perst := true } }
  if !s.running then .next s else
  let s := s.releaseFirst.hostReset
  .next ((s.incSat Reg.PW_RSTSTAT_PERST).wr Reg.PW_RSTSTAT_LAST 5)

/-- PERST_DEASSERT (R287, R417, R431, R444): link training may start; HOST returns from D3cold, and WAKE# is released. -/
def execPerstDeassert (s : State) : Host.Outcome State Fault Refusal :=
  if !s.link.perst then .next s else
  let s : State := { s with link := { s.link with perst := false },
                            power := if s.power.host = .dark then { s.power with host := .run } else s.power }
  .next (if s.link.wakeOut then State.emit { s with link := { s.link with wakeOut := false } } (.wakeN false) else s)

/-- THERMAL_TRIP (R474): a sensor of the die has read 115 °C or more for 1,600 DCLK; a SOFT reset, whose Gesso waits for cool
dies. -/
def execThermalTrip (die : Fin 7) (s : State) : Host.Outcome State Fault Refusal :=
  if !s.clocked then .next s else
  let s := (s.incSat Reg.GL_THERM_TRIPS).wr Reg.GL_THERM_TRIPDIE die.val
  let s := s.releaseFirst.softReset
  .next { s with boot := { s.boot with hot := true } }

end Sys2Proof.Machine
end

