-- ==== Sys2Proof/Machine/Registers.lean ====
section
/-!
DEFINITION. Chain accesses to registers (00_scope.md R5 to R9; 10_tureus_chain.md R318, R320, R321; 15_boot.md R417, R423;
17_almanac.md R449): the windows and their instances, the checks of a write, what a write stores and does, and what a read
returns and does. Each block's own checks, effects and views stand with its chapter; they are joined here by word.
-/
namespace Sys2Proof.Machine

/-! ### Windows (R9) -/

/-- The SEL word that steers a window word; none for a SEL word and a device-wide word. The device-wide PT_RXALERT reads whatever
PT_SEL holds, 0xFFFF too (log entry 101). -/
def windowSel (w : Nat) : Option Nat :=
  if w = 0x0A1 then some 0x0A0
  else if 0x201 ≤ w ∧ w ≤ 0x206 then some 0x200
  else if 0x221 ≤ w ∧ w ≤ 0x22D then some 0x220
  else if 0x301 ≤ w ∧ w ≤ 0x305 then some 0x300
  else if 0x401 ≤ w ∧ w ≤ 0x427 then some 0x400
  else if 0x501 ≤ w ∧ w ≤ 0x50D then some 0x500
  else if 0x601 ≤ w ∧ w ≤ 0x615 then some 0x600
  else if 0x701 ≤ w ∧ w ≤ 0x712 then some 0x700
  else if 0x801 ≤ w ∧ w ≤ 0x812 then some 0x800
  else if (0x881 ≤ w ∧ w ≤ 0x888) ∨ (0x8C0 ≤ w ∧ w ≤ 0x8FF) then some 0x880
  else if 0x901 ≤ w ∧ w ≤ 0x9CF then some 0x900
  else none

/-- A SEL word. -/
def isSel (w : Nat) : Bool := [0x0A0, 0x200, 0x220, 0x300, 0x400, 0x500, 0x600, 0x700, 0x800, 0x880, 0x900].contains w


/-- Every instance of a window word, rising. -/
def allInstances (w : Nat) : List Nat :=
  match windowSel w with
  | some 0x0A0 => List.range 4096
  | some 0x200 => allSources
  | some 0x220 => List.range 16
  | some 0x300 => List.range 64
  | some 0x400 => List.range 2048
  | some 0x500 => List.range 256
  | some 0x600 => if isGroupWord w then List.range 64 else List.range 1024
  | some 0x700 => List.range 4096
  | some 0x800 => List.range 16
  | some 0x880 => List.range 8
  | some 0x900 => List.range 2048
  | _ => [0]


/-- The SEL of the word holds 0xFFFF. -/
def State.selAll (s : State) (w : Nat) : Bool := (windowSel w).any (fun x => s.reg 0 x == 0xFFFF#32)

/-- The instance a window word addresses, 0 for a device-wide word. -/
def State.selOf (s : State) (w : Nat) : Nat :=
  match windowSel w with
  | some x => selInstance w (s.reg 0 x).toNat
  | none => 0

/-- The instances a write to the word reaches. -/
def State.instances (s : State) (w : Nat) : List Nat := if s.selAll w then allInstances w else [s.selOf w]

/-! ### The chain's own registers (R328, R329) -/

def chValue (w : Nat) (d : Word) : Bool :=
  match w with
  | 0x041 => decide (d.toNat ≤ 64)
  | 0x042 => d.toNat == 0 || decide (64 ≤ d.toNat ∧ d.toNat ≤ 264192)
  | _ => true

/-- CH_LEN, CH_NDEV and CH_FRMFULL wait for the end of the following frame (R328). -/
def chApply (s : State) (w : Nat) : State :=
  if 0x040 ≤ w ∧ w ≤ 0x042 then
    let s := s.chainDue
    { s with chain := { s.chain with
        lenNext := some (s.rd Reg.CH_LEN_K, s.rd Reg.CH_NDEV, s.rd Reg.CH_FRMFULL), lenWait := 1 } }
  else s

def chView (s : State) (w : Nat) (v : Word) : Word := if w = 0x043 then s.chStat else v

/-! ### The blocks by word -/

/-- The values of the fields are in range (R318 check 9). -/
def valueOk (s : State) (all : Bool) (i w : Nat) (d : Word) : Bool :=
  if w < 0x040 then glValue w d
  else if w < 0x080 then chValue w d
  else if w < 0x100 then tbValue w d
  else if w < 0x180 then pwValue w d
  else if w < 0x1C0 then hgValue w d
  else if w < 0x200 then alValue s w d
  else if w < 0x300 then caValue s all i w d
  else if w < 0x400 then plValue w d
  else if w < 0x500 then ptValue s w d
  else if w < 0x600 then rgValue s w d
  else if w < 0x700 then stValue w d
  else if w < 0x800 then lmValue s w d
  else if w < 0x880 then cuValue w d
  else if w < 0x900 then axValue s all i w d
  else cqValue w d

/-- Conditions that relate fields of different words of one instance (R321). -/
def crossOk (s : State) (i w : Nat) : Bool :=
  if w < 0x200 then true
  else if w < 0x300 then caCross s i w
  else if w < 0x400 then plCross s i w
  else if w < 0x500 then ptCross s i w
  else if w < 0x600 then rgCross s i w
  else if w < 0x700 then stCross s i w
  else if w < 0x800 then lmCross s i w
  else if w < 0x880 then cuCross s i w
  else if w < 0x900 then true
  else cqCross s i w

/-- The device's state accepts the word (R318 check 10). -/
def stateCode (s : State) (i w : Nat) (d : Word) : Code :=
  if w < 0x040 then Code.unless (glState s w d) Code.state
  else if w < 0x080 then Code.ok
  else if w < 0x100 then tbState s w d
  else if w < 0x180 then Code.unless (pwState s w d) Code.state
  else if w < 0x1C0 then Code.unless (hgState s w d) Code.state
  else if w < 0x200 then Code.unless (alState s w d) Code.state
  else if w < 0x300 then Code.unless (caState s i w d) Code.state
  else if w < 0x400 then Code.ok
  else if w < 0x500 then Code.unless (ptState s i w d) Code.state
  else if w < 0x600 then Code.unless (rgState s i w d) Code.state
  else if w < 0x700 then Code.unless (stState s i w d) Code.state
  else if w < 0x800 then lmState s i w d
  else if w < 0x880 then cuState s i w d
  else if w < 0x900 then axState s i w d
  else Code.unless (cqState s i w) Code.state

/-- The data stored for an instance. -/
def storedData (s : State) (i w : Nat) (d : Word) : Word :=
  if 0x200 ≤ w ∧ w < 0x300 then caData s i w d else d

/-- Bits of a word whose fields have an access type of a list. -/
def accessMask (l : List Access) (w : Nat) : Word :=
  ((wordFields w).filter (fun f => l.contains f.acc)).foldl (fun a f => a ||| f.mask) 0

/-- The octant whose settings a word of an instance holds (R434): those of its ports, stations, level groups, monitors and
contact units, and its own. -/
def settingOct (i w : Nat) : Option Nat :=
  if accessMask [.rw] w = 0 then none
  else if 0x108 ≤ w ∧ w ≤ 0x10F then some (w - 0x108)
  else if (0x401 ≤ w ∧ w < 0x500) ∨ 0x901 ≤ w then some (octOfPort i)
  else if 0x601 ≤ w ∧ w ≤ 0x606 then some (octOfPin (4 * i))
  else if 0x610 ≤ w ∧ w ≤ 0x614 then some (i / 8)
  else if 0x701 ≤ w ∧ w ≤ 0x70B then some (octOfPin i)
  else if 0x801 ≤ w ∧ w < 0x870 then some (octOfCu i)
  else none

/-- What follows a stored word, in its block. -/
def applyBlock (s : State) (i w : Nat) (old : Word) : State :=
  if w < 0x040 then glApply s w
  else if w < 0x080 then chApply s w
  else if w < 0x100 then tbApply s w old
  else if w < 0x180 then pwApply s w
  else if w < 0x1C0 then if w = 0x182 then s.hgCleared else hgApply s w old
  else if w < 0x200 then s
  else if w < 0x300 then caApply s i w old
  else if w < 0x400 then s
  else if w < 0x500 then if w = 0x403 then s.refreshAlerts else ptApply s i w old
  else if w < 0x600 then rgApply s i w old
  else if w < 0x700 then stApply s i w old
  else if w < 0x800 then s
  else if w < 0x880 then if w = 0x809 then s.cuCleared i else cuApply s i w old
  else if w < 0x900 then axApply s i w old
  else cqApply s i w

/-- What follows a stored word; a write to an octant's settings is activity of it (R434). -/
def applyWord (s : State) (i w : Nat) (old : Word) : State :=
  let s := applyBlock s i w old
  match settingOct i w with
  | some o => s.octActive o
  | none => s

/-- The actions of the WO and W1S fields of a word; `bits` are what MISO returned before an abort (R401). -/
def actWord (bits : List Bool) (s : State) (i w : Nat) (d : Word) : State :=
  if w < 0x040 then glAct s w d
  else if w < 0x080 then s
  else if w < 0x100 then tbAct s w d
  else if w < 0x180 then pwAct s w d
  else if w < 0x1C0 then hgAct s w d
  else if w < 0x200 then alAct s w d
  else if w < 0x300 then caAct s i w d
  else if w < 0x400 then s
  else if w < 0x500 then ptAct s i w d
  else if w < 0x600 then s
  else if w < 0x700 then stAct s i w d
  else if w < 0x800 then lmAct s i w d
  else if w < 0x880 then cuAct s i w d
  else if w < 0x900 then axAct s i w d bits
  else cqAct s i w d

/-- A word of an instance as a read shows it, without side effects. -/
def State.view (s : State) (i w : Nat) : Word :=
  let v := s.reg i w
  if w < 0x040 then glView s w v
  else if w < 0x080 then chView s w v
  else if w < 0x100 then tbView s w v
  else if w < 0x180 then pwView s w v
  else if w < 0x1C0 then hgView s w v
  else if w < 0x200 then alView s w v
  else if w < 0x300 then caView s i w v
  else if w < 0x400 then plView s i w v
  else if w < 0x500 then ptView s i w v
  else if w < 0x600 then rgView s i w v
  else if w < 0x700 then stView s i w v
  else if w < 0x800 then lmView s i w v
  else if w < 0x880 then cuView s i w v
  else if w < 0x900 then axView s i w v
  else v

/-! ### Fields of a word -/

/-- Bits of a word that any field holds. -/
def fieldMask (w : Nat) : Word := accessMask [.rw, .ro, .w1c, .w1s, .wo] w

/-- A word of the map with at least one field (R318 check 6). -/
def implemented (w : Nat) : Bool := !(wordFields w).isEmpty

/-- Every field of the word is RO (R6); the aperture over the flash block is (R409). -/
def State.readOnly (s : State) (i w : Nat) : Bool :=
  (wordFields w).all (fun f => f.acc == .ro) || (isAperture w && s.flashView i)

/-! ### Writes (R318, R320, R321) -/

/-- One stored word of a write: its place in the write, instance and word, the data, and what stood there. -/
structure WordOp where
  idx  : Nat
  inst : Nat
  word : Nat
  data : Word
  old  : Word
  deriving DecidableEq, Repr

/-- The stored word a write leaves (R5). -/
def mergeWord (s : State) (i w : Nat) (d : Word) : Word :=
  let rw := accessMask [.rw] w
  let w1c := accessMask [.w1c] w
  let old := s.reg i w
  ((old &&& ~~~ rw) ||| (storedData s i w d &&& rw)) &&& ~~~ (d &&& w1c)

/-- The instances of a word that a write stores to. -/
def State.writable (s : State) (w : Nat) : List Nat :=
  if implemented w then (s.instances w).filter (fun i => !s.readOnly i w) else []

/-- One word of a write is stored, in each instance its SEL names. -/
def State.storeWord (s : State) (k w : Nat) (d : Word) : State × List WordOp :=
  (s.writable w).foldl (fun (t, ops) i => (t.setReg i w (mergeWord t i w d), ops ++ [⟨k, i, w, d, t.reg i w⟩])) (s, [])

/-- The words of a write, each an address and its data, are stored in order. -/
def State.storeFrom (k : Nat) : State → List (Nat × Word) → State × List WordOp
  | s, [] => (s, [])
  | s, (w, d) :: t =>
    let r := s.storeWord k w d
    let q := State.storeFrom (k + 1) r.1 t
    (q.1, r.2 ++ q.2)

def State.storeAll (s : State) (ws : List (Nat × Word)) : State × List WordOp := State.storeFrom 0 s ws

/-- Checks 6, 8 and 9 of one word (R318); a burst skips words that are unimplemented or all RO (R321). -/
def State.valueCode (s : State) (single : Bool) (w : Nat) (d : Word) : Code :=
  if !implemented w then Code.unless (!single) Code.noreg
  else if (s.instances w).all (fun i => s.readOnly i w) then Code.unless (!single) Code.ro
  else Code.unless (d &&& ~~~ fieldMask w == 0 && (s.writable w).all (fun i => valueOk s (s.selAll w) i w d)) Code.value

/-- Check 10 of one word, over every instance it reaches. -/
def State.wordState (s : State) (w : Nat) (d : Word) : Code :=
  (s.writable w).foldl (fun c i => c.andThen (stateCode s i w d)) Code.ok

/-- The stored words keep the conditions across words; else the first that does not. -/
def State.crossFault (s : State) (ops : List WordOp) : Option Nat :=
  (ops.find? (fun o => !crossOk s o.inst o.word)).map (·.idx)

/-- The words of a write pass their checks in order, each on the state that the earlier ones leave (R321); for a single write
the conditions across words come before its state check (R318). Answers the first code that fails, and where. -/
def State.checkFrom (single : Bool) (k : Nat) : State → List (Nat × Word) → Option (Code × Nat)
  | _, [] => none
  | s, (w, d) :: t =>
    let r := s.storeWord k w d
    let c := (s.valueCode single w d).andThen
      ((Code.unless (!single || (r.1.crossFault r.2).isNone) Code.value).andThen (s.wordState w d))
    if c = Code.ok then State.checkFrom single (k + 1) r.1 t else some (c, k)

/-- Checks 6 to 10 of a write as a whole (R321): the words in order, then the conditions across words on the state that the
whole write leaves. -/
def State.validate (s : State) (single : Bool) (ws : List (Nat × Word)) : Option (Code × Nat) :=
  match State.checkFrom single 0 s ws with
  | some x => some x
  | none =>
    let r := s.storeAll ws
    (r.1.crossFault r.2).map (fun k => (Code.value, k))

/-- The blocks of R419. -/
def imageBlock (w : Nat) : Bool :=
  decide ((0x200 ≤ w ∧ w ≤ 0x4FF) ∨ (0x600 ≤ w ∧ w ≤ 0x6FF) ∨ (0x800 ≤ w ∧ w ≤ 0x87F) ∨ (0x900 ≤ w ∧ w ≤ 0x9FF))

/-- A write of the word reaches a mirrored field (R8); TB_FR_CTL with RELEASE alone does not (DEDUCED, log entry 49). -/
def mirroredWrite (w : Nat) (d : Word) : Bool :=
  mirrorMask w != 0 && (w != 0x092 || Reg.TB_FR_CTL_ARM.get d == 1 || Reg.TB_FR_CTL_CANCEL.get d == 1)

/-- Check 3 of a word of a write (R250, R417, R423, R449): it is not ready for it. -/
def State.notReady (s : State) (w : Nat) (d : Word) : Bool :=
  (imageBlock w && (s.boot.stage == .load || s.boot.stage == .vern || s.boot.digest.any (fun x => x.1 == 2))) ||
  (w == 0x501 && Reg.RG_CFG_EN.get d == 1 && s.boot.stage != .ready) ||
  (s.hinge.state == .engaging && mirroredWrite w d)

/-- The words of a chain write from an address. -/
def writeWords (addr : Nat) (data : List Word) : List (Nat × Word) := data.mapIdx (fun k d => (addr + k, d))

/-- Checks 3 to 10 of a chain write (R318): the first code that fails, and the offset of its word. -/
def State.checkWrite (s : State) (addr : Nat) (data : List Word) (single : Bool) : Option (Code × Nat) :=
  let ws := writeWords addr data
  match ws.findIdx? (fun x => s.notReady x.1 x.2) with
  | some k => some (Code.notready, k)
  | none => if 0x1000 < addr + data.length then some (Code.range, 0x1000 - addr) else s.validate single ws

/-- The accepted words take effect at one edge (R321): what follows each stored word, then the actions, then the change of
every port that an entry or a palette selection reaches (R65, R69): PT_RXCFG_PAL written with the same value is a change, but
for a write that only starts or stops the receive side (DEDUCED, log entry 97). -/
def State.takeEffect (s : State) (ops : List WordOp) (bits : List Bool) : State :=
  let t := ops.foldl (fun s o => applyWord s o.inst o.word o.old) s
  let t := ops.foldl (fun s o => actWord bits s o.inst o.word o.data) t
  let entries := ((ops.filter (fun o => decide (0x301 ≤ o.word ∧ o.word ≤ 0x304))).map (·.inst)).eraseDups
  let ports := (ops.filter (fun o => o.word == 0x401 &&
    (Reg.PT_RXCFG_PAL.get o.old != s.rd Reg.PT_RXCFG_PAL o.inst ||
      Reg.PT_RXCFG_EN.get o.old == s.rd Reg.PT_RXCFG_EN o.inst))).map (·.inst)
  let begun := (ops.filter (fun o => o.word == 0x401 && Reg.PT_RXCFG_EN.get o.old == 0)).map (·.inst)
  (if entries.isEmpty && ports.isEmpty then t else t.palettesWritten entries ports begun).notePermits

/-- An accepted write is applied. -/
def State.applyWrite (s : State) (ws : List (Nat × Word)) (bits : List Bool) : State :=
  let r := s.storeAll ws
  r.1.takeEffect r.2 bits

/-! ### Reads (R38, R59, R99, R281, R318, R321, R330, R393, R460) -/

/-- The read of a word that the state refuses. -/
def State.readCode (s : State) (i w : Nat) : Code :=
  if w = 0x094 then Code.unless (s.on Reg.TB_STAT_FR_VALID) Code.state
  else axRead s i w

/-- The side effects of a read; `burst` reads claim nothing (R321). -/
def State.readEffect (s : State) (burst : Bool) (i w : Nat) : State :=
  match w with
  | 0x006 => { s with chain := { s.chain with errHold := (s.chain.errlog >>> 32).truncate 32 } }
  | 0x014 => s.setReg 0 0x015 ((s.boot.imageId >>> 32).truncate 32)
  | 0x081 => { s with tb := { s.tb with nowHold := (s.c >>> 32).truncate 32 } }
  | 0x088 => { s with tb := { s.tb with syncHold := (s.tb.syncLast >>> 32).truncate 32 } }
  | 0x094 => if burst then s else s.wr Reg.TB_FR_ADDR_WORD (min (s.rd Reg.TB_FR_ADDR_WORD + 1) 0xFFF)
  | 0x188 => { s with hinge := { s.hinge with disHold := (s.hinge.disStamp >>> 32).truncate 32 } }
  | 0x18D => { s with hinge := { s.hinge with tkHold := (s.hinge.tkStamp >>> 32).truncate 32 } }
  | 0x1C3 => { s with almanac := { s.almanac with cmtHold := BitVec.ofNat 32 (s.almanac.committed / 2 ^ 32) } }
  | 0x1E2 => if burst then s else s.incWrap Reg.AL_CERTADDR
  | 0x228 => if burst then s else (s.claim i).2
  | 0x404 => s.modPort i (fun x => { x with perHold := BitVec.ofNat 16 (x.trk.period / 2 ^ 32) })
  | 0x407 => s.modPort i (fun x => { x with holding := s.meterShown i })
  | 0x711 => s.modMon i (fun m => { m with lastHold := (m.lastStamp >>> 32).truncate 32 })
  | 0x80A => s.modCu i (fun u => { u with mstampHold := u.mstamp })
  | _ => s

/-- The value of a single read. -/
def State.readValue (s : State) (burst : Bool) (i w : Nat) : Word :=
  if w = 0x228 then if burst then 0 else BitVec.ofNat 32 (s.claim i).1 else s.view i w

/-- One word of a burst read: its value, and the state (R321). -/
def State.burstWord (s : State) (w : Nat) : Word × State :=
  if 0x1000 ≤ w ∨ !implemented w ∨ s.selAll w then (0, s)
  else (s.readValue true (s.selOf w) w, s.readEffect true (s.selOf w) w)

/-- The words of a burst read in ascending order. -/
def State.burstWords : State → Nat → Nat → List Word × State
  | s, _, 0 => ([], s)
  | s, w, n + 1 =>
    let r := s.burstWord w
    let q := State.burstWords r.2 (w + 1) n
    (r.1 :: q.1, q.2)

/-- The first word of a burst read that the state refuses. -/
def State.burstRefusal (s : State) (addr count : Nat) : Code :=
  ((List.range count).map (· + addr)).foldl (fun c w =>
    c.andThen (if 0x1000 ≤ w ∨ !implemented w ∨ s.selAll w then Code.ok else s.readCode (s.selOf w) w)) Code.ok

end Sys2Proof.Machine
end

