-- ==== Sys2Proof/Machine/ChainPort.lean ====
section
/-!
DEFINITION. The Tureus chain port (10_tureus_chain.md R296 to R330; mirrored writes 08_diptych.md R249, R250): accesses as
slots with their responses, frames bit by bit, and the commands of slots and frames. The end of a frame executes the slot it
latched, by its opcode; a row that names an operation is a slot of its own, in a frame whose bits are not given (log entry
49).
-/
namespace Sys2Proof.Machine

/-! ### Executed accesses (R318 to R322) -/

/-- A mirrored write still waits for the peer: a further slot is discarded (R323). -/
def State.chainBusy (s : State) : Bool := s.hinge.mirror.isSome

/-- A slot is discarded without a response (R323). -/
def State.discardSlot (s : State) : State := s.incSat Reg.CH_ERR2_BUSY

/-- The response data of an accepted single write (R320): the word as a read returns it; 0 with SEL at 0xFFFF. -/
def State.afterWrite (s : State) (w : Nat) : Word :=
  if s.selAll w then 0 else if w = 0x228 then 0 else s.view (s.selOf w) w

/-- The response time of an access (R322). -/
def accessTime (single : Bool) (addr count : Nat) (write : Bool) : Nat :=
  if single then (if write && isSel addr then 256 else 48) else 48 + 4 * count

/-- Each member counts the mirrored writes it applies (R249). -/
def State.countMirror (s : State) : State := s.incWrap Reg.HG_MIRSEQ

/-- An accepted write answers OK; none answers after a reset that took the position with it. -/
def State.answerWrite (s : State) (head : BitVec 64) (single : Bool) (addr delay : Nat) : State :=
  if s.chain.assigned then s.respond head Code.ok (if single then s.afterWrite addr else 0) [] delay else s

/-- A WRITE (R318 to R321), with what MISO returned before an abort. In an engaged pair a mirrored write that this member
accepts goes to the peer and waits (R249, log entry 48). -/
def State.runWrite (s : State) (head : BitVec 64) (addr : BitVec 12) (data : List Word) (bits : List Bool) : State :=
  let single := s.chain.len == 0 && data.length == 1
  let s := s.chainDue
  let delay := accessTime single addr.toNat data.length true
  let ws := writeWords addr.toNat data
  match s.checkWrite addr.toNat data single with
  | some (c, k) => s.respond head c (if single then 0 else BitVec.ofNat 32 k) [] delay
  | none =>
    match ws.findIdx? (fun x => mirroredWrite x.1 x.2) with
    | none => (s.applyWrite ws bits).answerWrite head single addr.toNat delay
    | some k =>
      if s.hinge.state = .degraded then s.respond head Code.mirror (if single then 0 else BitVec.ofNat 32 k) [] delay
      else if s.hinge.state = .engaged then
        let sel := match windowSel addr.toNat with | some x => (s.reg 0 x).toNat | none => 0
        let m : MirrorWait := { head := head, single := single, addr := addr, inst := sel, data := data, status := Code.ok }
        ({ s with hinge := { s.hinge with mirror := some m } } : State).emit (.hinge (.mirror addr sel data))
      else (s.applyWrite ws bits).answerWrite head single addr.toNat delay

/-- A READ slot of one word (R318 checks 6 and 7, R320). -/
def State.readSingle (s : State) (head : BitVec 64) (addr : BitVec 12) : State :=
  let w := addr.toNat
  let i := s.selOf w
  let c := if !implemented w then Code.noreg else if s.selAll w then Code.value else s.readCode i w
  if c = Code.ok then (s.readEffect false i w).respond head c (s.readValue false i w) [] 48
  else s.respond head c 0 [] 48

/-- A READ slot of `count` words (R318, R320, R321). -/
def State.readBurst (s : State) (head : BitVec 64) (addr : BitVec 12) (count : Nat) : State :=
  let w := addr.toNat
  let delay := 48 + 4 * count
  let far := decide (0x1000 < w + count)
  let c := s.burstRefusal w count
  if c ≠ Code.ok then s.respond head c 0 [] delay
  else
    let blind := ((List.range count).map (· + w)).any (fun a => implemented a && s.selAll a && decide (a < 0x1000))
    let r := s.burstWords w count
    if far then r.2.respond head Code.range (r.1.headD 0) r.1.tail delay
    else if blind then r.2.respond head Code.value 0 r.1.tail delay
    else r.2.respond head Code.ok (r.1.headD 0) r.1.tail delay

/-- A READ of `count` words; in Broadcast mode it is not executed (R318). -/
def State.runRead (s : State) (head : BitVec 64) (addr : BitVec 12) (count : Nat) : State :=
  let single := s.chain.len == 0 && count == 1
  let s := s.chainDue
  if s.chain.mode = .broadcast then
    let c := if !single && decide (0x1000 < addr.toNat + count) then Code.range
      else if single && !implemented addr.toNat then Code.noreg else Code.value
    s.respond head c 0 [] (accessTime single addr.toNat count false)
  else if single then s.readSingle head addr else s.readBurst head addr count

/-- A NOP or RESP (R308, R320). -/
def State.runNop (s : State) (head : BitVec 64) : State := s.chainDue.respond head Code.ok s.chainDue.chStat [] 48

/-- The checks of a SELECT (R316), in its own order (DEDUCED, log entry 49); `ndev` is CH_NDEV in force at the frame's end. -/
def State.selectCode (s : State) (ndev : Nat) (d : Word) : Code :=
  let p := d.toNat % 256
  if s.chain.mode ≠ .full then Code.state
  else if 256 ≤ d.toNat then Code.value
  else Code.unless (p == 254 || p == 255 || (decide (p < 64) && (ndev == 0 || decide (p < ndev)))) Code.position

/-- The mode a SELECT leads to (R316). -/
def Chain.select (c : Chain) (p : BitVec 8) : Chain :=
  { c with target := p,
           mode := if p = 0xFE then .broadcast else if p = 0xFF then .full
                   else if p = c.pos.zeroExtend 8 then .selected else .bypassed }

/-- A SELECT (R316). -/
def State.runSelect (s : State) (head : BitVec 64) (data : Word) : State :=
  let ndev := s.chain.ndev
  let s := s.chainDue
  let c := s.selectCode ndev data
  if c ≠ Code.ok then s.respond head c 0 [] 48
  else
    let s : State := { s with chain := s.chain.select (data.truncate 8) }
    s.respond head c s.chStat [] 48

/-- An ASSIGN (R313, R314): taken by an unassigned device; a NOP for an assigned one, answered with GL_ID (R320). -/
def State.runAssign (s : State) (head : BitVec 64) (data : Word) : State :=
  let s := s.chainDue
  if s.chain.assigned then s.respond head Code.ok (s.reg 0 0x000) [] 48
  else if 256 ≤ data.toNat then s.respond head Code.value 0 [] 48
  else if 64 ≤ data.toNat then s.respond head Code.position 0 [] 48
  else
    let s : State := { s with chain := { s.chain with assigned := true, pos := data.truncate 6, mode := .full,
                                                      target := 0xFF, len := 0 } }
    s.respond head Code.ok (s.reg 0 0x000) [] 48

/-! ### A slot that a row names (log entry 49) -/

/-- The frame of such a slot ends: settings of the chain that wait for it come into force (R328). -/
def State.ownFrame (s : State) : State :=
  match s.chain.lenNext with
  | none => s
  | some _ => { s with chain := { s.chain with lenWait := s.chain.lenWait - 1 } }

/-- A slot stands alone: executed when the device executes slots, and none of its mirrored writes waits for the peer (R300,
R323). -/
def State.slotAlone (s : State) (run : State → State) : State :=
  if !s.chainOn then s else if s.chainBusy then s.discardSlot else run s.ownFrame

/-- A slot that fails check 1 (R318, R319); `length` when the frame's length is checked and does not hold. -/
def State.rejectCrc (s : State) (head : BitVec 64) (length : Bool) : State :=
  let s := s.incSat Reg.CH_ERR_CRC
  let s := if length then s.incSat Reg.CH_ERR_FRM else s
  (s.raiseEvent 258 (s.rd Reg.CH_ERR_CRC)).respond head Code.crc 0 [] 48

/-- The device checks the length of its frames (R300). -/
def Chain.lengthChecked (c : Chain) : Bool :=
  c.assigned &&
  (match c.mode with | .full => c.frmfull != 0 | .selected | .broadcast => c.ndev != 0 | .bypassed => false)

/-- A slot of one word when CH_LEN_K is 0, else of K words (R309); any other displaces its frame and is rejected (R324). -/
def State.slotLong (s : State) (head : BitVec 64) (count : Nat) (run : State → State) : State :=
  s.slotAlone (fun s => if count = max 1 s.chain.len then run s else s.rejectCrc head s.chain.lengthChecked)

/-- A WRITE slot. -/
def State.chainWrite (s : State) (addr : BitVec 12) (data : List Word) : State :=
  let head := slotHead 2 addr (data.headD 0)
  s.slotLong head data.length (fun s => s.runWrite head addr data [])

/-- A READ slot. -/
def State.chainRead (s : State) (addr : BitVec 12) (count : Nat) : State :=
  let head := slotHead 1 addr 0
  s.slotLong head count (fun s => s.runRead head addr count)

/-- The WRITE of one word by a row that names it, and the READ of one: the only word of a burst that they give when CH_LEN_K is
not 0. -/
def State.writeBits (s : State) (addr : BitVec 12) (d : Word) (bits : List Bool) : State :=
  s.slotAlone (fun s => s.runWrite (slotHead 2 addr d) addr [d] bits)
def State.writeWord (s : State) (addr : BitVec 12) (d : Word) : State := s.writeBits addr d []
def State.readWord (s : State) (addr : BitVec 12) : State := s.slotAlone (fun s => s.runRead (slotHead 1 addr 0) addr 1)

/-! ### Bits of slots and responses (R306 to R311) -/

/-- The words of a stage of length 64 + 32 K after its head: K - 1 data words and the trailer (R309). -/
def trailerWord (k : Nat) (ws : List Word) : Word := (BitVec.ofNat 16 k) ++ crc16 ws

/-- K - 1 further data words, cut or filled with 0. -/
def furtherWords (k : Nat) (more : List Word) : List Word :=
  more.take (k - 1) ++ List.replicate (k - 1 - more.length) 0

/-- Bits [63:8] of a response (R310), with UNDERRUN. -/
def Resp.upper (r : Resp) (under : Bool) : BitVec 56 :=
  (0xF#4) ++ r.tag ++ (0#2) ++ (if under then r.status ||| 0x10 else r.status) ++ r.op ++ r.data ++ (0#4)

/-- A response at the present K, most significant bit first (R310, R322, R328). -/
def Resp.bits (r : Resp) (under : Bool) (k : Nat) : List Bool :=
  let u := msbBits 56 (r.upper under).toNat
  let head := u ++ msbBits 8 (crc8 u).toNat
  if k = 0 then head
  else
    let more := furtherWords k r.more
    head ++ (more ++ [trailerWord k (r.data :: more)]).flatMap (fun w => msbBits 32 w.toNat)

/-- The NOP response (R305, R322). -/
def State.nopResponse (s : State) : Resp :=
  { tag := 0, status := s.statusByte Code.ok, op := 0, data := s.chStat, ready := true }

/-- The reset response (R312): GL_ID, with E_NOTREADY before Gesso completes. -/
def State.resetResponse (s : State) : Resp :=
  { tag := 0, status := s.statusByte (if s.boot.stage = .gesso then Code.notready else Code.ok), op := 0,
    data := s.reg 0 0x000, ready := true }

/-- Stage length (R300). -/
def Chain.length (c : Chain) : Nat := 64 + 32 * c.len

/-- The first bit of the stage stands on CH_DOUT (R296). -/
def Chain.load (c : Chain) (bits : List Bool) : Chain := { c with stage := bits, dout := bits.headD false }

/-! ### Frames (R297, R300 to R305, R318, R322 to R325) -/

/-- A slot's operation, or its response, is still to come (R322, R323). -/
def State.chainPending (s : State) : Bool := s.chain.resp.isSome || s.hinge.mirror.isSome

/-- The response of the last slot is ready (R322). -/
def State.respReady (s : State) : Option Resp :=
  s.chain.resp.filter (fun r => r.ready || decide (r.readyAt ≤ s.now))

/-- What the stage is loaded with as a frame begins (R304, R312, R322): the response, or its one bit, when it is ready, else the
previous one with UNDERRUN. -/
def State.loadStage (s : State) : State :=
  let c := s.chain
  let k := if c.assigned then c.len else 0
  match s.respReady with
  | some r =>
    if c.mode.oneBit then { s with chain := ({ c with resp := none, prev := some r } : Chain).load [r.status.truncate 4 == Code.ok] }
    else { s with chain := ({ c with resp := none, prev := some r } : Chain).load (r.bits false k) }
  | none =>
    if s.chainPending then
      let s := s.incSat Reg.CH_ERR2_UNDER
      if c.mode.oneBit then { s with chain := s.chain.load [false] }
      else { s with chain := s.chain.load ((c.prev.getD s.nopResponse).bits true k) }
    else if c.mode.oneBit then s
    else if c.assigned then { s with chain := { c.load (s.nopResponse.bits false k) with prev := some s.nopResponse } }
    else if c.stage.length = 64 then s
    else { s with chain := c.load (s.resetResponse.bits false 0) }

/-- CH_RSTN is high again before a frame begins: at least 40 ns low, then 1 us (R298; log entry 109). -/
def State.rstRise (s : State) : State :=
  match s.chain.rstLow with
  | none => s
  | some n => { s.advance (n + 1664) with chain := { s.chain with rstLow := none } }

/-- FRAME_BEGIN's effect (R297): CH_SEL falls. -/
def State.frameBegin (s : State) : State :=
  if !s.clocked || s.chain.inFrame then s
  else
    let s := s.rstRise.chainDue.loadStage
    { s with chain := { s.chain with inFrame := true, edges := 0, input := [] } }

/-- One CH_CLK edge (R296, R297): the stage shifts, and the window of R303 is kept. -/
def Chain.shift (c : Chain) (din : Bool) : Chain :=
  let keep := decide (c.edges < c.pos.toNat + c.length)
  { c.load (c.stage.tail ++ [din]) with edges := c.edges + 1, input := if keep then c.input ++ [din] else c.input }

/-- The bits of the slot of a frame (R300, R303, R325). -/
def Chain.slotBits (c : Chain) : List Bool :=
  let l := if c.assigned then c.length else 64
  if c.mode = .broadcast then
    let w := (c.input.drop c.pos.toNat).take l
    List.replicate (l - w.length) false ++ w
  else if c.edges < l then List.replicate (l - c.edges) false ++ c.stage.drop (c.stage.length - c.edges)
  else c.stage

/-- The expected frame length does not hold (R300). -/
def Chain.lengthBad (c : Chain) : Bool :=
  if !c.assigned then false
  else match c.mode with
    | .full => c.frmfull != 0 && c.edges != c.frmfull
    | .selected | .broadcast => c.ndev != 0 && c.edges != c.length + c.ndev - 1
    | .bypassed => false

/-- Cut a list of bits into words of 32. -/
def bitWords : Nat → List Bool → List Word
  | 0, _ => []
  | n + 1, l => BitVec.ofNat 32 (ofMsb (l.take 32)) :: bitWords n (l.drop 32)

/-- The head of a slot and its words after the head, the trailer last. -/
def slotOf (bits : List Bool) : BitVec 64 × List Word :=
  (BitVec.ofNat 64 (ofMsb (bits.take 64)), bitWords ((bits.length - 64) / 32) (bits.drop 64))

def slotOp (h : BitVec 64) : BitVec 4 := (h >>> 60).truncate 4
def headAddr (h : BitVec 64) : BitVec 12 := (h >>> 44).truncate 12
def slotData (h : BitVec 64) : Word := (h >>> 12).truncate 32

/-- CRC-8 of the head, and K and CRC-16 of the trailer (R307, R309). -/
def slotCrcOk (h : BitVec 64) (ws : List Word) : Bool :=
  crc8 (msbBits 56 (h >>> 8).toNat) == h.truncate 8 &&
  (ws.isEmpty || ws.getLastD 0 &&& 0x007FFFFF#32 == trailerWord ws.length (slotData h :: ws.dropLast))

/-- Check 2 of R318. -/
def slotWellFormed (h : BitVec 64) (ws : List Word) : Bool :=
  let op := slotOp h
  !(decide (6 ≤ op.toNat ∧ op.toNat ≤ 14)) && h &&& 0x0300000000000F00#64 == 0 &&
  (ws.isEmpty || ws.getLastD 0 &&& 0xFF800000#32 == 0) &&
  !((op == 0 || op == 3 || op == 4 || op == 5) && ws.dropLast.any (fun w => w != 0)) &&
  !(op == 5 && slotData h != 0x000000C5#32)

/-- The operation that the opcode of a slot names, with the words behind its head (R308, R309). CHAINRST acts at the CH_SEL rise
and loads the reset response (R326). -/
def State.runSlot (s : State) (head : BitVec 64) (more : List Word) : State :=
  let addr := headAddr head
  let d := slotData head
  match (slotOp head).toNat with
  | 1 => s.runRead head addr (more.length + 1)
  | 2 => s.runWrite head addr (d :: more) []
  | 3 => s.runSelect head d
  | 4 => s.runAssign head d
  | 5 =>
    let s := s.chainReset.wr Reg.PW_RSTSTAT_LAST 10
    { s with chain := s.chain.load (s.resetResponse.bits false 0) }
  | _ => s.runNop head

/-- A 1-bit stage is loaded with 0; the executed slot loads 1 when its status is OK (R304). -/
def State.clearBit (s : State) : State := if s.chain.mode.oneBit then { s with chain := s.chain.load [false] } else s

/-- The slot of a frame with edges (R312, R318, R323): discarded, refused, or executed. -/
def State.takeSlot (s : State) : State :=
  let c := s.chain
  let (h, ws) := slotOf c.slotBits
  let s := s.clearBit
  if c.assigned && c.mode == .bypassed then s
  else if s.boot.stage = .gesso then { s with chain := s.chain.load (s.resetResponse.bits false 0) }
  else if s.chainPending then if slotOp h = 0 then s else s.discardSlot
  else if !c.assigned && !(slotOp h == 4 && slotCrcOk h ws) then { s with chain := s.chain.load (s.resetResponse.bits false 0) }
  else if c.lengthBad || !slotCrcOk h ws then s.rejectCrc h c.lengthBad
  else if !slotWellFormed h ws then s.respond h Code.value 0 [] 48
  else s.runSlot h ws.dropLast

/-- A frame without edges ends (R305): an assigned device returns to Full mode. -/
def State.emptyEnd (s : State) : State :=
  if s.chain.assigned then
    let s : State := { s with chain := { s.chain with mode := .full, target := 0xFF } }
    { s with chain := s.chain.load (s.nopResponse.bits false s.chain.len) }
  else s

/-- FRAME_END's effect (R297, R305, R328): CH_SEL rises. -/
def State.frameEnd (s : State) : State :=
  if !s.clocked || !s.chain.inFrame then s
  else
    let s : State := { s with chain := { s.chain with inFrame := false, lenWait := s.chain.lenWait - 1 } }
    if s.chain.edges = 0 then s.chainDue.emptyEnd else (s.incWrap Reg.CH_CNT_FRAMES).takeSlot

/-! ### The commands: frames -/

/-- CH_CLK_RISING_EDGE (R296, R297): ignored outside a frame. -/
def execChClkRisingEdge (din : Bool) (s : State) : Host.Outcome State Fault Refusal :=
  .next (if s.clocked && s.chain.inFrame then { s with chain := s.chain.shift din } else s)

/-- FRAME_BEGIN (R297, R322). -/
def execFrameBegin (s : State) : Host.Outcome State Fault Refusal := .next s.frameBegin

/-- FRAME_END (R297, R300, R318): the slot is checked, and executed by its opcode. -/
def execFrameEnd (s : State) : Host.Outcome State Fault Refusal := .next s.frameEnd

/-- EMPTY_FRAME (R305): CH_SEL falls and rises with no edge between. -/
def execEmptyFrame (s : State) : Host.Outcome State Fault Refusal :=
  .next (if s.chain.inFrame then s else s.frameBegin.frameEnd)

/-- RESPONSE_READY (R322). -/
def execResponseReady (s : State) : Host.Outcome State Fault Refusal :=
  match s.chain.resp with
  | none => .next s
  | some r =>
    if !s.clocked then .next s else
    let s := s.advance r.readyAt
    let r : Resp := { r with ready := true }
    .next { s with chain := { s.chain with resp := some r } }

/-- CH_RSTN_ASSERT (R296, R326): a frame is abandoned, CH_DOUT is low, and nothing is taken until CH_RSTN is high again. -/
def execChRstnAssert (s : State) : Host.Outcome State Fault Refusal :=
  if !s.clocked then .next s else
  let s := s.chainReset.wr Reg.PW_RSTSTAT_LAST 10
  .next { s with chain := { s.chain with rstLow := some s.now } }

/-! ### The commands: slots -/

/-- CHAIN_NOP (R308): NOP and RESP; one that finds a mirrored write waiting is discarded and not counted (R323). -/
def execChainNop (s : State) : Host.Outcome State Fault Refusal :=
  .next (if s.chainBusy then s else s.slotAlone (fun s => s.runNop (slotHead 0 0 0)))

/-- CHAIN_READ (R309, R321): a READ slot of `count` words. -/
def execChainRead (addr : BitVec 12) (count : Nat) (s : State) : Host.Outcome State Fault Refusal :=
  .next (s.chainRead addr count)

/-- CHAIN_WRITE (R309, R321): a WRITE slot. -/
def execChainWrite (addr : BitVec 12) (data : List Word) (s : State) : Host.Outcome State Fault Refusal :=
  .next (s.chainWrite addr data)

/-- CHAIN_SELECT (R316). -/
def execChainSelect (data : Word) (s : State) : Host.Outcome State Fault Refusal :=
  .next (s.slotAlone (fun s => s.runSelect (slotHead 3 0 data) data))

/-- CHAIN_ASSIGN (R313, R314): from G on, by an unassigned device; by an assigned one as any slot. -/
def execChainAssign (data : Word) (s : State) : Host.Outcome State Fault Refusal :=
  if s.chain.assigned then .next (s.slotAlone (fun s => s.runAssign (slotHead 4 0 data) data))
  else if !s.clocked || s.boot.stage = .gesso then .next s
  else .next (s.rstRise.runAssign (slotHead 4 0 data) data)

/-- CHAINRST (R326): it acts at the frame's end, and the reset response follows. -/
def execChainrst (s : State) : Host.Outcome State Fault Refusal :=
  .next (s.slotAlone (fun s => s.runSlot (slotHead 5 0 0xC5) []))

/-! ### Mirrored writes at the peer (R249, R480) -/

/-- What of a forwarded write reaches the peer (R321, R480): all of it but the other fields of words that are mirrored in part. -/
def mirrorPart (ws : List (Nat × Word)) : List (Nat × Word) :=
  ws.map (fun x => (x.1, if mirrorMask x.1 = 0 then x.2 else x.2 &&& ~~~ (fieldMask x.1 &&& ~~~ mirrorMask x.1)))

/-- The peer's own check of a forwarded write (R249). -/
def State.forwardedCode (s : State) (addr : Nat) (data : List Word) : Option Code :=
  let ws := mirrorPart (writeWords addr data)
  if ws.any (fun x => s.notReady x.1 x.2) then some Code.notready
  else if 0x1000 < addr + data.length then some Code.range
  else (s.validate (data.length == 1) ws).map (·.1)

/-- The SEL words that a forwarded write steers by. -/
def forwardedSels (addr : Nat) (data : List Word) : List Nat :=
  (windowSel addr).toList ++ ((writeWords addr data).map (·.1)).filter isSel

/-- The SEL of the first word's window as the addressed member has it. -/
def State.forwardedSel (s : State) (addr inst : Nat) : State :=
  match windowSel addr with
  | some x => s.setReg 0 x (BitVec.ofNat 32 inst)
  | none => s

/-- The peer applies a forwarded write (R249, R480): it steers by the addressed member's SEL, and its own SEL words come
back. -/
def State.applyForwarded (s : State) (addr inst : Nat) (data : List Word) : State :=
  let t := (s.forwardedSel addr inst).applyWrite (mirrorPart (writeWords addr data)) []
  ((forwardedSels addr data).foldl (fun t x => t.setReg 0 x (s.reg 0 x)) t).countMirror

/-- The write is a broadcast that this member holds in its own slot too: it is applied once, from there (R249). -/
def State.sameBroadcast (s : State) (addr : BitVec 12) (data : List Word) : Bool :=
  s.chain.mode == .broadcast && s.hinge.mirror.any (fun m => m.addr == addr && m.data == data)

/-- The peer takes a forwarded write: it validates, applies and acknowledges. A refusal, where the addressed member's check
passed, takes the Hinge down. -/
def State.takeForwarded (s : State) (addr : BitVec 12) (inst : Nat) (data : List Word) : State :=
  match (s.forwardedSel addr.toNat inst).forwardedCode addr.toNat data with
  | some c => (s.emit (.hinge (.mirrorAck c))).hingeDown
  | none =>
    (if s.sameBroadcast addr data then s else s.applyForwarded addr.toNat inst data).emit (.hinge (.mirrorAck Code.ok))

/-- A forwarded write that waited behind the primary's own is taken (R249). -/
def State.takeLate (s : State) : State :=
  match s.hinge.mirrorLate with
  | none => s
  | some m => ({ s with hinge := { s.hinge with mirrorLate := none } } : State).takeForwarded m.addr m.inst m.data

/-! ### The commands: mirrored writes (R249) -/

/-- MIRROR_WRITE_RECV (R249, R480): a write the other member forwarded; `inst` is the SEL of the addressed member. While the
primary's own write waits, one of the shadow's comes after it. -/
def execMirrorWriteRecv (addr : BitVec 12) (inst : Nat) (data : List Word) (s : State) : Host.Outcome State Fault Refusal :=
  if !s.running || s.hinge.state != .engaged || !s.hinge.up then .next s
  else if s.isPrimary && s.hinge.mirror.isSome && !s.sameBroadcast addr data then
    .next { s with hinge := { s.hinge with mirrorLate := some { addr := addr, inst := inst, data := data, status := Code.ok } } }
  else .next (s.takeForwarded addr inst data)

/-- MIRROR_ACK_RECV (R249): the addressed member applies its write and answers; a status of the peer that differs from its own
ends with E_MIRROR, and the Hinge is declared down. -/
def execMirrorAckRecv (status : BitVec 4) (s : State) : Host.Outcome State Fault Refusal :=
  match s.hinge.mirror with
  | none => .next (if s.running then s.takeLate else s)
  | some m =>
    if !s.running then .next s
    else if status = m.status then
      let s : State := { s with hinge := { s.hinge with mirror := none } }
      let s := (s.applyWrite (writeWords m.addr.toNat m.data) []).countMirror
      .next (s.answerWrite m.head m.single m.addr.toNat 0).takeLate
    else .next s.hingeDown

end Sys2Proof.Machine
end

