-- ==== Sys2Proof/Machine/Body.lean ====
section
/-!
DEFINITION. Commands that act on the register map as a whole: the body of an Iatil image (15_boot.md R419, R421, R422), state
digests (17_almanac.md R449), and the latch of a Fresco (02_timebase.md R56; 07_coherence.md R226).
-/
namespace Sys2Proof.Machine

/-! ### The body of an image (R419, R421, R422) -/

/-- One write record: the byte offset of its head in the image, its address, its data. -/
structure ImgRecord where
  at_  : Nat
  addr : Nat
  data : List Word
  deriving DecidableEq, Repr

/-- Little-endian words of a body. -/
def leWords : Nat → List Byte → List Word
  | 0, _ => []
  | n + 1, l => BitVec.ofNat 32 (ofLe (l.take 4)) :: leWords n (l.drop 4)

/-- The head of a record is well formed (R419): its reserved bits, its count, its data, and the blocks of its addresses. -/
def headOk (h : Word) (left : Nat) : Bool :=
  let a := h.toNat % 4096
  let n := h.toNat / 65536 % 128
  h &&& 0xFF80F000#32 == 0 && decide (1 ≤ n ∧ n ≤ left) && (List.range n).all (fun j => imageBlock (a + j))

/-- The records of a body from a byte offset on, or the offset of the head that is not well formed. -/
def parseBody : Nat → Nat → List Word → Except Nat (List ImgRecord)
  | _, _, [] => .ok []
  | 0, at_, _ => .error at_
  | fuel + 1, at_, h :: t =>
    if headOk h t.length then
      let n := h.toNat / 65536 % 128
      match parseBody fuel (at_ + 4 + 4 * n) (t.drop n) with
      | .ok l => .ok ({ at_ := at_, addr := h.toNat % 4096, data := t.take n } :: l)
      | .error e => .error e
    else .error at_

/-- The writes of the records in order. -/
def bodyWrites (l : List ImgRecord) : List (Nat × Word) := l.flatMap (fun r => writeWords r.addr r.data)

/-- The head offset of the record that holds the k-th write. -/
def headAt : List ImgRecord → Nat → Nat
  | [], _ => 0
  | r :: t, k => if k < r.data.length then r.at_ else headAt t (k - r.data.length)

/-- Every WO field is written 0 (R419): the first write that does not. -/
def woFault (ws : List (Nat × Word)) : Option Nat := ws.findIdx? (fun x => x.2 &&& accessMask [.wo] x.1 != 0)

/-- The records of an image with the checks of R421 on its body: the writes, or the offset that GL_BOOTERR reports. -/
def State.bodyOf (s : State) (img : List Byte) : Except Nat (List (Nat × Word)) :=
  let words := leWords ((imgLength img - 256) / 4) (img.drop 256)
  match parseBody words.length 256 words with
  | .error a => .error a
  | .ok rs =>
    if rs.length ≠ imgField img 16 4 then .error 16
    else
      let ws := bodyWrites rs
      match woFault ws with
      | some k => .error (headAt rs k)
      | none =>
        match s.validate false ws with
        | some (_, k) => .error (headAt rs k)
        | none => .ok ws

/-- The span and codes that the registers of a group hold. -/
def State.groupLevels (s : State) (g : Nat) : Levels :=
  { span := BitVec.ofNat 2 (s.rd Reg.ST_LGCFG_SPAN g), voh := BitVec.ofNat 14 (s.rd Reg.ST_LGVOH g),
    vol := BitVec.ofNat 14 (s.rd Reg.ST_LGVOL g), vthh := BitVec.ofNat 14 (s.rd Reg.ST_LGVTHH g),
    vthl := BitVec.ofNat 14 (s.rd Reg.ST_LGVTHL g) }

/-- What the image writes becomes the safe value (R28, R354, R387, R422): KIND, RANGE, SRC and LEVEL of a contact unit, span
and codes of a level group. -/
def State.takeSafe (s : State) (ops : List WordOp) : State :=
  let units := ((ops.filter (fun o => o.word == 0x801 || o.word == 0x803)).map (·.inst)).eraseDups
  let groups := ((ops.filter (fun o => decide (0x610 ≤ o.word ∧ o.word ≤ 0x614))).map (·.inst)).eraseDups
  let s := units.foldl (fun s i => s.modCu i (fun u =>
    { u with safeCfg := (Reg.CU_CFG_KIND.mask ||| Reg.CU_CFG_RANGE.mask ||| Reg.CU_CFG_SRC.mask) &&& s.reg i 0x801,
             safeLevel := s.reg i 0x803 })) s
  groups.foldl (fun s g => s.modGroup g (fun x => { x with safe := s.groupLevels g })) s

/-- IMAGE_APPLY (R421, R422, R424): the body is checked, 2 DCLK for each data word, and applied at edge L; a body that fails
ends the load with code 8. -/
def execImageApply (s : State) : Host.Outcome State Fault Refusal :=
  match s.boot.image with
  | none => .next s
  | some img =>
    if !s.running || s.boot.stage != .load || !s.boot.digestOk || !s.boot.sigOk then .next s else
    match s.bodyOf img with
    | .error a => .next (s.endLoad 8 a)
    | .ok ws =>
      let s := s.advance (s.now + 2 * ws.length)
      let id := BitVec.ofNat 64 (imgField img 24 8)
      let r := s.storeAll ws
      let s := (r.1.takeSafe r.2).takeEffect r.2 []
      let s : State := { s with boot := { s.boot with imageId := id, image := none, header := none,
                                                      stage := .loaded } }
      let s := (s.wr Reg.GL_BOOTSTAT_ERR 0).setReg 0 0x012 0
      let s := s.configEntry 1 (slice img 32 32) id.toNat
      .next (if imgHold img then s else s.startVern)

/-! ### State digests (R449) -/

/-- Every word of the map that holds a field, rising. -/
def mapWords : List Nat := (List.range 0xA00).filter implemented

/-- The bytes of a state digest: mirrored fields of every instance, over the registers latched at the deciding edge. -/
def State.digestBytes (s : State) (latched : Sparse Word) : List Byte :=
  let t : State := { s with regs := latched }
  (mapWords.filter (fun w => mirrorMask w != 0)).flatMap (fun w =>
    (allInstances w).flatMap (fun i => leBytes 4 (t.view i w &&& mirrorMask w).toNat))

/-- STATE_DIGEST_DONE (R449): the CONFIG entry is formed; an engaged shadow keeps its own digest for the comparison. -/
def execStateDigestDone (s : State) : Host.Outcome State Fault Refusal :=
  match s.boot.digest with
  | none => .next s
  | some (source, regs) =>
    if !s.running then .next s else
    let d := sha256 (s.digestBytes regs)
    let s : State := { s with boot := { s.boot with digest := none } }
    .next (if s.engagedShadow && source == 3 then { s with hinge := { s.hinge with ownDigest := some d } }
      else s.configEntry source d 0)

/-! ### Fresco (R56, R57, R226) -/

/-- The word whose read latches the holding register that this word shows (R38, R99, R330); a word that is not held, itself. -/
def latchWord (w : Nat) : Nat :=
  if w ∈ [0x007, 0x015, 0x082, 0x089, 0x189, 0x18E, 0x1C4, 0x405, 0x712] then w - 1
  else if 0x408 ≤ w ∧ w ≤ 0x40C then 0x407
  else if w = 0x80B ∨ w = 0x80C then 0x80A
  else w

/-- What a snapshot keeps of a word: RO and W1C fields as they stand at the latch edge (R56, R226), and C itself at TB_NOW. A
word that shows a holding register shows the value that a read at the latch edge would hold (log entry 24). -/
def State.snapValue (s : State) (i w : Nat) : Word :=
  (s.readEffect true i (latchWord w)).view i w &&& accessMask [.ro, .w1c] w

/-- The snapshot bank at the latch edge, by instance and word. -/
def State.snapshot (s : State) : Sparse Word :=
  mapWords.foldl (fun m w =>
    if accessMask [.ro, .w1c] w = 0 then m
    else (allInstances w).foldl (fun m i => Sparse.put (fun _ => 0) m (i * 4096 + w) (s.snapValue i w)) m) []

/-- The commit-gated values of a snapshot, which a primary sends to its shadow (R216, R226). -/
def gatedValues (m : Sparse Word) : Sparse Word :=
  (m.map (fun (k, v) => (k, v &&& gatedMask (k % 4096)))).filter (fun x => x.2 != 0)

/-- FRESCO_LATCH (R56, R58, R226): the first edge at which the count is F or later. -/
def execFrescoLatch (s : State) : Host.Outcome State Fault Refusal :=
  if !s.running || !s.on Reg.TB_STAT_FR_PENDING then .next s else
  let s := s.advanceTo (s.frF + s.pairOfs)
  let s : State := { s with tb := { s.tb with snap := s.snapshot } }
  let s := s.wr Reg.TB_STAT_FR_PENDING 0
  let s := if s.engagedShadow then ({ s with tb := { s.tb with frWaits := true } } : State) else s.wr Reg.TB_STAT_FR_VALID 1
  let s := s.raiseEvent 267 (s.reg 0 0x090).toNat
  .next (if s.engagedPrimary then
      s.emit (.hinge (.fresco (gatedValues s.tb.snap)))
    else s)

end Sys2Proof.Machine
end

