-- ==== Sys2Proof/Machine/Reads.lean ====
section
/-!
DEFINITION. The commands that are a chain READ of one word whose read has an effect (10_tureus_chain.md R320, R321), the claim of
an interrupt, and the host's read of the status mirror (01_architecture.md R25; 06_host_link_rings.md R172).
-/
namespace Sys2Proof.Machine

/-- TB_NOW_READ (R38): a READ of TB_NOW_LO. -/
def execTbNowRead (s : State) : Host.Outcome State Fault Refusal := .next (s.readWord 0x081)

/-- SYNC_LAST_READ (R45, R62): a READ of TB_SYNC_LAST_LO. -/
def execSyncLastRead (s : State) : Host.Outcome State Fault Refusal := .next (s.readWord 0x088)

/-- FR_DATA_READ (R59): a READ of TB_FR_DATA. -/
def execFrDataRead (s : State) : Host.Outcome State Fault Refusal := .next (s.readWord 0x094)

/-- RXPER_READ (R98, R99): a READ of PT_RXPER_LO. -/
def execRxperRead (s : State) : Host.Outcome State Fault Refusal := .next (s.readWord 0x404)

/-- FM_RESULT_READ (R99): a READ of PT_FM_PER_LO, which latches the result set. -/
def execFmResultRead (s : State) : Host.Outcome State Fault Refusal := .next (s.readWord 0x407)

/-- ERRLOG_READ (R330): a READ of GL_ERRLOG_LO. -/
def execErrlogRead (s : State) : Host.Outcome State Fault Refusal := .next (s.readWord 0x006)

/-- CU_MRES_READ (R393): a READ of CU_MRES, which latches the stamp. -/
def execCuMresRead (s : State) : Host.Outcome State Fault Refusal := .next (s.readWord 0x80A)

/-- CERT_DATA_READ (R460): a READ of AL_CERTDATA. -/
def execCertDataRead (s : State) : Host.Outcome State Fault Refusal := .next (s.readWord 0x1E2)

/-- IMAGEID_READ (R427): a READ of GL_IMAGEID_LO. -/
def execImageidRead (s : State) : Host.Outcome State Fault Refusal := .next (s.readWord 0x014)

/-- DISSTAMP_READ (R258, R266): a READ of HG_DISSTAMP_LO. -/
def execDisstampRead (s : State) : Host.Outcome State Fault Refusal := .next (s.readWord 0x188)

/-- TKSTAMP_READ (R264, R266): a READ of HG_TKSTAMP_LO. -/
def execTkstampRead (s : State) : Host.Outcome State Fault Refusal := .next (s.readWord 0x18D)

/-- LM_LAST_READ (R376): a READ of LM_LAST_LO. -/
def execLmLastRead (s : State) : Host.Outcome State Fault Refusal := .next (s.readWord 0x711)

/-- AL_CMT_READ (R451, R460): a READ of AL_CMT_LO. -/
def execAlCmtRead (s : State) : Host.Outcome State Fault Refusal := .next (s.readWord 0x1C3)

/-- FLASH_APERTURE_READ (R402, R407, R409): a READ of AX_BUFk. -/
def execFlashApertureRead (k : Fin 64) (s : State) : Host.Outcome State Fault Refusal :=
  .next (s.readWord (BitVec.ofNat 12 (0x8C0 + k.val)))

/-- CA_CLAIM_READ (R281, R288): a READ of CA_CLAIM, or the host's read of the claim word of a target page. -/
def execCaClaimRead (host : Option (Fin 16)) (s : State) : Host.Outcome State Fault Refusal :=
  match host with
  | none => .next (s.readWord 0x228)
  | some t =>
    if s.running && s.link.up then
      let r := s.claim t.val
      .next (r.2.emit (.readData [BitVec.ofNat 32 r.1]))
    else .next s

/-- The words of the status mirror (R172): register words as the chain would read them, with no side effect; claim and
Fresco words read 0, and so does a window word with SEL at 0xFFFF. -/
def State.mirrorReg (s : State) (w : Nat) : Word :=
  if !implemented w ∨ s.selAll w ∨ w = 0x228 ∨ w = 0x094 then 0
  else if w = 0x082 then (s.c >>> 32).truncate 32
  else s.view (s.selOf w) w

/-- A word of the status mirror by its place: the register map, then four words for each ring, then four for each port
(R172). -/
def State.mirrorWord (s : State) (k : Nat) : Word :=
  if k < 0x300 then s.mirrorReg k
  else if 0x400 ≤ k ∧ k < 0x800 then
    s.view ((k - 0x400) / 4) ([0x507, 0x508, 0x509, 0x50B].getD ((k - 0x400) % 4) 0x507)
  else if 0x2000 ≤ k ∧ k < 0x4000 then
    s.view ((k - 0x2000) / 4) ([0x403, 0x40D, 0x416, 0x417].getD ((k - 0x2000) % 4) 0x403)
  else 0

/-- STATUS_MIRROR_READ (R25, R172): `n` bytes from an offset of the mirror, as whole words, when the link is up. -/
def execStatusMirrorRead (offset n : Nat) (s : State) : Host.Outcome State Fault Refusal :=
  if s.running && s.link.up then
    let first := offset / 4
    let last := (offset + n + 3) / 4
    .next (s.emit (.readData ((List.range (last - first)).map (fun k => s.mirrorWord (first + k)))))
  else .next s

end Sys2Proof.Machine
end

