-- ==== Sys2Proof/Machine/Writes.lean ====
section
/-!
DEFINITION. The commands that are a chain WRITE of one word (10_tureus_chain.md R318 to R322): each is checked, stored and acted
on as `State.writeWord` gives, by the rules of its chapter; the host's variants of three Carillon writes (09_carillon.md R288,
R289) stand beside them.
-/
namespace Sys2Proof.Machine

/-- CAL_RUN (R39): a measurement of the delay lines starts, or E_STATE. -/
def execCalRun (data : Word) (s : State) : Host.Outcome State Fault Refusal := .next (s.writeWord 0x08C data)

/-- SOL_ARM (R49): ARM of TB_SOL_CTL. -/
def execSolArm (data : Word) (s : State) : Host.Outcome State Fault Refusal := .next (s.writeWord 0x085 data)

/-- SOL_CANCEL (R49, R50): CANCEL of TB_SOL_CTL. -/
def execSolCancel (data : Word) (s : State) : Host.Outcome State Fault Refusal := .next (s.writeWord 0x085 data)

/-- SYNC_DLY_WRITE (R52): TB_SYNC_DLY. -/
def execSyncDlyWrite (data : Word) (s : State) : Host.Outcome State Fault Refusal := .next (s.writeWord 0x086 data)

/-- FR_ARM (R55): ARM of TB_FR_CTL. -/
def execFrArm (data : Word) (s : State) : Host.Outcome State Fault Refusal := .next (s.writeWord 0x092 data)

/-- FR_CANCEL (R56): CANCEL of TB_FR_CTL. -/
def execFrCancel (data : Word) (s : State) : Host.Outcome State Fault Refusal := .next (s.writeWord 0x092 data)

/-- FR_RELEASE (R59): RELEASE of TB_FR_CTL. -/
def execFrRelease (data : Word) (s : State) : Host.Outcome State Fault Refusal := .next (s.writeWord 0x092 data)

/-- RX_PALETTE_SELECT (R69): PT_RXCFG_PAL. -/
def execRxPaletteSelect (data : Word) (s : State) : Host.Outcome State Fault Refusal := .next (s.writeWord 0x401 data)

/-- RX_ENABLE (R96): PT_RXCFG_EN = 1. -/
def execRxEnable (data : Word) (s : State) : Host.Outcome State Fault Refusal := .next (s.writeWord 0x401 data)

/-- RX_DISABLE (R96): PT_RXCFG_EN = 0. -/
def execRxDisable (data : Word) (s : State) : Host.Outcome State Fault Refusal := .next (s.writeWord 0x401 data)

/-- RX_REACQ (R90): REACQ of PT_RXCTL. -/
def execRxReacq (data : Word) (s : State) : Host.Outcome State Fault Refusal := .next (s.writeWord 0x402 data)

/-- FM_RESTART (R91): FMRESTART of PT_RXCTL. -/
def execFmRestart (data : Word) (s : State) : Host.Outcome State Fault Refusal := .next (s.writeWord 0x402 data)

/-- TX_ENABLE (R140): PT_TXCFG_EN = 1. -/
def execTxEnable (data : Word) (s : State) : Host.Outcome State Fault Refusal := .next (s.writeWord 0x414 data)

/-- TX_DISABLE (R140): PT_TXCFG_EN = 0. -/
def execTxDisable (data : Word) (s : State) : Host.Outcome State Fault Refusal := .next (s.writeWord 0x414 data)

/-- TX_FLUSH (R140): FLUSH of PT_TXCTL. -/
def execTxFlush (data : Word) (s : State) : Host.Outcome State Fault Refusal := .next (s.writeWord 0x415 data)

/-- TX_RESUME (R145): RESUME of PT_TXCTL. -/
def execTxResume (data : Word) (s : State) : Host.Outcome State Fault Refusal := .next (s.writeWord 0x415 data)

/-- CUE_CLRHIST (R155): CLRHIST of CQ_CTL. -/
def execCueClrhist (data : Word) (s : State) : Host.Outcome State Fault Refusal := .next (s.writeWord 0x901 data)

/-- RING_ENABLE (R177, R212): RG_CFG_EN = 1. -/
def execRingEnable (data : Word) (s : State) : Host.Outcome State Fault Refusal := .next (s.writeWord 0x501 data)

/-- RING_DISABLE (R177, R213): RG_CFG_EN = 0. -/
def execRingDisable (data : Word) (s : State) : Host.Outcome State Fault Refusal := .next (s.writeWord 0x501 data)

/-- HG_ROLE_WRITE (R240): HG_CFG. -/
def execHgRoleWrite (data : Word) (s : State) : Host.Outcome State Fault Refusal := .next (s.writeWord 0x180 data)

/-- HG_ENGAGE (R251): ENGAGE of HG_CTL. -/
def execHgEngage (data : Word) (s : State) : Host.Outcome State Fault Refusal := .next (s.writeWord 0x181 data)

/-- HG_DISENGAGE (R253): DISENGAGE of HG_CTL. -/
def execHgDisengage (data : Word) (s : State) : Host.Outcome State Fault Refusal := .next (s.writeWord 0x181 data)

/-- HG_RELEASE (R257): RELEASE of HG_CTL. -/
def execHgRelease (data : Word) (s : State) : Host.Outcome State Fault Refusal := .next (s.writeWord 0x181 data)

/-- CA_CLRPEND (R275): CLRPEND of CA_SCTL. -/
def execCaClrpend (data : Word) (s : State) : Host.Outcome State Fault Refusal := .next (s.writeWord 0x204 data)

/-- CA_SOURCE_DISABLE (R276): CA_SCFG_EN = 0. -/
def execCaSourceDisable (data : Word) (s : State) : Host.Outcome State Fault Refusal := .next (s.writeWord 0x201 data)

/-- ST_UNHOLD (R342): UNHOLD of ST_CTL. -/
def execStUnhold (data : Word) (s : State) : Host.Outcome State Fault Refusal := .next (s.writeWord 0x60C data)

/-- GPIO_OUT_WRITE (R345): ST_GPCFG. -/
def execGpioOutWrite (data : Word) (s : State) : Host.Outcome State Fault Refusal := .next (s.writeWord 0x605 data)

/-- SPAN_CHANGE_START (R351, R352): ST_LGCFG_SPAN. -/
def execSpanChangeStart (data : Word) (s : State) : Host.Outcome State Fault Refusal := .next (s.writeWord 0x610 data)

/-- LM_FORCE (R363): FORCE of LM_CTL. -/
def execLmForce (data : Word) (s : State) : Host.Outcome State Fault Refusal := .next (s.writeWord 0x70C data)

/-- LM_ARM (R363): ARM of LM_CTL. -/
def execLmArm (data : Word) (s : State) : Host.Outcome State Fault Refusal := .next (s.writeWord 0x70C data)

/-- LM_DISARM (R362): DISARM of LM_CTL. -/
def execLmDisarm (data : Word) (s : State) : Host.Outcome State Fault Refusal := .next (s.writeWord 0x70C data)

/-- CU_ATTACH (R380): CU_ATTACH_EN = 1. -/
def execCuAttach (data : Word) (s : State) : Host.Outcome State Fault Refusal := .next (s.writeWord 0x802 data)

/-- CU_DETACH (R382): CU_ATTACH_EN = 0. -/
def execCuDetach (data : Word) (s : State) : Host.Outcome State Fault Refusal := .next (s.writeWord 0x802 data)

/-- CU_LEVEL_WRITE (R388): CU_LEVEL. -/
def execCuLevelWrite (data : Word) (s : State) : Host.Outcome State Fault Refusal := .next (s.writeWord 0x803 data)

/-- CU_RANGE_CHANGE (R384): CU_CFG. -/
def execCuRangeChange (data : Word) (s : State) : Host.Outcome State Fault Refusal := .next (s.writeWord 0x801 data)

/-- CU_FAULT_CLEAR (R386): the W1C bits of CU_STAT. -/
def execCuFaultClear (data : Word) (s : State) : Host.Outcome State Fault Refusal := .next (s.writeWord 0x809 data)

/-- CU_WDATA_WRITE (R390): CU_WDATA. -/
def execCuWdataWrite (data : Word) (s : State) : Host.Outcome State Fault Refusal := .next (s.writeWord 0x810 data)

/-- CU_MEAS_START (R391): MEAS of CU_CTL. -/
def execCuMeasStart (data : Word) (s : State) : Host.Outcome State Fault Refusal := .next (s.writeWord 0x808 data)

/-- CU_MEAS_STOP (R393): STOP of CU_CTL. -/
def execCuMeasStop (data : Word) (s : State) : Host.Outcome State Fault Refusal := .next (s.writeWord 0x808 data)

/-- AX_START (R399): START of AX_CTL. -/
def execAxStart (data : Word) (s : State) : Host.Outcome State Fault Refusal := .next (s.writeWord 0x884 data)

/-- AX_DISCOVER (R405): DISCOVER of AX_FLCTL. -/
def execAxDiscover (data : Word) (s : State) : Host.Outcome State Fault Refusal := .next (s.writeWord 0x8A2 data)

/-- AX_FLADDR_WRITE (R406): AX_FLADDR. -/
def execAxFladdrWrite (data : Word) (s : State) : Host.Outcome State Fault Refusal := .next (s.writeWord 0x8A1 data)

/-- AX_FLDROP (R409): DROP of AX_FLCTL. -/
def execAxFldrop (data : Word) (s : State) : Host.Outcome State Fault Refusal := .next (s.writeWord 0x8A2 data)

/-- BOOT_SKIP (R421, R428): SKIP of GL_BOOTCTL. -/
def execBootSkip (data : Word) (s : State) : Host.Outcome State Fault Refusal := .next (s.writeWord 0x011 data)

/-- BOOT_RELOAD (R424, R428): RELOAD of GL_BOOTCTL. -/
def execBootReload (data : Word) (s : State) : Host.Outcome State Fault Refusal := .next (s.writeWord 0x011 data)

/-- BOOT_VERNISSAGE (R424, R428): VERNISSAGE of GL_BOOTCTL. -/
def execBootVernissage (data : Word) (s : State) : Host.Outcome State Fault Refusal := .next (s.writeWord 0x011 data)

/-- SOFT_RESET (R438 to R440): SOFT of PW_RSTCTL. -/
def execSoftReset (data : Word) (s : State) : Host.Outcome State Fault Refusal := .next (s.writeWord 0x120 data)

/-- CORE_RESET (R438 to R440): CORE of PW_RSTCTL. -/
def execCoreReset (data : Word) (s : State) : Host.Outcome State Fault Refusal := .next (s.writeWord 0x120 data)

/-- HOST_RESET (R438 to R441): HOST of PW_RSTCTL. -/
def execHostReset (data : Word) (s : State) : Host.Outcome State Fault Refusal := .next (s.writeWord 0x120 data)

/-- HINGE_RESET (R438 to R440): HINGE of PW_RSTCTL. -/
def execHingeReset (data : Word) (s : State) : Host.Outcome State Fault Refusal := .next (s.writeWord 0x120 data)

/-- MEM_RESET (R438 to R440): MEM0 and MEM1 of PW_RSTCTL. -/
def execMemReset (data : Word) (s : State) : Host.Outcome State Fault Refusal := .next (s.writeWord 0x120 data)

/-- OCT_RESET (R438, R439, R442): OCT of PW_RSTCTL. -/
def execOctReset (data : Word) (s : State) : Host.Outcome State Fault Refusal := .next (s.writeWord 0x120 data)

/-- AL_CUT (R456): CUT of AL_CTL. -/
def execAlCut (data : Word) (s : State) : Host.Outcome State Fault Refusal := .next (s.writeWord 0x1C1 data)

/-- PALETTE_WRITE (R65, R66): word 0x301 + k of the entry PL_SEL names. -/
def execPaletteWrite (k : Fin 4) (data : Word) (s : State) : Host.Outcome State Fault Refusal :=
  .next (s.writeWord (BitVec.ofNat 12 (0x301 + k.val)) data)

/-- ST_PINCFG_WRITE (R336, R338): ST_PINCFGk of the station ST_SEL names. -/
def execStPincfgWrite (k : Fin 4) (data : Word) (s : State) : Host.Outcome State Fault Refusal :=
  .next (s.writeWord (BitVec.ofNat 12 (0x601 + k.val)) data)

/-- LEVEL_CODE_WRITE (R348 to R350): ST_LGVOH, ST_LGVOL, ST_LGVTHH or ST_LGVTHL. -/
def execLevelCodeWrite (k : Fin 4) (data : Word) (s : State) : Host.Outcome State Fault Refusal :=
  .next (s.writeWord (BitVec.ofNat 12 (0x611 + k.val)) data)

/-- PW_CFG_WRITE (R446): PW_OCTCFG of an octant, or PW_MEMCFG. -/
def execPwCfgWrite (oct : Option (Fin 8)) (data : Word) (s : State) : Host.Outcome State Fault Refusal :=
  .next (s.writeWord (match oct with | some o => BitVec.ofNat 12 (0x108 + o.val) | none => 0x101) data)

/-- AX_ABORT (R401): ABORT of AX_CTL; `bits` are what MISO returned up to the abort. -/
def execAxAbort (data : Word) (bits : List Bool) (s : State) : Host.Outcome State Fault Refusal :=
  .next (s.writeBits 0x884 data bits)

/-- A host access to a target page is answered (R206, R417): the link is up and Gesso has ended. -/
def State.hostReaches (s : State) : Bool := s.running && s.link.up

/-- CA_SETPEND (R275, R288): SETPEND of CA_SCTL, or the host's software-set word of a target page, whose bits [11:0] name the
source. -/
def execCaSetpend (host : Option (Fin 16)) (data : Word) (s : State) : Host.Outcome State Fault Refusal :=
  match host with
  | none => .next (s.writeWord 0x204 data)
  | some t => .next (if s.hostReaches then s.hostSetpend t.val (data.toNat % 4096) else s)

/-- CA_PRIV_SET (R275, R288, R292): 1s written to CA_PRIV, or to the PRIV word of a target page. -/
def execCaPrivSet (host : Option (Fin 16)) (data : Word) (s : State) : Host.Outcome State Fault Refusal :=
  match host with
  | none => .next (s.writeWord 0x22C data)
  | some t => .next (if s.hostReaches then caAct s t.val 0x22C data else s)

/-- CA_EOI (R279, R288): CA_EOI, or the EOI word of a target page. -/
def execCaEoi (host : Option (Fin 16)) (data : Word) (s : State) : Host.Outcome State Fault Refusal :=
  match host with
  | none => .next (s.writeWord 0x229 data)
  | some t => .next (if s.hostReaches then s.endOfInterrupt t.val (Reg.CA_EOI.get data) else s)

end Sys2Proof.Machine
end

