-- ==== Sys2Proof/Machine/Dispatch.lean ====
section
/-!
DEFINITION. The effect of each command: one arm per constructor, each one call of its meaning.
-/
namespace Sys2Proof.Machine

/-- The effect of a command on everything but the queue. -/
def exec (i : Instr) (s : State) : Host.Outcome State Fault Refusal :=
  match i with
  | .por strap => Sys2Proof.Machine.execPor strap s
  | .pllLock => Sys2Proof.Machine.execPllLock s
  | .fuseReadDone corrected failRows failed => Sys2Proof.Machine.execFuseReadDone corrected failRows failed s
  | .gessoEnd sioFail hbmFail sineOk => Sys2Proof.Machine.execGessoEnd sioFail hbmFail sineOk s
  | .sioLinkFail d => Sys2Proof.Machine.execSioLinkFail d s
  | .hbmFault h => Sys2Proof.Machine.execHbmFault h s
  | .lossOfLock => Sys2Proof.Machine.execLossOfLock s
  | .hostWriteDiscard bar2 offset => Sys2Proof.Machine.execHostWriteDiscard bar2 offset s
  | .hostReadUnimpl bar2 offset n => Sys2Proof.Machine.execHostReadUnimpl bar2 offset n s
  | .statusMirrorRead offset n => Sys2Proof.Machine.execStatusMirrorRead offset n s
  | .tbNowRead => Sys2Proof.Machine.execTbNowRead s
  | .syncLastRead => Sys2Proof.Machine.execSyncLastRead s
  | .calRun data => Sys2Proof.Machine.execCalRun data s
  | .calMeasureDone fails => Sys2Proof.Machine.execCalMeasureDone fails s
  | .syncInEdge level u => Sys2Proof.Machine.execSyncInEdge level u s
  | .syncQualified => Sys2Proof.Machine.execSyncQualified s
  | .solsticeApply => Sys2Proof.Machine.execSolsticeApply s
  | .solArm data => Sys2Proof.Machine.execSolArm data s
  | .solCancel data => Sys2Proof.Machine.execSolCancel data s
  | .syncDlyWrite data => Sys2Proof.Machine.execSyncDlyWrite data s
  | .pairofsWindow sum => Sys2Proof.Machine.execPairofsWindow sum s
  | .frArm data => Sys2Proof.Machine.execFrArm data s
  | .frescoLatch => Sys2Proof.Machine.execFrescoLatch s
  | .frCancel data => Sys2Proof.Machine.execFrCancel data s
  | .frDataRead => Sys2Proof.Machine.execFrDataRead s
  | .frRelease data => Sys2Proof.Machine.execFrRelease data s
  | .paletteWrite k data => Sys2Proof.Machine.execPaletteWrite k data s
  | .rxPaletteSelect data => Sys2Proof.Machine.execRxPaletteSelect data s
  | .paletteBoundary p => Sys2Proof.Machine.execPaletteBoundary p s
  | .pinTransition q high glitch x1 x2 => Sys2Proof.Machine.execPinTransition q high glitch x1 x2 s
  | .edgeEventAtCore p => Sys2Proof.Machine.execEdgeEventAtCore p s
  | .stopBitCheck p => Sys2Proof.Machine.execStopBitCheck p s
  | .breakDetect p => Sys2Proof.Machine.execBreakDetect p s
  | .edgeOnlyFallback p => Sys2Proof.Machine.execEdgeOnlyFallback p s
  | .rxReacq data => Sys2Proof.Machine.execRxReacq data s
  | .rxEnable data => Sys2Proof.Machine.execRxEnable data s
  | .rxDisable data => Sys2Proof.Machine.execRxDisable data s
  | .fmGateClose p => Sys2Proof.Machine.execFmGateClose p s
  | .fmRestart data => Sys2Proof.Machine.execFmRestart data s
  | .rxperRead => Sys2Proof.Machine.execRxperRead s
  | .fmResultRead => Sys2Proof.Machine.execFmResultRead s
  | .provExpire => Sys2Proof.Machine.execProvExpire s
  | .doorbell n value => Sys2Proof.Machine.execDoorbell n value s
  | .descriptorFetch n bytes => Sys2Proof.Machine.execDescriptorFetch n bytes s
  | .txDataFetched p bytes => Sys2Proof.Machine.execTxDataFetched p bytes s
  | .txCharStart p => Sys2Proof.Machine.execTxCharStart p s
  | .timedDecide p => Sys2Proof.Machine.execTimedDecide p s
  | .txCharEnd p => Sys2Proof.Machine.execTxCharEnd p s
  | .txEnable data => Sys2Proof.Machine.execTxEnable data s
  | .txDisable data => Sys2Proof.Machine.execTxDisable data s
  | .txFlush data => Sys2Proof.Machine.execTxFlush data s
  | .txResume data => Sys2Proof.Machine.execTxResume data s
  | .cueClrhist data => Sys2Proof.Machine.execCueClrhist data s
  | .configWrite c => Sys2Proof.Machine.execConfigWrite c s
  | .ringEnable data => Sys2Proof.Machine.execRingEnable data s
  | .ringDisable data => Sys2Proof.Machine.execRingDisable data s
  | .ringDrainDone n => Sys2Proof.Machine.execRingDrainDone n s
  | .readCompletionFail n status address => Sys2Proof.Machine.execReadCompletionFail n status address s
  | .recordBuild p => Sys2Proof.Machine.execRecordBuild p s
  | .recordEligible n => Sys2Proof.Machine.execRecordEligible n s
  | .writeOpportunity => Sys2Proof.Machine.execWriteOpportunity s
  | .aspmL1Request => Sys2Proof.Machine.execAspmL1Request s
  | .linkDown => Sys2Proof.Machine.execLinkDown s
  | .linkUp speed width flit => Sys2Proof.Machine.execLinkUp speed width flit s
  | .perstAssert => Sys2Proof.Machine.execPerstAssert s
  | .perstDeassert => Sys2Proof.Machine.execPerstDeassert s
  | .wakeRequest => Sys2Proof.Machine.execWakeRequest s
  | .flushReadIssue => Sys2Proof.Machine.execFlushReadIssue s
  | .flushReadComplete => Sys2Proof.Machine.execFlushReadComplete s
  | .flushReadFail status => Sys2Proof.Machine.execFlushReadFail status s
  | .recordRewrite => Sys2Proof.Machine.execRecordRewrite s
  | .breachOpen n => Sys2Proof.Machine.execBreachOpen n s
  | .breachIntervalLimit n => Sys2Proof.Machine.execBreachIntervalLimit n s
  | .fairnessOpen n => Sys2Proof.Machine.execFairnessOpen n s
  | .gapIntervalLimit p partner => Sys2Proof.Machine.execGapIntervalLimit p partner s
  | .gapPlaceFree n => Sys2Proof.Machine.execGapPlaceFree n s
  | .heartbeatSend => Sys2Proof.Machine.execHeartbeatSend s
  | .heartbeatRecv state role c epoch busy pos => Sys2Proof.Machine.execHeartbeatRecv state role c epoch busy pos s
  | .heartbeatTimeout => Sys2Proof.Machine.execHeartbeatTimeout s
  | .hingeRetrainTimeout => Sys2Proof.Machine.execHingeRetrainTimeout s
  | .hingeUp => Sys2Proof.Machine.execHingeUp s
  | .hgRoleWrite data => Sys2Proof.Machine.execHgRoleWrite data s
  | .hgEngage data => Sys2Proof.Machine.execHgEngage data s
  | .engageRequestRecv image => Sys2Proof.Machine.execEngageRequestRecv image s
  | .engageComplete => Sys2Proof.Machine.execEngageComplete s
  | .engageTimeout => Sys2Proof.Machine.execEngageTimeout s
  | .hgDisengage data => Sys2Proof.Machine.execHgDisengage data s
  | .hgRelease data => Sys2Proof.Machine.execHgRelease data s
  | .watchdogExpire => Sys2Proof.Machine.execWatchdogExpire s
  | .reloRelease => Sys2Proof.Machine.execReloRelease s
  | .mirrorWriteRecv addr inst data => Sys2Proof.Machine.execMirrorWriteRecv addr inst data s
  | .mirrorAckRecv status => Sys2Proof.Machine.execMirrorAckRecv status s
  | .decisionBlockClose p => Sys2Proof.Machine.execDecisionBlockClose p s
  | .decisionBlockRecv p codes crc => Sys2Proof.Machine.execDecisionBlockRecv p codes crc s
  | .fullRecordRecv r => Sys2Proof.Machine.execFullRecordRecv r s
  | .blockAckRecv a => Sys2Proof.Machine.execBlockAckRecv a s
  | .recordMarkRecv n r => Sys2Proof.Machine.execRecordMarkRecv n r s
  | .hingeDoorbellRecv n value => Sys2Proof.Machine.execHingeDoorbellRecv n value s
  | .hingeDescriptorRecv d => Sys2Proof.Machine.execHingeDescriptorRecv d s
  | .hingeEventRecv p e => Sys2Proof.Machine.execHingeEventRecv p e s
  | .hingeProvRecv p r serial shown => Sys2Proof.Machine.execHingeProvRecv p r serial shown s
  | .commitPointRecv n count => Sys2Proof.Machine.execCommitPointRecv n count s
  | .armStateRecv q m => Sys2Proof.Machine.execArmStateRecv q m s
  | .frescoValuesRecv values => Sys2Proof.Machine.execFrescoValuesRecv values s
  | .releaseNoticeRecv => Sys2Proof.Machine.execReleaseNoticeRecv s
  | .reliReleased => Sys2Proof.Machine.execReliReleased s
  | .claimQualify => Sys2Proof.Machine.execClaimQualify s
  | .claimHeld => Sys2Proof.Machine.execClaimHeld s
  | .octantDriverEnable o => Sys2Proof.Machine.execOctantDriverEnable o s
  | .claimBlocked => Sys2Proof.Machine.execClaimBlocked s
  | .claimRetry => Sys2Proof.Machine.execClaimRetry s
  | .coalesceRipe n => Sys2Proof.Machine.execCoalesceRipe n s
  | .stationInputChange st level => Sys2Proof.Machine.execStationInputChange st level s
  | .caSetpend host data => Sys2Proof.Machine.execCaSetpend host data s
  | .caPrivSet host data => Sys2Proof.Machine.execCaPrivSet host data s
  | .caClrpend data => Sys2Proof.Machine.execCaClrpend data s
  | .caSourceDisable data => Sys2Proof.Machine.execCaSourceDisable data s
  | .caClaimRead host => Sys2Proof.Machine.execCaClaimRead host s
  | .caEoi host data => Sys2Proof.Machine.execCaEoi host data s
  | .messageDecision t => Sys2Proof.Machine.execMessageDecision t s
  | .frameBegin => Sys2Proof.Machine.execFrameBegin s
  | .frameEnd => Sys2Proof.Machine.execFrameEnd s
  | .emptyFrame => Sys2Proof.Machine.execEmptyFrame s
  | .chainNop => Sys2Proof.Machine.execChainNop s
  | .chainRead addr count => Sys2Proof.Machine.execChainRead addr count s
  | .chainWrite addr data => Sys2Proof.Machine.execChainWrite addr data s
  | .chainSelect data => Sys2Proof.Machine.execChainSelect data s
  | .chainAssign data => Sys2Proof.Machine.execChainAssign data s
  | .chainrst => Sys2Proof.Machine.execChainrst s
  | .chRstnAssert => Sys2Proof.Machine.execChRstnAssert s
  | .responseReady => Sys2Proof.Machine.execResponseReady s
  | .errlogRead => Sys2Proof.Machine.execErrlogRead s
  | .pinSwitch q => Sys2Proof.Machine.execPinSwitch q s
  | .stPincfgWrite k data => Sys2Proof.Machine.execStPincfgWrite k data s
  | .stUnhold data => Sys2Proof.Machine.execStUnhold data s
  | .mismatchDetect q => Sys2Proof.Machine.execMismatchDetect q s
  | .gpioOutWrite data => Sys2Proof.Machine.execGpioOutWrite data s
  | .gpinChange q level => Sys2Proof.Machine.execGpinChange q level s
  | .levelCodeWrite k data => Sys2Proof.Machine.execLevelCodeWrite k data s
  | .spanChangeStart data => Sys2Proof.Machine.execSpanChangeStart data s
  | .spanOldZero g => Sys2Proof.Machine.execSpanOldZero g s
  | .spanApply g => Sys2Proof.Machine.execSpanApply g s
  | .spanCodesLoad g => Sys2Proof.Machine.execSpanCodesLoad g s
  | .samplerResume g levels => Sys2Proof.Machine.execSamplerResume g levels s
  | .spanChangeEnd g => Sys2Proof.Machine.execSpanChangeEnd g s
  | .monitorTimeout q => Sys2Proof.Machine.execMonitorTimeout q s
  | .lmForce data => Sys2Proof.Machine.execLmForce data s
  | .lmArm data => Sys2Proof.Machine.execLmArm data s
  | .lmDisarm data => Sys2Proof.Machine.execLmDisarm data s
  | .monitorArmed q => Sys2Proof.Machine.execMonitorArmed q s
  | .triggerAdmission q => Sys2Proof.Machine.execTriggerAdmission q s
  | .segmentComplete q => Sys2Proof.Machine.execSegmentComplete q s
  | .rearmEnd q => Sys2Proof.Machine.execRearmEnd q s
  | .uploadStart q => Sys2Proof.Machine.execUploadStart q s
  | .cuAttach data => Sys2Proof.Machine.execCuAttach data s
  | .cuSwitchClosed u => Sys2Proof.Machine.execCuSwitchClosed u s
  | .cuDetach data => Sys2Proof.Machine.execCuDetach data s
  | .cuSwitchOpen u => Sys2Proof.Machine.execCuSwitchOpen u s
  | .cuLevelWrite data => Sys2Proof.Machine.execCuLevelWrite data s
  | .cuRangeChange data => Sys2Proof.Machine.execCuRangeChange data s
  | .cuRangeOutputZero u => Sys2Proof.Machine.execCuRangeOutputZero u s
  | .cuRangeApply u => Sys2Proof.Machine.execCuRangeApply u s
  | .cuRangeLevelApply u => Sys2Proof.Machine.execCuRangeLevelApply u s
  | .cuRangeClose u => Sys2Proof.Machine.execCuRangeClose u s
  | .cuComplianceFault u => Sys2Proof.Machine.execCuComplianceFault u s
  | .cuThermalFault u temp => Sys2Proof.Machine.execCuThermalFault u temp s
  | .cuFaultClear data => Sys2Proof.Machine.execCuFaultClear data s
  | .sineUpdate u => Sys2Proof.Machine.execSineUpdate u s
  | .waveSample u => Sys2Proof.Machine.execWaveSample u s
  | .cuWdataWrite data => Sys2Proof.Machine.execCuWdataWrite data s
  | .cuMeasStart data => Sys2Proof.Machine.execCuMeasStart data s
  | .cuMeasDone u codes => Sys2Proof.Machine.execCuMeasDone u codes s
  | .cuMeasStop data => Sys2Proof.Machine.execCuMeasStop data s
  | .cuMresRead => Sys2Proof.Machine.execCuMresRead s
  | .axStart data => Sys2Proof.Machine.execAxStart data s
  | .axTransferDone m bits => Sys2Proof.Machine.execAxTransferDone m bits s
  | .axSelectRelease m => Sys2Proof.Machine.execAxSelectRelease m s
  | .axHeldTimeout m => Sys2Proof.Machine.execAxHeldTimeout m s
  | .axAbort data bits => Sys2Proof.Machine.execAxAbort data bits s
  | .axDiscover data => Sys2Proof.Machine.execAxDiscover data s
  | .discoveryDone ok major minor dens => Sys2Proof.Machine.execDiscoveryDone ok major minor dens s
  | .axFladdrWrite data => Sys2Proof.Machine.execAxFladdrWrite data s
  | .flashBlockLoaded words => Sys2Proof.Machine.execFlashBlockLoaded words s
  | .flashApertureRead k => Sys2Proof.Machine.execFlashApertureRead k s
  | .axFldrop data => Sys2Proof.Machine.execAxFldrop data s
  | .flashContTimeout => Sys2Proof.Machine.execFlashContTimeout s
  | .imageHeaderCheck header => Sys2Proof.Machine.execImageHeaderCheck header s
  | .imageReadEnd image => Sys2Proof.Machine.execImageReadEnd image s
  | .signatureVerified => Sys2Proof.Machine.execSignatureVerified s
  | .imageApply => Sys2Proof.Machine.execImageApply s
  | .bootSkip data => Sys2Proof.Machine.execBootSkip data s
  | .bootReload data => Sys2Proof.Machine.execBootReload data s
  | .bootVernissage data => Sys2Proof.Machine.execBootVernissage data s
  | .stateDigestDone => Sys2Proof.Machine.execStateDigestDone s
  | .vernissage => Sys2Proof.Machine.execVernissage s
  | .octantTakePins o => Sys2Proof.Machine.execOctantTakePins o s
  | .octantIdleEnter o => Sys2Proof.Machine.execOctantIdleEnter o s
  | .octantNapEnter o => Sys2Proof.Machine.execOctantNapEnter o s
  | .octantDarkEnter o => Sys2Proof.Machine.execOctantDarkEnter o s
  | .octantEntryDone o => Sys2Proof.Machine.execOctantEntryDone o s
  | .octantRun o => Sys2Proof.Machine.execOctantRun o s
  | .domainSleepEnter d into => Sys2Proof.Machine.execDomainSleepEnter d into s
  | .domainWake d => Sys2Proof.Machine.execDomainWake d s
  | .pwCfgWrite oct data => Sys2Proof.Machine.execPwCfgWrite oct data s
  | .softReset data => Sys2Proof.Machine.execSoftReset data s
  | .coreReset data => Sys2Proof.Machine.execCoreReset data s
  | .hostReset data => Sys2Proof.Machine.execHostReset data s
  | .hingeReset data => Sys2Proof.Machine.execHingeReset data s
  | .memReset data => Sys2Proof.Machine.execMemReset data s
  | .octReset data => Sys2Proof.Machine.execOctReset data s
  | .lapseReset => Sys2Proof.Machine.execLapseReset s
  | .thermalWarn core sio hbm => Sys2Proof.Machine.execThermalWarn core sio hbm s
  | .thermalTrip die => Sys2Proof.Machine.execThermalTrip die s
  | .lapseQueue => Sys2Proof.Machine.execLapseQueue s
  | .checkpointCut => Sys2Proof.Machine.execCheckpointCut s
  | .alCut data => Sys2Proof.Machine.execAlCut data s
  | .checkpointSigned => Sys2Proof.Machine.execCheckpointSigned s
  | .certDataRead => Sys2Proof.Machine.execCertDataRead s
  | .imageidRead => Sys2Proof.Machine.execImageidRead s
  | .disstampRead => Sys2Proof.Machine.execDisstampRead s
  | .tkstampRead => Sys2Proof.Machine.execTkstampRead s
  | .lmLastRead => Sys2Proof.Machine.execLmLastRead s
  | .alCmtRead => Sys2Proof.Machine.execAlCmtRead s
  | .porNFall => Sys2Proof.Machine.execPorNFall s
  | .vstPFall => Sys2Proof.Machine.execVstPFall s
  | .chClkRisingEdge din => Sys2Proof.Machine.execChClkRisingEdge din s
  | .hingeRetraining => Sys2Proof.Machine.execHingeRetraining s
  | .refclkToggleChange ok => Sys2Proof.Machine.execRefclkToggleChange ok s

end Sys2Proof.Machine
end

