-- ==== Sys2Proof/Machine/Step.lean ====
section
/-!
DEFINITION. One step: the command at the front of the queue takes its effect; with none waiting, one DCLK edge passes.
-/
namespace Sys2Proof.Machine

/-- One step of the block. On an empty queue one DCLK edge passes when DCLK is valid, and C advances by 16 ticks (R35;
DESIGN CHOICE, log entry 1). -/
def step (s : State) : Host.Outcome State Fault Refusal :=
  match s.pending with
  | c :: rest => exec c { s with pending := rest }
  | [] => if s.clocked then .next (s.advance (s.now + 1)) else .next s

/-- The state with the command a word spells put at the front of its queue; unchanged where the word spells none. -/
def State.withFetchWord (s : State) (nbits w : Nat) : State :=
  match decodeTableWord nbits w with
  | some c => { s with pending := c :: s.pending }
  | none => s

end Sys2Proof.Machine
end

