-- ==== Sys2Proof/Safety.lean ====
section
/-!
DEFINITION. What claims call a sound state, a safe outcome, an accepted or a refused slot, and an answered one.
-/
namespace Sys2Proof.Machine

/-- The register file is in canonical form: keys rise, and no entry holds its reset value. -/
def State.regsWf (s : State) : Bool := Sparse.wf resetWord s.regs

/-- An outcome is safe when it is a next state: no command of the device stops it. -/
def Safe (o : Host.Outcome State Fault Refusal) : Prop := ∃ t, o = .next t

/-- The chain executes a slot of one word now (R300, R313, R323, R328): no mirrored write waits for the peer, the slot length
is that of one word, and no new length waits. -/
def State.slotReady (s : State) : Bool :=
  s.chainOn && s.hinge.mirror.isNone && s.chain.len == 0 && s.chain.lenNext.isNone

/-- A single WRITE passes every check of R318 here, and this member applies it at once: it is not a mirrored write of an
engaged or degraded pair (R249, R250). -/
def State.takesWrite (s : State) (w : Nat) (d : Word) : Bool :=
  s.slotReady && (s.checkWrite w [d] true).isNone &&
  (!mirroredWrite w d || (s.hinge.state != .engaged && s.hinge.state != .degraded))

/-- A single WRITE is taken here, and its SEL does not name every instance (R9). -/
def State.takesOne (s : State) (w : Nat) (d : Word) : Bool := s.takesWrite w d && !s.selAll w

/-- A single WRITE is refused here with a code (R318). -/
def State.refusesWrite (s : State) (w : Nat) (d : Word) (c : Code) : Bool :=
  s.slotReady && (s.checkWrite w [d] true).any (fun x => x.1 == c)

/-- A single READ is executed here and refused by nothing (R318): a word of the map, one instance, a state that allows it,
and a device that is not in Broadcast mode. -/
def State.takesRead (s : State) (w : Nat) : Bool :=
  s.slotReady && s.chain.mode != .broadcast && implemented w && !s.selAll w && s.readCode (s.selOf w) w == Code.ok

/-- The slot just executed left a response with this code and data (R310, R311). -/
def State.answers (t : State) (c : Code) (data : Word) : Prop :=
  ∃ r, t.chain.resp = some r ∧ r.status.truncate 4 = c ∧ r.data = data

/-- Every register reads as before but the words listed, each by instance and word. -/
def State.regsSameBut (s t : State) (l : List (Nat × Nat)) : Prop :=
  ∀ i w, w < 4096 → (i, w) ∉ l → t.reg i w = s.reg i w

/-- The chain part of a state is all that may differ: what a refused slot leaves (R318, R322, R329). CH_LASTST is the one
register it writes. -/
def State.sameButChain (s t : State) : Prop :=
  t = { s with chain := t.chain, regs := t.regs } ∧ s.regsSameBut t [(0, 0x047)]

/-- The word and the data of a command that is one single WRITE of the chain. -/
def singleWrite : Instr → Option (BitVec 12 × Word)
  | .calRun d => some (0x08C, d)
  | .solArm d => some (0x085, d)
  | .solCancel d => some (0x085, d)
  | .syncDlyWrite d => some (0x086, d)
  | .frArm d => some (0x092, d)
  | .frCancel d => some (0x092, d)
  | .frRelease d => some (0x092, d)
  | .paletteWrite k d => some (BitVec.ofNat 12 (0x301 + k.val), d)
  | .rxPaletteSelect d => some (0x401, d)
  | .rxReacq d => some (0x402, d)
  | .rxEnable d => some (0x401, d)
  | .rxDisable d => some (0x401, d)
  | .fmRestart d => some (0x402, d)
  | .txEnable d => some (0x414, d)
  | .txDisable d => some (0x414, d)
  | .txFlush d => some (0x415, d)
  | .txResume d => some (0x415, d)
  | .cueClrhist d => some (0x901, d)
  | .ringEnable d => some (0x501, d)
  | .ringDisable d => some (0x501, d)
  | .hgRoleWrite d => some (0x180, d)
  | .hgEngage d => some (0x181, d)
  | .hgDisengage d => some (0x181, d)
  | .hgRelease d => some (0x181, d)
  | .caSetpend none d => some (0x204, d)
  | .caPrivSet none d => some (0x22C, d)
  | .caClrpend d => some (0x204, d)
  | .caSourceDisable d => some (0x201, d)
  | .caEoi none d => some (0x229, d)
  | .stPincfgWrite k d => some (BitVec.ofNat 12 (0x601 + k.val), d)
  | .stUnhold d => some (0x60C, d)
  | .gpioOutWrite d => some (0x605, d)
  | .levelCodeWrite k d => some (BitVec.ofNat 12 (0x611 + k.val), d)
  | .spanChangeStart d => some (0x610, d)
  | .lmForce d => some (0x70C, d)
  | .lmArm d => some (0x70C, d)
  | .lmDisarm d => some (0x70C, d)
  | .cuAttach d => some (0x802, d)
  | .cuDetach d => some (0x802, d)
  | .cuLevelWrite d => some (0x803, d)
  | .cuRangeChange d => some (0x801, d)
  | .cuFaultClear d => some (0x809, d)
  | .cuWdataWrite d => some (0x810, d)
  | .cuMeasStart d => some (0x808, d)
  | .cuMeasStop d => some (0x808, d)
  | .axStart d => some (0x884, d)
  | .axDiscover d => some (0x8A2, d)
  | .axFladdrWrite d => some (0x8A1, d)
  | .axFldrop d => some (0x8A2, d)
  | .bootSkip d => some (0x011, d)
  | .bootReload d => some (0x011, d)
  | .bootVernissage d => some (0x011, d)
  | .pwCfgWrite (some o) d => some (BitVec.ofNat 12 (0x108 + o.val), d)
  | .pwCfgWrite none d => some (0x101, d)
  | .softReset d => some (0x120, d)
  | .coreReset d => some (0x120, d)
  | .hostReset d => some (0x120, d)
  | .hingeReset d => some (0x120, d)
  | .memReset d => some (0x120, d)
  | .octReset d => some (0x120, d)
  | .alCut d => some (0x1C1, d)
  | _ => none

end Sys2Proof.Machine
end

