-- ==== Sys2Proof/WellFormed.lean ====
section
/-!
DEFINITION. The commands the outside can send: bounds of addresses, lengths of data, and the order of the crossings of a
transition. Every other operand is bounded by its type.
-/
namespace Sys2Proof

/-- Numbers that rise strictly. -/
def rising : List Nat → Bool
  | a :: b :: t => decide (a < b) && rising (b :: t)
  | _ => true

/-- The delay lines in order: three of each pin, then those of SYNC (R39). -/
def calCode : Machine.CalLine → Nat
  | .upper q => 3 * q.val
  | .lower q => 3 * q.val + 1
  | .driver q => 3 * q.val + 2
  | .syncIn => 12288
  | .syncOut => 12289

/-- Well-formed commands (R23 to R25, R72, R128, R321, R346, R353, R391, R399, R406, R414, R421, R243). -/
def Instr.wf : Instr → Bool
  | .fuseReadDone corrected failRows _ => decide (corrected.toNat + failRows.toNat ≤ 1024)
  | .hostWriteDiscard bar2 write => decide (write.offset < (if bar2 then 262144 else 1048576))
  | .hostReadUnimpl bar2 offset n => decide (0 < n ∧ offset + n ≤ (if bar2 then 262144 else 1048576))
  | .statusMirrorRead offset n => decide (0 < n ∧ offset + n ≤ 65536)
  | .calMeasureDone fails => rising (fails.map calCode)
  | .pinTransition _ _ _ x1 x2 => !(x2 - x1).msb
  | .descriptorFetch _ bytes => decide (bytes.length = 64)
  | .txDataFetched _ bytes => decide (0 < bytes.length ∧ bytes.length < 65536)
  | .decisionBlockRecv _ codes _ => decide (codes.length ≤ 16)
  | .chainRead _ count => decide (1 ≤ count ∧ count ≤ 127)
  | .chainWrite _ data => decide (1 ≤ data.length ∧ data.length ≤ 127)
  | .samplerResume g levels => levels.all (fun x => decide (x.1.val / 64 = g.val)) && rising (levels.map (·.1.val))
  | .cuMeasDone _ codes => decide (codes.length ≤ 1048576)
  | .axTransferDone _ bits => decide (bits.length ≤ 4096)
  | .axAbort _ bits => decide (bits.length ≤ 4096)
  | .flashBlockLoaded words => decide (words.length = 64)
  | .imageHeaderCheck header => decide (header.length = 256)
  | _ => true

end Sys2Proof
end

