-- ==== Sys2Proof/Certificates/Slice0/Obligations.lean ====
section
/-!
DEFINITION. What is claimed of the device, in terms of its commands: the step, what every command keeps, the answers of the
chain, and what the commands of each chapter do. A statement that rests on a choice of the model says which log entry makes it.
-/

open Sys2Proof Sys2Proof.Machine


/-! ### The step and every command -/

/-- With a command at the front of its queue, a step runs that command on the state with the rest of the queue. With no
command waiting, a step lets one DCLK edge pass, at which C advances by 16 (R35), when DCLK is valid, and changes nothing
else; without DCLK it changes nothing. That an empty queue lets time pass is the model's choice (log entry 1). -/
def Obligations.StepRunsTheFrontCommandOrPassesOneEdge : Prop :=
  (∀ (s : State) (c : Instr) (rest : List Instr), s.pending = c :: rest → step s = exec c { s with pending := rest }) ∧
  (∀ s : State, s.pending = [] →
      (s.clocked = true → step s = .next { s with now := s.now + 1, c := s.c + 16 }) ∧
      (s.clocked = false → step s = .next s))

/-- Every command completes in every state, and leaves the queue of waiting commands as it is: no ordinary data stops the
device. -/
def Obligations.EveryCommandCompletes : Prop :=
  ∀ (i : Instr) (s : State), ∃ t, exec i s = .next t ∧ t.pending = s.pending

/-- Invariant of every step: the register file stays in its canonical form, so that equal registers are equal data. -/
def Obligations.EveryStepKeepsTheRegisterFile : Prop :=
  ∀ s t : State, s.regsWf = true → step s = .next t → t.regsWf = true

/-- The register file of the reset state is in canonical form, and its queue is empty. -/
def Obligations.ResetStateIsWellFormed : Prop :=
  State.reset.regsWf = true ∧ State.reset.pending = []

/-- C and time go together (R35): whatever a command does, DCLK edges never go back and C has advanced by 16 for each one that
passed, modulo 2^64. The four commands apart are the ones that begin the scale anew: power, the first lock, and a
Solstice. -/
def Obligations.CounterAdvancesSixteenPerEdge : Prop :=
  ∀ (i : Instr) (s t : State), exec i s = .next t →
    (∀ r, i ≠ .por r) → i ≠ .porNFall → i ≠ .pllLock → i ≠ .solsticeApply →
    s.now ≤ t.now ∧ t.c = s.c + BitVec.ofNat 64 (16 * (t.now - s.now))

/-! ### The chain: answers of single accesses -/

/-- A command that is one single WRITE, and that a check of R318 refuses, answers that code with data 0 and changes nothing
but the chain's own state. -/
def Obligations.RefusedWriteOnlyAnswers : Prop :=
  ∀ (i : Instr) (w : BitVec 12) (d : Word) (c : Code) (s : State), singleWrite i = some (w, d) →
    s.refusesWrite w.toNat d c = true → c ≠ Code.ok →
    ∃ t, exec i s = .next t ∧ t.answers c 0 ∧ s.sameButChain t

/-- A command that is one single WRITE, and that passes the checks of R318, is applied at once and answered OK with the word
as a read returns it, ready 48 DCLK later, or 256 for a SEL word (R320, R322), as long as the write leaves the device its
position. -/
def Obligations.AcceptedWriteAnswersOk : Prop :=
  ∀ (i : Instr) (w : BitVec 12) (d : Word) (s : State), singleWrite i = some (w, d) → s.takesWrite w.toNat d = true →
    ∃ t, exec i s = .next t ∧
      ((s.applyWrite [(w.toNat, d)] []).chain.assigned = true →
        t.answers Code.ok ((s.applyWrite [(w.toNat, d)] []).afterWrite w.toNat) ∧
        (s.applyWrite [(w.toNat, d)] []).sameButChain t) ∧
      ((s.applyWrite [(w.toNat, d)] []).chain.assigned = false → t = s.applyWrite [(w.toNat, d)] [])

/-- While the chain executes nothing (R300, R313), a command that is one single WRITE changes nothing. While a mirrored write
waits for the peer it is discarded and counted in CH_ERR2_BUSY (R323). In an engaged pair a mirrored single WRITE that
passes the checks is not applied: it goes to the peer and waits (R249). While the pair is degraded it is refused with
E_MIRROR (R250). -/
def Obligations.WriteIsNotAppliedHere : Prop :=
  (∀ (i : Instr) (w : BitVec 12) (d : Word) (s : State), singleWrite i = some (w, d) →
      (s.chainOn = false → exec i s = .next s) ∧
      (s.chainOn = true → s.hinge.mirror.isSome = true →
        ∃ t, exec i s = .next t ∧ t = { s with regs := t.regs } ∧ s.regsSameBut t [(0, 0x046)] ∧
          t.rd Reg.CH_ERR2_BUSY = min (s.rd Reg.CH_ERR2_BUSY + 1) 0xFFFF)) ∧
  (∀ (i : Instr) (w : BitVec 12) (d : Word) (s : State), singleWrite i = some (w, d) → s.slotReady = true →
      s.checkWrite w.toNat [d] true = none → mirroredWrite w.toNat d = true →
      (s.hinge.state = .engaged →
        ∃ t m, exec i s = .next t ∧ t = { s with hinge := { s.hinge with mirror := some m }, out := t.out } ∧
          m.addr = w ∧ m.data = [d] ∧ t.out = s.out ++ [.hinge (.mirror w m.inst [d])]) ∧
      (s.hinge.state = .degraded →
        ∃ t, exec i s = .next t ∧ t.answers Code.mirror 0 ∧ s.sameButChain t))

/-- A single READ of the low half of a value wider than a word answers the low half of the value that stands at that edge and
latches the high half of that same value: TB_NOW (R38), TB_SYNC_LAST (R62), GL_ERRLOG (R330), GL_IMAGEID (R427),
HG_DISSTAMP and HG_TKSTAMP (R266), LM_LAST (R376), AL_CMT (R460). A single READ that takes something with it: PT_RXPER_LO
latches the high half of the tracked period, PT_FM_PER_LO copies the whole result set to holding (R99), CU_MRES latches
CU_MSTAMP (R393), and AL_CERTDATA advances AL_CERTADDR (R460). FR_DATA_READ (R59): with FR_VALID 1 a read of TB_FR_DATA
answers the snapshot of the word and instance addressed, 0 at the word address 0xFFF, and advances the word address by 1,
which holds at 0xFFF; with FR_VALID 0 it returns E_STATE and advances nothing. FLASH_APERTURE_READ (R402, R407, R409): a
read of a word of AX_BUF answers the word that stands there, or is refused by the state with its code and answers that; it
changes nothing but the chain's own state. -/
def Obligations.ReadsLatchWhatTheyShow : Prop :=
  (∀ s : State,
      (s.takesRead 0x081 = true → ∃ t, exec .tbNowRead s = .next t ∧ t.answers Code.ok (s.c.truncate 32) ∧
        t.tb = { s.tb with nowHold := (s.c >>> 32).truncate 32 } ∧ t.view 0 0x082 = (s.c >>> 32).truncate 32) ∧
      (s.takesRead 0x088 = true → ∃ t, exec .syncLastRead s = .next t ∧ t.answers Code.ok (s.tb.syncLast.truncate 32) ∧
        t.tb = { s.tb with syncHold := (s.tb.syncLast >>> 32).truncate 32 }) ∧
      (s.takesRead 0x006 = true → ∃ t, exec .errlogRead s = .next t ∧ t.answers Code.ok (s.chain.errlog.truncate 32) ∧
        t.chain.errHold = (s.chain.errlog >>> 32).truncate 32 ∧ t.chain.errlog = s.chain.errlog) ∧
      (s.takesRead 0x014 = true → ∃ t, exec .imageidRead s = .next t ∧ t.answers Code.ok (s.boot.imageId.truncate 32) ∧
        t.reg 0 0x015 = (s.boot.imageId >>> 32).truncate 32 ∧ t.boot = s.boot) ∧
      (s.takesRead 0x188 = true → ∃ t, exec .disstampRead s = .next t ∧ t.answers Code.ok (s.hinge.disStamp.truncate 32) ∧
        t.hinge = { s.hinge with disHold := (s.hinge.disStamp >>> 32).truncate 32 }) ∧
      (s.takesRead 0x18D = true → ∃ t, exec .tkstampRead s = .next t ∧ t.answers Code.ok (s.hinge.tkStamp.truncate 32) ∧
        t.hinge = { s.hinge with tkHold := (s.hinge.tkStamp >>> 32).truncate 32 }) ∧
      (s.takesRead 0x711 = true → ∃ t, exec .lmLastRead s = .next t ∧
        t.answers Code.ok ((s.mon (s.selOf 0x711)).lastStamp.truncate 32) ∧
        t.mon (s.selOf 0x711) = { s.mon (s.selOf 0x711) with
          lastHold := ((s.mon (s.selOf 0x711)).lastStamp >>> 32).truncate 32 }) ∧
      (s.takesRead 0x1C3 = true → ∃ t, exec .alCmtRead s = .next t ∧
        t.answers Code.ok (BitVec.ofNat 32 s.almanac.committed) ∧
        t.almanac = { s.almanac with cmtHold := BitVec.ofNat 32 (s.almanac.committed / 2 ^ 32) })) ∧
  (∀ s : State,
      (s.takesRead 0x404 = true → ∃ t, exec .rxperRead s = .next t ∧ t.answers Code.ok (s.view (s.selOf 0x404) 0x404) ∧
        t.port (s.selOf 0x404) = { s.port (s.selOf 0x404) with
          perHold := BitVec.ofNat 16 ((s.port (s.selOf 0x404)).trk.period / 2 ^ 32) }) ∧
      (s.takesRead 0x407 = true → ∃ t, exec .fmResultRead s = .next t ∧
        t.answers Code.ok (s.view (s.selOf 0x407) 0x407) ∧
        t.port (s.selOf 0x407) = { s.port (s.selOf 0x407) with holding := s.meterShown (s.selOf 0x407) }) ∧
      (s.takesRead 0x80A = true → ∃ t, exec .cuMresRead s = .next t ∧ t.answers Code.ok (s.view (s.selOf 0x80A) 0x80A) ∧
        t.cu (s.selOf 0x80A) = { s.cu (s.selOf 0x80A) with mstampHold := (s.cu (s.selOf 0x80A)).mstamp }) ∧
      (s.takesRead 0x1E2 = true → ∃ t, exec .certDataRead s = .next t ∧ t.answers Code.ok (s.view 0 0x1E2) ∧
        t.rd Reg.AL_CERTADDR = (s.rd Reg.AL_CERTADDR + 1) % 2 ^ Reg.AL_CERTADDR.width ∧
        s.regsSameBut t [(0, 0x047), (0, Reg.AL_CERTADDR.word)])) ∧
  (∀ s : State, s.slotReady = true → s.chain.mode ≠ .broadcast →
      (s.on Reg.TB_STAT_FR_VALID = true → ∃ t, exec .frDataRead s = .next t ∧
        t.answers Code.ok (if s.rd Reg.TB_FR_ADDR_WORD = 0xFFF then 0
          else Sparse.get (fun _ => 0) s.tb.snap (s.rd Reg.TB_FR_ADDR_INST * 4096 + s.rd Reg.TB_FR_ADDR_WORD)) ∧
        t.rd Reg.TB_FR_ADDR_WORD = min (s.rd Reg.TB_FR_ADDR_WORD + 1) 0xFFF ∧
        t.rd Reg.TB_FR_ADDR_INST = s.rd Reg.TB_FR_ADDR_INST ∧ t.tb = s.tb) ∧
      (s.on Reg.TB_STAT_FR_VALID = false → ∃ t, exec .frDataRead s = .next t ∧ t.answers Code.state 0 ∧ s.sameButChain t)) ∧
  (∀ (s : State) (k : Fin 64), s.slotReady = true → s.chain.mode ≠ .broadcast → s.selAll (0x8C0 + k.val) = false →
      ∃ t, exec (.flashApertureRead k) s = .next t ∧ s.sameButChain t ∧
        (s.readCode (s.selOf (0x8C0 + k.val)) (0x8C0 + k.val) = Code.ok →
          t.answers Code.ok (s.view (s.selOf (0x8C0 + k.val)) (0x8C0 + k.val))) ∧
        (s.readCode (s.selOf (0x8C0 + k.val)) (0x8C0 + k.val) ≠ Code.ok →
          t.answers (s.readCode (s.selOf (0x8C0 + k.val)) (0x8C0 + k.val)) 0))

/-! ### Power, dies, clock, host accesses (01_architecture.md, 15_boot.md) -/

/-- POR begins everything again (R412, R413): stage Gesso, no lock, every register at its reset value but the role, which the
strap gives (R240), and no pin, port, ring or record left. A fall of POR_N leaves the same with POR_N low. The first lock
of the PLL after it makes DCLK valid with C = 0 and starts the measurement of the delay lines (R35, R39); a later one makes
DCLK valid again, and SYNC_OUT shows SYNC_IN (R19, R44). -/
def Obligations.PowerAndFirstLockBeginAnew : Prop :=
  ∀ s : State,
    (∀ strap, ∃ t, exec (.por strap) s = .next t ∧ t.boot = {} ∧ t.clk = {} ∧ t.now = 0 ∧ t.c = 0 ∧ t.strap = strap ∧
      t.rd Reg.HG_CFG_ROLE = strap.code ∧ (∀ i w, w < 4096 → (i, w) ≠ (0, 0x180) → t.reg i w = resetWord (i * 4096 + w)) ∧
      t.pins = [] ∧ t.ports = [] ∧ t.rings = [] ∧ t.staging = [] ∧ t.srcs = [] ∧ t.almanac = {}) ∧
    (∃ t, exec .porNFall s = .next t ∧ t.clk = { porN := false } ∧ t.strap = s.strap ∧ t.boot = {} ∧
      t.rd Reg.HG_CFG_ROLE = s.strap.code ∧ (∀ i w, w < 4096 → (i, w) ≠ (0, 0x180) → t.reg i w = resetWord (i * 4096 + w)) ∧
      t.pins = [] ∧ t.ports = [] ∧ t.rings = [] ∧ t.staging = []) ∧
    (s.clk.porN = true → s.clk.locked = false → s.clk.once = false →
      ∃ t, exec .pllLock s = .next t ∧ t.clk = { s.clk with locked := true, once := true } ∧ t.now = 0 ∧ t.c = 0 ∧
        t.tb.calAt = some 0 ∧ t.boot.fuseAt = 0 ∧ t.regs = s.regs) ∧
    (s.clk.porN = true → s.clk.locked = false → s.clk.once = true →
      ∃ t, exec .pllLock s = .next t ∧ t = { s with clk := { s.clk with locked := true }, tb := t.tb, out := t.out } ∧
        t.tb.calAt = s.tb.calAt ∧ t.tb.syncIn = s.tb.syncIn ∧ t.tb.syncOut = s.tb.syncIn)

/-- Gesso (R413 to R415): the fuse read ends 65,536 DCLK after it began, with its counts in GL_FUSESTAT; then training ends
and the device leaves Gesso for LOAD: the chain executes, AUX0 is in BOOT, and SFDP discovery of the Iatil load begins.
When no die has failed, CU_GSTAT_SINE_OK shows the check of the sine table (R389). -/
def Obligations.GessoLeadsToTheLoad : Prop :=
  ∀ s : State, s.clocked = true → s.boot.stage = .gesso →
    (∀ corrected failRows failed, s.boot.fusesRead = false → s.boot.hot = false →
      ∃ t, exec (.fuseReadDone corrected failRows failed) s = .next t ∧ t.boot.fusesRead = true ∧ t.boot.failed = failed ∧
        t.rd Reg.GL_FUSESTAT_CORRECTED = corrected.toNat ∧ t.rd Reg.GL_FUSESTAT_FAILROWS = failRows.toNat ∧
        t.on Reg.AL_STAT_NOKEY = failed.contains .keys ∧ t.now = max s.now (s.boot.fuseAt + 65536) ∧ t.boot.stage = .gesso) ∧
    (∀ sioFail hbmFail sineOk, s.boot.fusesRead = true →
      ∃ t, exec (.gessoEnd sioFail hbmFail sineOk) s = .next t ∧ t.boot.stage = .load ∧ t.flash = { discovering := true } ∧
        (t.aux 0).state = .boot ∧ (∃ l, t.out = l ++ [.discover]) ∧
        t.rd Reg.GL_BOOTSTAT_RETRY = 0 ∧ t.rd Reg.GL_BOOTSTAT_FASTCLK = 0 ∧ t.rd Reg.GL_BOOTSTAT_SIGNED = 0 ∧
        t.rd Reg.GL_BOOTSTAT_HOLD = 0 ∧
        (sioFail = 0 → hbmFail = 0 → t.on Reg.CU_GSTAT_SINE_OK = sineOk))

/-- A die or a stack fails in service (R13, R14): its FAULT bit is set and its OK bit cleared in GL_DIESTAT, and its level
source, 260 + d or 264 + h, is asserted. A stack that fails changes no other field of GL_DIESTAT, and neither changes a
fault that stands. A loss of lock (R19, R52) sets LOCK_LOST, stops every engine, pulls CH_ATTN, clears EPOCH_VALID, and
cancels an armed Solstice and a pending Fresco; a device that runs runs no longer. REFCLK is shown as it toggles (R33). -/
def Obligations.FaultsOfDiesAndClock : Prop :=
  (∀ s : State, s.running = true →
      (∀ d : Fin 4, (s.rd Reg.GL_DIESTAT_SIO_OK).testBit d.val = true →
        ∃ t, exec (.sioLinkFail d) s = .next t ∧ (t.rd Reg.GL_DIESTAT_SIO_FAULT).testBit d.val = true ∧
          (t.rd Reg.GL_DIESTAT_SIO_OK).testBit d.val = false ∧ (t.src (260 + d.val)).input = true) ∧
      (∀ h : Fin 2, (s.rd Reg.GL_DIESTAT_HBM_OK).testBit h.val = true →
        ∃ t, exec (.hbmFault h) s = .next t ∧ t.rd Reg.GL_DIESTAT_HBM_FAULT = s.rd Reg.GL_DIESTAT_HBM_FAULT ||| 2 ^ h.val ∧
          (t.rd Reg.GL_DIESTAT_HBM_OK).testBit h.val = false ∧ (t.src (264 + h.val)).input = true ∧
          t.rd Reg.GL_DIESTAT_SIO_OK = s.rd Reg.GL_DIESTAT_SIO_OK ∧
          t.rd Reg.GL_DIESTAT_SIO_FAULT = s.rd Reg.GL_DIESTAT_SIO_FAULT) ∧
      (∀ d : Fin 4, (s.rd Reg.GL_DIESTAT_SIO_OK).testBit d.val = false → exec (.sioLinkFail d) s = .next s) ∧
      (∀ h : Fin 2, (s.rd Reg.GL_DIESTAT_HBM_OK).testBit h.val = false → exec (.hbmFault h) s = .next s)) ∧
  (∀ s : State,
      (s.clk.locked = true → ∃ t, exec .lossOfLock s = .next t ∧ t.on Reg.GL_CLKSTAT_LOCK_LOST = true ∧
        t.clk.locked = false ∧ t.clk.stopped = true ∧ t.running = false ∧ t.attn = true ∧
        t.on Reg.TB_STAT_EPOCH_VALID = false ∧ t.on Reg.TB_STAT_FR_PENDING = false ∧
        t.tb.armedAt = none ∧ t.tb.commit = none) ∧
      (∀ ok, ∃ t, exec (.refclkToggleChange ok) s = .next t ∧ t = { s with regs := t.regs } ∧
        t.on Reg.GL_CLKSTAT_REFCLK = ok ∧ t.rd Reg.GL_CLKSTAT_LOSS_CNT = s.rd Reg.GL_CLKSTAT_LOSS_CNT ∧
        t.on Reg.GL_CLKSTAT_LOCK_LOST = s.on Reg.GL_CLKSTAT_LOCK_LOST ∧ s.regsSameBut t [(0, 0x003)]))

/-- A host write (R24, R171, R172, R288) that is not one whole DWORD at the doorbell of a ring's page, or at CLAIM, EOI, SETPEND
or PRIV of a target page, is discarded: it changes no state but GL_HOSTDROP, which counts it. A host read of BAR0, or of BAR2
outside the claim words and the mirror, answers one word for each it touches and changes nothing: on a doorbell page the
host's count, RG_DEV, and the ring's state with the PHASE of the next record (R170); on a target page PRIV and TSTAT; in the
MSI-X table the CA_MSIX words of its vector; in the pending-bit array the vectors that wait; and 0 at any other, unimplemented
address, as a read of the mirror does outside its regions and its implemented words. -/
def Obligations.HostAccessOutsideTheMap : Prop :=
  ∀ (s : State) (bar2 : Bool), s.link.up = true →
    (∀ w : HostWrite, (w.full = false ∨ (bar2 = false ∧ w.offset % 4096 ≠ 0) ∨ (bar2 = false ∧ 0x100000 ≤ w.offset) ∨
        (bar2 = true ∧ (16 ≤ w.offset % 4096 ∨ w.offset % 4 ≠ 0)) ∨ (bar2 = true ∧ 0x10000 ≤ w.offset)) →
      ∃ t, exec (.hostWriteDiscard bar2 w) s = .next t ∧
        t = { s with regs := t.regs } ∧ s.regsSameBut t [(0, 0x004)] ∧
        t.rd Reg.GL_HOSTDROP_CNT = min (s.rd Reg.GL_HOSTDROP_CNT + 1) 0xFFFFFFFF) ∧
    (∀ offset n, readElsewhere bar2 (offset / 4) ((offset + n + 3) / 4) = false →
      ∃ ws, exec (.hostReadUnimpl bar2 offset n) s = .next { s with out := s.out ++ [.readData ws] } ∧
        ws.length = (offset + n + 3) / 4 - offset / 4 ∧
        ∀ k, k < ws.length →
          (∀ (r : RingIx) (j : Nat), bar2 = false → offset / 4 + k = 1024 * r.val + j → j < 1024 →
            ws[k]? = some (match j with
              | 0 => (s.ring r.val).host
              | 1 => BitVec.ofNat 32 (s.rd Reg.RG_DEV r.val)
              | 2 => BitVec.ofNat 32 ((s.ring r.val).state.code + (s.phaseOf r.val (s.ring r.val).issued).toNat * 256)
              | _ => 0)) ∧
          (∀ (t : Fin 16) (j : Nat), bar2 = true → offset / 4 + k = 1024 * t.val + j → j < 1024 →
            ws[k]? = some (if j = 3 then s.privWord t.val else if j = 4 then s.tstatWord t.val else 0)) ∧
          (∀ (t : Fin 16) (j : Fin 4), bar2 = true → offset / 4 + k = 0x8000 + 4 * t.val + j.val →
            ws[k]? = some (s.reg t.val (0x224 + j.val))) ∧
          (∀ v : Word, bar2 = true → offset / 4 + k = 0x8400 → ws[k]? = some v →
            ∀ t : Fin 16, v.getLsbD t.val = s.messageWaits t.val) ∧
          (bar2 = true → 0x8040 ≤ offset / 4 + k → offset / 4 + k ≠ 0x8400 → ws[k]? = some 0)) ∧
    (∀ offset n, s.running = true →
      ∃ ws, exec (.statusMirrorRead offset n) s = .next { s with out := s.out ++ [.readData ws] } ∧
        ∀ k w, k < ws.length → w = offset / 4 + k →
          (w < 0x300 ∧ implemented w = false) ∨ (0x300 ≤ w ∧ w < 0x400) ∨ (0x800 ≤ w ∧ w < 0x2000) ∨ 0x4000 ≤ w →
          ws[k]? = some 0)

/-- A host read of the status mirror (R25, R172) returns one word for each word it touches, all as the chain would read them at
this edge, and changes nothing. A register word is the view of the instance that its window's SEL names; TB_NOW_HI is the high
half of the same count as TB_NOW_LO; claim words, TB_FR_DATA, a window word with SEL at all instances and a word outside the map
read 0. Behind them stand RG_STAT, RG_HOST, RG_DEV and RG_ERR of each ring, then PT_RXSTAT, PT_RXCNT, PT_TXSTAT and PT_TXCNT of
each port. -/
def Obligations.StatusMirrorShowsTheChainView : Prop :=
  ∀ (s : State) (offset n : Nat), s.running = true → s.link.up = true →
    ∃ ws, exec (.statusMirrorRead offset n) s = .next { s with out := s.out ++ [.readData ws] } ∧
      ws.length = (offset + n + 3) / 4 - offset / 4 ∧
      (∀ k w, k < ws.length → w = offset / 4 + k → w < 0x300 →
        (implemented w = true → s.selAll w = false → w ≠ 0x228 → w ≠ 0x094 → w ≠ 0x082 →
          ws[k]? = some (s.view (s.selOf w) w)) ∧
        (w = 0x082 → ws[k]? = some ((s.c >>> 32).truncate 32)) ∧
        (w = 0x228 ∨ w = 0x094 ∨ implemented w = false ∨ s.selAll w = true → ws[k]? = some 0)) ∧
      (∀ k (r : RingIx) (j : Fin 4), k < ws.length → offset / 4 + k = 0x400 + 4 * r.val + j.val →
        ws[k]? = some (s.view r.val (if j.val = 0 then 0x507 else if j.val = 1 then 0x508 else if j.val = 2 then 0x509
          else 0x50B))) ∧
      (∀ k (p : PortIx) (j : Fin 4), k < ws.length → offset / 4 + k = 0x2000 + 4 * p.val + j.val →
        ws[k]? = some (s.view p.val (if j.val = 0 then 0x403 else if j.val = 1 then 0x40D else if j.val = 2 then 0x416
          else 0x417)))

/-! ### The timebase (02_timebase.md) -/

/-- A written TB_CAL_CTL_RUN starts a measurement of the delay lines at that edge, and is refused with E_STATE, with nothing
started, while a port or a line monitor is enabled, a Solstice is armed, a Fresco is pending, or a measurement runs. The
measurement ends 65,536 DCLK after its start (R39, R40): CAL_STAT shows how many lines are on seed tables, and
TB_PINPATH_CAL_FAIL is 1 for the pin of each station line that failed, and 0 for every other pin. A SYNC line is counted as
the measurement of Gesso left it. -/
def Obligations.CalibrationRunsAndReports : Prop :=
  (∀ s : State, s.slotReady = true →
      (s.portsOrMonitorsOn = false → s.tb.armedAt = none → s.on Reg.TB_STAT_FR_PENDING = false → s.tb.calAt = none →
        ∃ t, exec (.calRun 1) s = .next t ∧ t.answers Code.ok 0 ∧ t.tb = { s.tb with calAt := some s.now } ∧
          s.regsSameBut t [(0, 0x047)]) ∧
      (s.portsOrMonitorsOn = true ∨ s.tb.armedAt.isSome = true ∨ s.on Reg.TB_STAT_FR_PENDING = true ∨ s.tb.calAt.isSome = true →
        ∃ t, exec (.calRun 1) s = .next t ∧ t.answers Code.state 0 ∧ s.sameButChain t)) ∧
  (∀ (s : State) (fails : List CalLine) (a : Nat), s.clocked = true → s.clk.stopped = false → s.tb.calAt = some a →
      ∃ t, exec (.calMeasureDone fails) s = .next t ∧ t.tb.calAt = none ∧ t.now = max s.now (a + 65536) ∧
        (s.boot.stage = .gesso → t.tb.calSync = (fails.filter (fun l => l.pin.isNone)).length) ∧
        (s.boot.stage ≠ .gesso → t.tb.calSync = s.tb.calSync) ∧
        t.rd Reg.TB_CAL_STAT_FAILED = min ((fails.filterMap CalLine.pin).length + t.tb.calSync) 0xFFFF ∧
        t.on Reg.TB_CAL_STAT_FAIL = decide (0 < (fails.filterMap CalLine.pin).length + t.tb.calSync) ∧
        (∀ q, q < 4096 → t.on Reg.TB_PINPATH_CAL_FAIL q = (fails.filterMap CalLine.pin).contains q))

/-- SYNC (R44, R45). A sampled change of SYNC_IN ends the level before it. When that level has stood for 2 DCLK or more and
SYNC_OUT shows it, the change goes to SYNC_OUT after TB_PASS_THRU; when it has not, and the change that began it had gone out,
that one is taken back, so that SYNC_OUT keeps its level. A rise after 16 DCLK of low
begins to qualify and moves no register; any other rise counts one glitch and sets SYNC_GLITCH. A fall before
N + 17 of a rise in qualification ends it in the same way; a later one lets it count. Once a rise has stood high for its 16
samples, at N + 17, it is counted and its origin-referred time is in TB_SYNC_LAST, and an armed Solstice is committed on it
when its sampling edge is later than the arm. -/
def Obligations.SyncEdgesQualify : Prop :=
  ∀ s : State, s.clocked = true →
    (∀ (u : Fin 16) (level : Bool), s.tb.syncIn = !level →
      ∃ t, exec (.syncInEdge level u) s = .next t ∧ t.tb.syncIn = level ∧ t.tb.syncAt = 16 * s.now + u.val ∧
        t.tb.syncOut = level ∧
        (s.tb.syncAt + 32 ≤ 16 * s.now + u.val → s.tb.syncOut = !level →
          ∃ l, t.out = s.out ++ .syncOut level (s.rd Reg.TB_PASS_THRU) :: l) ∧
        (16 * s.now + u.val < s.tb.syncAt + 32 → s.tb.syncSent = true → s.tb.syncOut = !level →
          ∃ l, t.out = dropSyncOut s.out ++ l ∧ ∀ b n, Out.syncOut b n ∉ l) ∧
        (level = true → s.tb.syncAt + 256 ≤ 16 * s.now + u.val →
          t.tb.syncEdge = some ⟨s.now, u.val, s.c⟩ ∧ t.regs = s.regs) ∧
        (level = true → 16 * s.now + u.val < s.tb.syncAt + 256 →
          t.rd Reg.TB_SYNC_CNT_GLITCH = min (s.rd Reg.TB_SYNC_CNT_GLITCH + 1) 0xFFFF ∧ t.on Reg.TB_STAT_SYNC_GLITCH = true) ∧
        (∀ e, level = false → s.tb.syncEdge = some e → t.tb.syncEdge = none ∧
          (s.now < e.n + 17 →
            t.rd Reg.TB_SYNC_CNT_GLITCH = min (s.rd Reg.TB_SYNC_CNT_GLITCH + 1) 0xFFFF ∧ t.on Reg.TB_STAT_SYNC_GLITCH = true) ∧
          (e.n + 17 ≤ s.now →
            t.rd Reg.TB_SYNC_CNT_EDGES = (s.rd Reg.TB_SYNC_CNT_EDGES + 1) % 2 ^ 16 ∧
            t.tb.syncLast = e.c + ticks e.u - ticks (s.rd Reg.TB_SYNC_DLY) - ticks (s.rd Reg.TB_PASS_IN)))) ∧
    (∀ (u : Fin 16) (level : Bool), s.tb.syncIn = level → exec (.syncInEdge level u) s = .next s) ∧
    (∀ e, s.tb.syncEdge = some e → ∃ t, exec .syncQualified s = .next t ∧
      t.now = max s.now (e.n + 17) ∧ t.rd Reg.TB_SYNC_CNT_EDGES = (s.rd Reg.TB_SYNC_CNT_EDGES + 1) % 2 ^ 16 ∧
      t.tb.syncLast = e.c + ticks e.u - ticks (s.rd Reg.TB_SYNC_DLY) - ticks (s.rd Reg.TB_PASS_IN) ∧
      t.tb.syncEdge = none ∧
      (∀ a, s.tb.armedAt = some a → a < e.n + 1 → s.tb.commit = none → t.tb.commit = some e) ∧
      (s.tb.armedAt = none → t.tb.commit = s.tb.commit))

/-- A Solstice is armed and cancelled (R49): an accepted ARM arms it at that edge; ARM is refused with E_STATE while one is
armed or DCLK's lock is lost; while it is armed TB_SOL_E and TB_SYNC_DLY refuse writes with E_STATE; ARM and CANCEL
together are E_VALUE; an accepted CANCEL clears an armed Solstice that is not committed. A write that changes TB_SYNC_DLY
takes effect and appends a calibration record with the old and the new value to the Almanac (R52, R448); one that changes
nothing appends none. -/
def Obligations.SolsticeArmCancelAndDelay : Prop :=
  (∀ s : State,
      (s.takesWrite 0x085 1 = true → ∃ t, exec (.solArm 1) s = .next t ∧ t.tb = { s.tb with armedAt := some s.now } ∧
        s.regsSameBut t [(0, 0x047)]) ∧
      (s.slotReady = true → s.tb.armedAt.isSome = true →
        s.refusesWrite 0x085 1 Code.state = true ∧
        (∀ d, d.toNat < 2 ^ 24 → s.refusesWrite 0x086 d Code.state = true) ∧
        (∀ d, s.refusesWrite 0x083 d Code.state = true ∧ s.refusesWrite 0x084 d Code.state = true)) ∧
      (s.slotReady = true → s.refusesWrite 0x085 3 Code.value = true) ∧
      (s.takesWrite 0x085 2 = true → s.tb.commit = none →
        ∃ t, exec (.solCancel 2) s = .next t ∧ t.tb = { s.tb with armedAt := none, commit := none } ∧
          s.regsSameBut t [(0, 0x047)])) ∧
  (∀ (s : State) (d : Word), s.takesWrite 0x086 d = true →
      ∃ t, exec (.syncDlyWrite d) s = .next t ∧ t.reg 0 0x086 = d ∧
        (s.reg 0 0x086 = d → t.almanac = s.almanac) ∧
        (s.reg 0 0x086 ≠ d → t.almanac = ((s.setReg 0 0x086 d).calibEntry 1 (s.reg 0 0x086).toNat d.toNat).almanac))

/-- A committed Solstice is applied at N + 20 (R50): C takes E + TB_SYNC_DLY + TB_PASS_IN + 320 − u, TB_SYNC_LAST takes E,
EPOCH_VALID and SOL_DONE are set, the Solstice is no longer armed, and a pending Fresco is cancelled; TB_PAIROFS_OFS is 0
(R54). The pair offset (R53): in an engaged shadow the first window sets TB_PAIROFS_OFS to the mean, rounded to the nearest
tick, and sets VALID; each later one moves OFS by one tick toward the mean, or leaves it when it is there. In any other
member nothing changes. That the sum is taken without the offset is the model's reading (log entry 26). -/
def Obligations.SolsticeLoadAndPairOffset : Prop :=
  (∀ (s : State) (e : SyncEdge), s.clocked = true → s.tb.commit = some e → s.now ≤ e.n + 20 →
      ∃ t, exec .solsticeApply s = .next t ∧ t.now = e.n + 20 ∧
        t.c = s.solE + ticks (s.rd Reg.TB_SYNC_DLY) + ticks (s.rd Reg.TB_PASS_IN) + 320 - ticks e.u ∧
        t.tb.syncLast = s.solE ∧ t.tb.armedAt = none ∧ t.tb.commit = none ∧
        t.on Reg.TB_STAT_EPOCH_VALID = true ∧ t.on Reg.TB_STAT_SOL_DONE = true ∧ t.on Reg.TB_STAT_FR_PENDING = false ∧
        t.rd Reg.TB_PAIROFS_OFS = 0 ∧
        (s.on Reg.TB_STAT_FR_PENDING = true → t.on Reg.TB_STAT_FR_CANCELLED = true)) ∧
  (∀ (s : State) (sum : Int),
      (∀ rest, s.tb.pairWindows = sum :: rest → s.running = true → s.engagedShadow = true →
        ∃ t, exec (.pairofsWindow sum) s = .next t ∧ t.on Reg.TB_PAIROFS_VALID = true ∧
        (s.on Reg.TB_PAIROFS_VALID = false →
          t.rd Reg.TB_PAIROFS_OFS = (BitVec.ofInt 16 (roundDivInt sum 1024)).toNat) ∧
        (s.on Reg.TB_PAIROFS_VALID = true → ∀ ofs : Int, ofs = (BitVec.ofNat 16 (s.rd Reg.TB_PAIROFS_OFS)).toInt →
          (ofs < roundDivInt sum 1024 → t.rd Reg.TB_PAIROFS_OFS = (BitVec.ofInt 16 (ofs + 1)).toNat) ∧
          (roundDivInt sum 1024 < ofs → t.rd Reg.TB_PAIROFS_OFS = (BitVec.ofInt 16 (ofs - 1)).toNat) ∧
          (ofs = roundDivInt sum 1024 → t.rd Reg.TB_PAIROFS_OFS = s.rd Reg.TB_PAIROFS_OFS)) ∧
        s.regsSameBut t [(0, 0x08B)] ∧ t = { s with regs := t.regs, tb := { s.tb with pairWindows := rest } }) ∧
      (s.engagedShadow = false → exec (.pairofsWindow sum) s = .next s))

/-- A Fresco is armed, cancelled and released (R55, R56, R59): ARM is E_VALUE when F is not 16,384 ticks ahead, and E_STATE,
in the other cases, when the epoch is not valid, one is pending, or a snapshot stands; otherwise it sets FR_PENDING.
CANCEL clears a pending one and sets FR_CANCELLED. RELEASE clears FR_VALID. A pending Fresco is latched at the first edge
at which the count is F or later (R56, R58): FR_PENDING clears, the bank holds the snapshot of that edge, and FR_VALID is
set, in an engaged shadow only once the primary's values arrive (R226). -/
def Obligations.FrescoArmLatchRelease : Prop :=
  (∀ s : State, s.slotReady = true → s.hinge.state ≠ .engaging → s.hinge.state ≠ .engaged → s.hinge.state ≠ .degraded →
      (s.frFar = false → s.refusesWrite 0x092 (Reg.TB_FR_CTL_ARM.set 0 1) Code.value = true) ∧
      (s.frFar = true →
        (s.on Reg.TB_STAT_EPOCH_VALID = false ∨ s.on Reg.TB_STAT_FR_PENDING = true ∨ s.on Reg.TB_STAT_FR_VALID = true →
          s.refusesWrite 0x092 (Reg.TB_FR_CTL_ARM.set 0 1) Code.state = true) ∧
        (s.on Reg.TB_STAT_EPOCH_VALID = true → s.on Reg.TB_STAT_FR_PENDING = false → s.on Reg.TB_STAT_FR_VALID = false →
          ∃ t, exec (.frArm (Reg.TB_FR_CTL_ARM.set 0 1)) s = .next t ∧ t.on Reg.TB_STAT_FR_PENDING = true ∧
            s.regsSameBut t [(0, 0x047), (0, 0x080)])) ∧
      (∃ t, exec (.frCancel (Reg.TB_FR_CTL_CANCEL.set 0 1)) s = .next t ∧ t.on Reg.TB_STAT_FR_PENDING = false ∧
        t.on Reg.TB_STAT_FR_CANCELLED = (s.on Reg.TB_STAT_FR_PENDING || s.on Reg.TB_STAT_FR_CANCELLED)) ∧
      (∃ t, exec (.frRelease (Reg.TB_FR_CTL_RELEASE.set 0 1)) s = .next t ∧ t.on Reg.TB_STAT_FR_VALID = false ∧
        t.on Reg.TB_STAT_FR_PENDING = s.on Reg.TB_STAT_FR_PENDING ∧ s.regsSameBut t [(0, 0x047), (0, 0x080)])) ∧
  (∀ s : State, s.running = true → s.on Reg.TB_STAT_FR_PENDING = true →
      ∃ t, exec .frescoLatch s = .next t ∧ t.on Reg.TB_STAT_FR_PENDING = false ∧
        t.now = s.edgeAt (s.frF + s.pairOfs) ∧ t.tb.snap = (s.advanceTo (s.frF + s.pairOfs)).snapshot ∧
        (s.engagedShadow = false → t.on Reg.TB_STAT_FR_VALID = true) ∧
        (s.engagedShadow = true → t.on Reg.TB_STAT_FR_VALID = s.on Reg.TB_STAT_FR_VALID ∧ t.tb.frWaits = true))

/-! ### What accepted writes store and do -/

/-- A command that is one single WRITE, and that is taken for one instance, stores every RW field of its word as the data give
it (R5, R318). -/
def Obligations.AcceptedWriteStoresItsFields : Prop :=
  ∀ (i : Instr) (w : BitVec 12) (d : Word) (s : State), singleWrite i = some (w, d) → s.takesOne w.toNat d = true →
    ∃ t, exec i s = .next t ∧ ∀ f ∈ wordFields w.toNat, f.acc = .rw → t.rd f (s.selOf w.toNat) = f.get d

/-- Writes of PT_RXCFG, PT_TXCFG and PT_TXCTL, of RG_CFG, of HG_CFG and HG_CTL, and of CA_SCFG, taken for one instance.
RX_ENABLE begins a session of the port, RX_DISABLE leaves its receiver OFF (R96); TX_ENABLE takes back a stop, TX_DISABLE
ends the transmitter, after the character in flight if there is one, and TX_FLUSH empties the queue of a transmitter that
is neither OFF nor STARVED (R140). RING_ENABLE makes a ring ACTIVE with RG_DEV 0, RING_DISABLE makes one DRAINING (R177).
A change of HG_CFG_ROLE to SOLO, or from it, is a pair state SOLO or DISENGAGED (R240); DISENGAGE leaves no pair (R253),
RELEASE releases it (R257). A disabled source that is not ACTIVE has nothing pending and nothing held (R276). -/
def Obligations.PortRingAndPairWritesAct : Prop :=
  ∀ (s : State) (d : Word),
    (∀ p, p = s.selOf 0x401 → s.takesOne 0x401 d = true →
      ∃ t, exec (.rxPaletteSelect d) s = .next t ∧ exec (.rxEnable d) s = .next t ∧ exec (.rxDisable d) s = .next t ∧
        t.rd Reg.PT_RXCFG_PAL p = Reg.PT_RXCFG_PAL.get d ∧ t.now = s.now ∧
        (Reg.PT_RXCFG_EN.get d = 1 → s.on Reg.PT_RXCFG_EN p = false →
          (t.port p).session = (s.port p).session + 1 ∧ (t.port p).sessionOpen = true ∧ (t.port p).elements = []) ∧
        (Reg.PT_RXCFG_EN.get d = 0 → s.on Reg.PT_RXCFG_EN p = true →
          (t.port p).rx = .off ∧ (t.port p).sessionOpen = false ∧ (t.port p).acq = none ∧ (t.port p).trk = {})) ∧
    (∀ p, p = s.selOf 0x414 → s.takesOne 0x414 d = true →
      ∃ t, exec (.txEnable d) s = .next t ∧ exec (.txDisable d) s = .next t ∧ t.now = s.now ∧
        (Reg.PT_TXCFG_EN.get d = 1 → s.on Reg.PT_TXCFG_EN p = false → (t.port p).stopAfter = none) ∧
        (Reg.PT_TXCFG_EN.get d = 0 → s.on Reg.PT_TXCFG_EN p = true → (t.port p).queue = [] ∧
          ((s.port p).line = none → (t.port p).tx = .off ∧ (t.port p).sending = none) ∧
          ((s.port p).line.isSome = true → (t.port p).stopAfter = some 5 ∧ (t.port p).sending = (s.port p).sending))) ∧
    (∀ p, p = s.selOf 0x415 → s.takesOne 0x415 d = true →
      ∃ t, exec (.txFlush d) s = .next t ∧ exec (.txResume d) s = .next t ∧ t.now = s.now ∧
        (Reg.PT_TXCTL_FLUSH.get d = 1 → (s.port p).tx ≠ .off → (s.port p).tx ≠ .starved → (t.port p).queue = []) ∧
        (Reg.PT_TXCTL_RESUME.get d = 1 → (t.port p).xoffRx = false)) ∧
    (∀ n, n = s.selOf 0x501 → s.takesOne 0x501 d = true →
      ∃ t, exec (.ringEnable d) s = .next t ∧ exec (.ringDisable d) s = .next t ∧ t.now = s.now ∧
        (Reg.RG_CFG_EN.get d = 1 → (t.ring n).state = .active ∧ (t.ring n).host = 0 ∧ (t.ring n).issued = 0 ∧
          t.rd Reg.RG_DEV n = 0) ∧
        (Reg.RG_CFG_EN.get d = 0 → t.ring n = { s.ring n with state :=
          if (s.ring n).state = .active ∨ (s.ring n).state = .fault then .draining else (s.ring n).state })) ∧
    (s.takesOne 0x180 d = true →
      ∃ t, exec (.hgRoleWrite d) s = .next t ∧ t.now = s.now ∧ t.rd Reg.HG_CFG_ROLE = Reg.HG_CFG_ROLE.get d ∧
        (Reg.HG_CFG_ROLE.get d ≠ s.rd Reg.HG_CFG_ROLE →
          t.hinge.state = if Reg.HG_CFG_ROLE.get d = 0 then .solo else .disengaged)) ∧
    (s.takesOne 0x181 d = true → Reg.HG_CTL_ENGAGE.get d = 0 →
      (Reg.HG_CTL_DISENGAGE.get d = 1 → Reg.HG_CTL_RELEASE.get d = 0 → ∃ t, exec (.hgDisengage d) s = .next t ∧ t.now = s.now ∧
        t.hinge.state = if s.hinge.state = .solo ∨ s.hinge.state = .engaging then s.hinge.state else .disengaged) ∧
      (Reg.HG_CTL_RELEASE.get d = 1 → Reg.HG_CTL_DISENGAGE.get d = 0 → ∃ t, exec (.hgRelease d) s = .next t ∧
        t.now = s.now + 64 ∧ t.hinge.state = .released ∧ t.hinge.claim = false)) ∧
    (∀ n, n = s.selOf 0x201 → s.takesOne 0x201 d = true → Reg.CA_SCFG_EN.get d = 0 →
      ∃ t, exec (.caSourceDisable d) s = .next t ∧ t.now = s.now ∧ (t.src n).held = 0 ∧ (t.src n).timer = none ∧
        (t.src n).recs = [] ∧ (t.src n).state = (if (s.src n).state = .active then .active else .idle))

/-- Writes of ST_PINCFGk, ST_CTL, ST_GPCFG and the words of a level group, of LM_CTL, and of the contact units' words, taken
for one instance. A pin setting waits for the character in flight unless ABRUPT is 1 (R338), and for an octant that is not
in RUN; UNHOLD leaves a held pad off (R342); a driven GPIO output shows its bit (R345). A level code is in force at once
in RUN (R348 to R350), a new span starts its sequence (R351, R352). ARM, DISARM and FORCE move the monitor (R362, R363).
CU_ATTACH attaches through the pin's owner and detaches by opening the switch (R380, R382); a level is in force at once,
with a steady source as it stands and with a sine around its present phase (R379, R388); a new kind or range starts the range sequence (R384); CU_STAT's bits are cleared (R386);
CU_WDATA stores its sample and advances the address (R390); MEAS and STOP start and stop measurements (R391, R393). -/
def Obligations.StationMonitorAndUnitWritesAct : Prop :=
  ∀ (s : State) (d : Word),
    (∀ (k : Fin 4) (q : Nat), q = 4 * s.selOf (0x601 + k.val) + k.val → s.takesOne (0x601 + k.val) d = true →
      ∃ t, exec (.stPincfgWrite k d) s = .next t ∧ t.now = s.now ∧
        (s.inFlight q = true → Reg.ST_PINCFG_ABRUPT.get d = 0 →
          (t.pin q).cfgWaits = some (t.reg (s.selOf (0x601 + k.val)) (0x601 + k.val)) ∧ (t.pin q).cfgNow = (s.pin q).cfgNow) ∧
        (s.pinRuns q = true → (s.inFlight q = false ∨ Reg.ST_PINCFG_ABRUPT.get d = 1) →
          (t.pin q).cfgWaits = none ∧ (t.pin q).cfgNow = t.reg (s.selOf (0x601 + k.val)) (0x601 + k.val))) ∧
    (∀ i, i = s.selOf 0x60C → s.takesOne 0x60C d = true →
      ∃ t, exec (.stUnhold d) s = .next t ∧ t.now = s.now ∧ s.regsSameBut t [(0, 0x047)] ∧
        ∀ k : Fin 4, t.pin (4 * i + k.val) =
          if d.getLsbD k.val = true ∧ (s.pin (4 * i + k.val)).pad = .hold
          then { s.pin (4 * i + k.val) with pad := .off, driven := none } else s.pin (4 * i + k.val)) ∧
    (∀ i, i = s.selOf 0x605 → s.takesOne 0x605 d = true →
      ∃ t, exec (.gpioOutWrite d) s = .next t ∧ t.now = s.now ∧
        ∀ k : Fin 4, (t.pin (4 * i + k.val)).owner = .gpioOut → (t.pin (4 * i + k.val)).pad = .drive →
          (t.pin (4 * i + k.val)).driven = some ((Reg.ST_GPCFG_OUT.get d).testBit k.val)) ∧
    (∀ (k : Fin 4) (g : Nat), g = s.selOf (0x611 + k.val) → s.takesOne (0x611 + k.val) d = true → (s.oct (g / 8)).state = .run →
      ∃ t, exec (.levelCodeWrite k d) s = .next t ∧ t.now = s.now ∧ t.group g = { s.group g with
        voh := if k.val = 0 then d.truncate 14 else BitVec.ofNat 14 (s.rd Reg.ST_LGVOH g),
        vol := if k.val = 1 then d.truncate 14 else BitVec.ofNat 14 (s.rd Reg.ST_LGVOL g),
        vthh := if k.val = 2 then d.truncate 14 else BitVec.ofNat 14 (s.rd Reg.ST_LGVTHH g),
        vthl := if k.val = 3 then d.truncate 14 else BitVec.ofNat 14 (s.rd Reg.ST_LGVTHL g) }) ∧
    (∀ g, g = s.selOf 0x610 → s.takesOne 0x610 d = true →
      ∃ t, exec (.spanChangeStart d) s = .next t ∧ t.now = s.now ∧ t.group g =
        if Reg.ST_LGCFG_SPAN.get d = s.rd Reg.ST_LGCFG_SPAN g then s.group g
        else { s.group g with busyAt := some s.now, step := 0, frozen := true }) ∧
    (∀ q, q = s.selOf 0x70C → s.takesOne 0x70C d = true →
      (Reg.LM_CTL_ARM.get d = 1 → Reg.LM_CTL_DISARM.get d = 0 → Reg.LM_CTL_FORCE.get d = 0 →
        ∃ t, exec (.lmArm d) s = .next t ∧ t.now = s.now ∧ (t.mon q).state = .arming ∧ (t.mon q).taken = 0 ∧
          (t.mon q).trig = none ∧ (t.mon q).disPend = false) ∧
      (Reg.LM_CTL_ARM.get d = 0 → Reg.LM_CTL_DISARM.get d = 1 → Reg.LM_CTL_FORCE.get d = 0 →
        ∃ t, exec (.lmDisarm d) s = .next t ∧ t.now = s.now ∧
          ((s.mon q).state = .capture → t.mon q = { s.mon q with disPend := true }) ∧
          ((s.mon q).state = .arming ∨ (s.mon q).state = .armed ∨ (s.mon q).state = .rearm →
            t.mon q = { s.mon q with state := .off, trig := none })) ∧
      (Reg.LM_CTL_ARM.get d = 0 → Reg.LM_CTL_DISARM.get d = 0 → Reg.LM_CTL_FORCE.get d = 1 →
        ∃ t, exec (.lmForce d) s = .next t ∧ t.now = s.now ∧ (t.mon q).trig.isSome = true)) ∧
    (∀ i, i = s.selOf 0x802 → s.takesOne 0x802 d = true →
      ∃ t, exec (.cuAttach d) s = .next t ∧ exec (.cuDetach d) s = .next t ∧ t.now = s.now ∧
        t.rd Reg.CU_ATTACH_PIN i = Reg.CU_ATTACH_PIN.get d ∧ t.rd Reg.CU_ATTACH_EN i = Reg.CU_ATTACH_EN.get d ∧
        (Reg.CU_ATTACH_EN.get d = 0 → s.on Reg.CU_ATTACH_EN i = true →
          t.cu i = { s.cu i with opening := true, swAt := s.now })) ∧
    (∀ i, i = s.selOf 0x803 → s.takesOne 0x803 d = true →
      ∃ t, exec (.cuLevelWrite d) s = .next t ∧ t.now = s.now ∧ t.cu i =
        if (s.cu i).src = 0 then { s.cu i with out := d.truncate 18 }
        else if (s.cu i).src = 1 then { s.cu i with out := t.sineCode i (s.cu i).theta } else s.cu i) ∧
    (∀ i, i = s.selOf 0x801 → s.takesOne 0x801 d = true →
      ∃ t, exec (.cuRangeChange d) s = .next t ∧ t.now = s.now ∧
        (Reg.CU_CFG_KIND.get d ≠ s.rd Reg.CU_CFG_KIND i ∨ Reg.CU_CFG_RANGE.get d ≠ s.rd Reg.CU_CFG_RANGE i →
          t.cu i = { s.cu i with state := .ranging, rangeAt := some s.now, rangeStep := 0, mrun := false })) ∧
    (∀ i, i = s.selOf 0x809 → s.takesOne 0x809 d = true →
      ∃ t, exec (.cuFaultClear d) s = .next t ∧ t.now = s.now ∧
        ∀ f ∈ wordFields 0x809, f.acc = .w1c → t.rd f i = if f.width = 1 ∧ f.get d = 1 then 0 else s.rd f i) ∧
    (∀ i, i = s.selOf 0x810 → s.takesOne 0x810 d = true →
      ∃ t, exec (.cuWdataWrite d) s = .next t ∧ t.now = s.now ∧
        Sparse.get (fun _ => 0) (t.cu i).store (s.rd Reg.CU_WADDR i) = Reg.CU_WDATA.get d ∧
        t.rd Reg.CU_WADDR i = min (s.rd Reg.CU_WADDR i + 1) 16383) ∧
    (∀ i, i = s.selOf 0x808 → s.takesOne 0x808 d = true →
      ∃ t, exec (.cuMeasStart d) s = .next t ∧ exec (.cuMeasStop d) s = .next t ∧ t.now = s.now ∧ t.cu i =
        if Reg.CU_CTL_STOP.get d = 1 then
          { s.cu i with mrun := false, mAt := if Reg.CU_CTL_MEAS.get d = 1 then s.now else (s.cu i).mAt }
        else if Reg.CU_CTL_MEAS.get d = 1 then { s.cu i with mrun := true, mAt := s.now } else s.cu i)

/-- Writes of AX_CTL, AX_FLCTL and AX_FLADDR, of GL_BOOTCTL, PW_MEMCFG, PW_OCTCFG and PW_RSTCTL, and of AL_CTL. START makes a
master BUSY, with its select asserted unless a block load delays it (R399, R409); DISCOVER starts discovery (R405);
AX_FLADDR names the block the reader holds or loads (R406); DROP discards it (R409). SKIP ends the load with code 9 (R421,
R428), RELOAD starts it anew, VERNISSAGE opens Vernissage, 16,000 DCLK long (R424, R428). A stack deeper than its new bound
starts its return to RUN (R446). A reset of an octant leaves it DARK with its wake due (R442), of a stack in RUN, of the Hinge down,
of the host side without rings; CORE and SOFT begin the load and Gesso anew; PW_RSTSTAT_LAST names the last of them (R438
to R441). CUT asks for a checkpoint (R456). -/
def Obligations.MasterBootAndResetWritesAct : Prop :=
  ∀ (s : State) (d : Word),
    (∀ m, m = s.selOf 0x884 → s.takesOne 0x884 d = true → Reg.AX_CTL_START.get d = 1 → Reg.AX_CTL_ABORT.get d = 0 →
      ((s.aux m).state = .idle ∨ (s.aux m).state = .held) →
      ∃ t, exec (.axStart d) s = .next t ∧ t.now = s.now ∧ (t.aux m).state = .busy ∧
        ((t.aux m).startWaits = true ∨
          ((t.aux m).csOn = true ∧ (t.aux m).cs = s.rd Reg.AX_XFER_CS m ∧ s.now ≤ (t.aux m).startAt))) ∧
    (s.takesOne 0x8A2 d = true →
      ∃ t, exec (.axDiscover d) s = .next t ∧ exec (.axFldrop d) s = .next t ∧ t.now = s.now ∧
        (Reg.AX_FLCTL_DROP.get d = 1 → t.flash.block = none ∧ t.flash.words = [] ∧ t.flash.busy = false ∧ t.flash.waits = false ∧
          t.flash.hold = false) ∧
        (Reg.AX_FLCTL_DISCOVER.get d = 1 → t.flash.discovering = true)) ∧
    (s.takesOne 0x8A1 d = true →
      ∃ t, exec (.axFladdrWrite d) s = .next t ∧ t.now = s.now ∧
        (s.on Reg.AX_FLCFG_EN = true → t.flash.block = some (blockOf (Reg.AX_FLADDR.get d * 4))) ∧
        (s.on Reg.AX_FLCFG_EN = false → t.flash = s.flash)) ∧
    (s.takesOne 0x011 d = true →
      (Reg.GL_BOOTCTL_SKIP.get d = 1 → ∃ t, exec (.bootSkip d) s = .next t ∧ t.now = s.now ∧ t.boot.stage = .wait ∧
        t.rd Reg.GL_BOOTSTAT_ERR = 9 ∧ t.reg 0 0x012 = 0) ∧
      (Reg.GL_BOOTCTL_SKIP.get d = 0 → Reg.GL_BOOTCTL_RELOAD.get d = 1 → ∃ t, exec (.bootReload d) s = .next t ∧ t.now = s.now ∧
        t.boot.stage = .load ∧ t.boot.header = none ∧ t.boot.image = none ∧ (t.aux 0).state = .boot ∧
        t.flash = { discovering := true }) ∧
      (Reg.GL_BOOTCTL_SKIP.get d = 0 → Reg.GL_BOOTCTL_RELOAD.get d = 0 → Reg.GL_BOOTCTL_VERNISSAGE.get d = 1 →
        ∃ t, exec (.bootVernissage d) s = .next t ∧ t.now = s.now ∧ t.boot.stage = .vern ∧ t.boot.vAt = some (s.now + 16000) ∧
          (s.boot.stage = .wait → t.rd Reg.GL_BOOTSTAT_SUPV = 1))) ∧
    (s.takesOne 0x101 d = true →
      ∃ t, exec (.pwCfgWrite none d) s = .next t ∧ t.now = s.now ∧
        t.power = { s.power with wake0 := t.power.wake0, wake1 := t.power.wake1 } ∧
        (Reg.PW_MEMCFG_MAXST0.get d < s.power.mem0.code → t.power.wake0 = s.power.wake0.or (some s.now)) ∧
        (Reg.PW_MEMCFG_MAXST1.get d < s.power.mem1.code → t.power.wake1 = s.power.wake1.or (some s.now))) ∧
    (∀ o : Fin 8, s.takesOne (0x108 + o.val) d = true →
      ∃ t, exec (.pwCfgWrite (some o) d) s = .next t ∧ t.now = s.now ∧ (t.oct o.val).activeAt = s.now ∧
        Reg.PW_OCTCFG_MAXST.get (t.reg 0 (0x108 + o.val)) = Reg.PW_OCTCFG_MAXST.get d ∧
        Reg.PW_OCTCFG_DARKT.get (t.reg 0 (0x108 + o.val)) = Reg.PW_OCTCFG_DARKT.get d) ∧
    (s.takesOne 0x120 d = true → (s.isPrimary && s.hinge.state.paired) = false →
      (Reg.PW_RSTCTL_SOFT.get d = 1 → s.regsWf = true → ∃ t, exec (.softReset d) s = .next t ∧ t.now = s.now ∧
        t.boot = { fuseAt := s.now } ∧ t.chain.assigned = false ∧ t.pending = s.pending ∧ t.rd Reg.PW_RSTSTAT_LAST = 2 ∧
        t.ports = [] ∧ t.rings = [] ∧ t.staging = [] ∧ t.mons = [] ∧ t.cus = [] ∧ t.srcs = []) ∧
      (∀ h : Fin 2, d.toNat % 65536 = 2 ^ (11 + h.val) → ∃ t, exec (.memReset d) s = .next t ∧ t.now = s.now ∧
        t.power = (if h.val = 0 then { s.power with mem0 := .run, mem0At := s.now, wake0 := none }
          else { s.power with mem1 := .run, mem1At := s.now, wake1 := none }) ∧
        t.rd Reg.PW_RSTSTAT_LAST = 7 + h.val) ∧
      (∀ o : Fin 8, d.toNat % 65536 = 2 ^ o.val → ∃ t, exec (.octReset d) s = .next t ∧ t.now = s.now ∧
        (t.oct o.val).state = .dark ∧ (t.oct o.val).wakeAt = some (s.now, 0) ∧ t.rd Reg.PW_RSTSTAT_LAST = 9) ∧
      (d.toNat % 65536 = 2 ^ 10 → ∃ t, exec (.hingeReset d) s = .next t ∧ t.now = s.now ∧ t.hinge.up = false ∧
        t.hinge.retrainAt = none ∧ t.rd Reg.PW_RSTSTAT_LAST = 6) ∧
      (d.toNat % 65536 = 2 ^ 9 → s.engagedShadow = false → ∃ t, exec (.hostReset d) s = .next t ∧ t.now = s.now ∧
        t.link.pm = .down ∧ t.staging = [] ∧ t.segments = [] ∧ (∀ n, (t.ring n).state = .off) ∧
        t.rd Reg.PW_RSTSTAT_LAST = 4) ∧
      (d.toNat % 65536 = 2 ^ 8 → ∃ t, exec (.coreReset d) s = .next t ∧ t.now = s.now ∧ t.boot.stage = .load ∧
        t.rd Reg.PW_RSTSTAT_LAST = 3 ∧ t.rings = [] ∧ t.staging = [] ∧ t.chain.assigned = s.chain.assigned)) ∧
    (s.takesOne 0x1C1 d = true →
      ∃ t, exec (.alCut d) s = .next t ∧ t.now = s.now ∧
        t.almanac = { s.almanac with cutAsked := s.almanac.cutAsked || Reg.AL_CTL_CUT.get d == 1 })

/-! ### Palettes and the receive side (03_receive.md, 04_provisional.md, 05_transmit_flow_partners.md) -/

/-- An accepted write of a palette word (R65, R66) stores it and counts one generation of the entry; where no enabled port
names the entry, no port changes. PT_RXCTL_FMRESTART discards the partial gate of the meter (R91), CQ_CTL_CLRHIST empties
the Cue windows (R155), PT_TXCTL_RESUME clears XOFF_RX (R145), and PT_RXCTL_REACQ in HELD is held until the port runs
again (R90). PALETTE_BOUNDARY (R69 to R71): a receive change that waits, with no character in progress, applies at this
edge: the port works under the settings its palette entry now holds. In an engaged shadow, which waits for the primary's
boundary (R248), and where no change waits, the receive settings stay. -/
def Obligations.PortSettingsChange : Prop :=
  (∀ (s : State) (d : Word),
      (∀ k : Fin 4, s.takesWrite (0x301 + k.val) d = true → s.selAll (0x301 + k.val) = false →
        (∀ p ∈ s.enabledPorts, s.rd Reg.PT_RXCFG_PAL p ≠ s.selOf (0x301 + k.val)) →
        ∃ t, exec (.paletteWrite k d) s = .next t ∧
          t.reg (s.selOf (0x301 + k.val)) (0x301 + k.val) =
            mergeWord s (s.selOf (0x301 + k.val)) (0x301 + k.val) d ∧
          t.rd Reg.PL_STAT_GEN (s.selOf (0x301 + k.val)) =
            (s.rd Reg.PL_STAT_GEN (s.selOf (0x301 + k.val)) + 1) % 2 ^ 16 ∧ t.ports = s.ports) ∧
      (s.takesWrite 0x402 2 = true → s.selAll 0x402 = false →
        ∃ t, exec (.fmRestart 2) s = .next t ∧ (t.port (s.selOf 0x402)).meter = {} ∧
          (s.gateDue (s.selOf 0x402) = false →
            t.port (s.selOf 0x402) = { s.port (s.selOf 0x402) with meter := {} }) ∧
          (∀ p, p ≠ s.selOf 0x402 → t.port p = s.port p)) ∧
      (s.takesWrite 0x402 1 = true → s.selAll 0x402 = false → (s.port (s.selOf 0x402)).rx = .held →
        s.gateDue (s.selOf 0x402) = false →
        ∃ t, exec (.rxReacq 1) s = .next t ∧
          t.port (s.selOf 0x402) = { s.port (s.selOf 0x402) with reacqHeld := true }) ∧
      (s.takesWrite 0x901 2 = true → s.selAll 0x901 = false →
        ∃ t, exec (.cueClrhist 2) s = .next t ∧ (t.port (s.selOf 0x901)).windows = []) ∧
      (s.takesWrite 0x415 2 = true → s.selAll 0x415 = false →
        ∃ t, exec (.txResume 2) s = .next t ∧
          t.port (s.selOf 0x415) = { s.port (s.selOf 0x415) with xoffRx := false })) ∧
  (∀ (s : State) (p : PortIx), s.running = true → s.gateDue p.val = false → s.fallbackDue p.val = false →
      s.pinRuns (rxPin p.val) = true → (s.port p.val).txPalWaits = false →
      ((s.port p.val).palWaits = true → (s.port p.val).rx = .track → (s.port p.val).trk.cur = none →
        s.engagedShadow = false →
        ∃ t, exec (.paletteBoundary p) s = .next t ∧ (t.port p.val).set = s.portPalette p.val ∧
          (t.port p.val).palWaits = false ∧ t.now = s.now) ∧
      ((s.port p.val).palWaits = false → exec (.paletteBoundary p) s = .next s) ∧
      (s.engagedShadow = true → (s.port p.val).trk.cur = none → exec (.paletteBoundary p) s = .next s))

/-- PIN_TRANSITION (R72, R41, R92): the event forms at the first DCLK edge behind its second crossing. A transition takes the
line to the new level, a glitch leaves it; the extractor's event carries both crossings referred to the pin, its sampling
edge, and for a transition the instant of the last opposite one. The first full level a sampler takes is no event. While a
span change freezes the group nothing is sampled. -/
def Obligations.PinTransitionIsExtracted : Prop :=
  ∀ (s : State) (q : PinIx) (high glitch : Bool) (x1 x2 : Stamp),
    (s.samples q.val = true → (s.pin q.val).level = some (if glitch then high else !high) →
      ∃ t e, exec (.pinTransition q high glitch x1 x2) s = .next t ∧
        (t.pin q.val).level = some high ∧ (t.pin q.val).sample = (if high then .high else .low) ∧
        e.high = high ∧ e.glitch = glitch ∧
        e.s1 = x1 - BitVec.ofNat 64 (s.rd Reg.TB_PINPATH_IN_PATH q.val) - s.pairOfs ∧
        e.s2 = x2 - BitVec.ofNat 64 (s.rd Reg.TB_PINPATH_IN_PATH q.val) - s.pairOfs ∧
        e.prev = (if glitch then none else if high then (s.pin q.val).lastLow else (s.pin q.val).lastHigh) ∧
        (t.pin q.val).recorder.getLast? = some e ∧ t.now = s.edgeAt (x2 + 1) ∧
        (∀ r, r ≠ q.val → (t.pin r).recorder = (s.pin r).recorder)) ∧
    (s.samples q.val = true → (s.pin q.val).level = none →
      ∃ t, exec (.pinTransition q high glitch x1 x2) s = .next t ∧ (t.pin q.val).level = some high ∧
        (t.pin q.val).recorder = (s.pin q.val).recorder ∧ t.ports = s.ports ∧ t.mons = s.mons) ∧
    (s.samples q.val = false → exec (.pinTransition q high glitch x1 x2) s = .next s)

/-- EDGE_EVENT_AT_CORE (R21, R74, R93): the oldest event its port has not consumed reaches the core 16 DCLK after its sampling
edge, 2 DCLK after the one before during replay. In TRACK a transition to space after enough mark starts a character whose
stamp is its first crossing, and an event inside a character belongs to it. -/
def Obligations.EventsReachTheTracker : Prop :=
  ∀ (s : State) (p : PortIx) (e : PinEvent) (l : List PinEvent), s.running = true → s.gateDue p.val = false →
    (s.port p.val).rx = .track → (s.pin (rxPin p.val)).unread = e :: l → (s.pin (rxPin p.val)).lost = 0 →
    ((s.port p.val).trk.cur = none → (s.port p.val).breaking = none → e.toSpace (s.port p.val).set = true →
      ((s.port p.val).trk.sawMark = true ∨ e.longMark (s.port p.val).trk.period = true) →
      ∃ t, exec (.edgeEventAtCore p) s = .next t ∧
        (t.port p.val).trk.cur = some { t0 := e.t, stamp := e.s1, markFrom := e.prev } ∧
        (t.pin (rxPin p.val)).fresh = (s.pin (rxPin p.val)).fresh - 1 ∧
        t.now = (if (s.port p.val).replay then s.now + 2 else max s.now (e.edge + 16)) ∧ t.regs = s.regs) ∧
    (∀ f, (s.port p.val).trk.cur = some f → (f.held = false ∨ e.toMark (s.port p.val).set = false) →
      ∃ t, exec (.edgeEventAtCore p) s = .next t ∧
        (t.port p.val).trk.cur = some { f with evs := f.evs ++ [e] } ∧
        (t.pin (rxPin p.val)).fresh = (s.pin (rxPin p.val)).fresh - 1 ∧
        t.now = (if (s.port p.val).replay then s.now + 2 else max s.now (e.edge + 16)) ∧ t.regs = s.regs)

/-- STOP_BIT_CHECK in TRACK (R75, R77, R89), 16 DCLK after sampling of the last stop-bit centre, once every transition before
it has reached the core: an all-space character is held; a second consecutive character with FE starts REACQ from its own
start transition, but not under a direct entry; any other character is completed, and the tracker searches the next start.
BREAK_DETECT (R76, R151, R155): once space has been held F_b + 1 bit periods from a start transition, at the core 16 DCLK
later, the port is in a break that began there: no partner is selected, and the Cue windows are empty. The record follows
at the return to mark. -/
def Obligations.CharactersAndBreaksEnd : Prop :=
  (∀ (s : State) (p : PortIx) (f : Frame), s.running = true → s.gateDue p.val = false → s.engagedShadow = false →
      (s.port p.val).rx = .track → (s.port p.val).trk.cur = some f → f.held = false →
      s.caughtUp p.val (f.centre (s.port p.val).set (s.port p.val).trk.period) = true →
      f.leftover (s.port p.val).set (s.port p.val).trk.period = [] →
      ∃ t, exec (.stopBitCheck p) s = .next t ∧
        t.now = max s.now (s.coreEdge p.val (f.centre (s.port p.val).set (s.port p.val).trk.period)) ∧
        (f.allSpace (s.port p.val).set (s.port p.val).trk.period = true →
          (t.port p.val).trk.cur = some { f with held := true } ∧ t.regs = s.regs) ∧
        (f.allSpace (s.port p.val).set (s.port p.val).trk.period = false →
          (f.decode (s.port p.val).set (s.port p.val).trk.period true).fe = true → 0 < (s.port p.val).feRun →
          (s.port p.val).set.direct = false → (s.port p.val).palWaits = false →
          (t.port p.val).rx = .reacq ∧ (t.port p.val).acq.map (·.starts) = some [f.t0] ∧ t.on Reg.PT_RXSTAT_ALERT_RA p.val = true) ∧
        (f.allSpace (s.port p.val).set (s.port p.val).trk.period = false →
          ((f.decode (s.port p.val).set (s.port p.val).trk.period true).fe = false ∨ (s.port p.val).feRun = 0 ∨
            (s.port p.val).set.direct = true) →
          (t.port p.val).trk.cur = none)) ∧
  (∀ (s : State) (p : PortIx) (f : Frame) (period : Nat), s.running = true → s.gateDue p.val = false →
      s.fallbackDue p.val = false → (s.port p.val).candidate = some (f, period) →
      s.caughtUp p.val (breakAt (s.port p.val).set period f.t0) = true →
      ∃ t, exec (.breakDetect p) s = .next t ∧ (t.port p.val).breaking = some (f.t0, f.stamp) ∧
        t.now = max s.now (s.coreEdge p.val (breakAt (s.port p.val).set period f.t0)) ∧ (t.port p.val).sel = none ∧
        (t.port p.val).feRun = 0 ∧ (t.port p.val).windows = [] ∧ t.regs = s.regs ∧ t.pins = s.pins ∧ t.srcs = s.srcs)

/-- FM_GATE_CLOSE (R91): a full gate gives the mean bit period, its offset from the nominal in ppm, the transitions and the
last transition's stamp under the next sequence number, and a new gate starts. EDGE_ONLY_FALLBACK (R86): the 65th
acquisition character with no decision open takes the port to EDGE_ONLY with its alert. PROV_EXPIRE (R199): a PROV record
not issued within 2,048 DCLK of its offer is dropped. -/
def Obligations.GateFallbackAndExpiry : Prop :=
  ∀ (s : State) (p : PortIx), s.running = true →
    (s.gateDue p.val = true → s.on Reg.PT_RXCFG_FMREC p.val = false →
      ∃ t, exec (.fmGateClose p) s = .next t ∧ (t.port p.val).meter = {} ∧
        (t.port p.val).result.period = roundDiv ((s.port p.val).meter.sumD * 65536) (max 1 (s.port p.val).meter.sumN) ∧
        (t.port p.val).result.edges = (s.port p.val).meter.edges ∧
        (t.port p.val).result.stamp = (s.port p.val).meter.last ∧
        (t.port p.val).result.seq = (s.port p.val).result.seq + 1 ∧ t.now = s.now ∧ t.pins = s.pins) ∧
    (s.gateDue p.val = false → exec (.fmGateClose p) s = .next s) ∧
    (s.fallbackDue p.val = true →
      ∃ t, exec (.edgeOnlyFallback p) s = .next t ∧ (t.port p.val).rx = .edgeOnly ∧ (t.port p.val).acq = none ∧
        t.on Reg.PT_RXSTAT_ALERT_FB p.val = true ∧ t.now = s.now) ∧
    (s.fallbackDue p.val = false → exec (.edgeOnlyFallback p) s = .next s) ∧
    (∀ r, s.staging.find? (fun r => r.prov && r.slot.isNone) = some r →
      ∃ t, exec .provExpire s = .next t ∧ t.now = max s.now (r.since + 2048) ∧
        t.staging = s.staging.filter (fun x => x.uid != r.uid) ∧ t.regs = s.regs ∧ t.ports = s.ports)

/-! ### Transmission (05_transmit_flow_partners.md) -/

/-- DOORBELL (R171, R172): a doorbell the ring accepts sets its host count and touches no other ring and no register; a
rejected one leaves every host count, and on a ring that is not ACTIVE counts in RG_ERR_DB and does nothing else.
DESCRIPTOR_FETCH (R130, R131, R147): the descriptor of the next slot of an ACTIVE submission ring is read and counted in
RG_DEV. A valid one without a launch stamp joins its port's queue; an invalid one, or one of a port whose transmitter is
OFF or STARVED, or ends its last character before it is OFF, joins no queue and completes with a TXDONE record under its tag,
which is in staging or waits for room there. TX_DATA_FETCHED (R132, R147): the data of
the first queued descriptor that lacks them, of its length and within the free transmit space, make it ready; no other
descriptor and no other port changes. Where the queue lacks none, nothing changes. After a takeover (R261) the descriptor in
progress takes its data again before those in the queue. -/
def Obligations.SubmissionsReachTheQueue : Prop :=
  (∀ (s : State) (n : RingIx) (v : Word), s.running = true →
      (s.doorbellBad n.val v = false →
        ∃ t, exec (.doorbell n v) s = .next t ∧
          t.ring n.val = { s.ring n.val with host := v, readyFrom := (t.ring n.val).readyFrom } ∧
          (∀ m, m ≠ n.val → t.ring m = s.ring m) ∧ t.regs = s.regs ∧ t.staging = s.staging ∧ t.ports = s.ports) ∧
      (s.doorbellBad n.val v = true →
        ∃ t, exec (.doorbell n v) s = .next t ∧ (∀ m, (t.ring m).host = (s.ring m).host ∧ (t.ring m).issued = (s.ring m).issued) ∧
          ((s.ring n.val).state ≠ .active → s.engagedShadow = false →
            t = { s with regs := t.regs } ∧ s.regsSameBut t [(n.val, 0x50B)] ∧
            t.rd Reg.RG_ERR_DB n.val = min (s.rd Reg.RG_ERR_DB n.val + 1) 0xFFFF))) ∧
  (∀ (s : State) (n : RingIx) (b : List Byte) (d : Desc), (s.ring n.val).state = .active →
      s.rd Reg.RG_CFG_KIND n.val = 0 → (s.ring n.val).issued ≠ (s.ring n.val).host → s.descHeld n.val < 128 →
      s.mayRequest = true →
      d = { parseDesc n.val (BitVec.ofNat 32 ((s.ring n.val).issued.toNat % s.ringSize n.val)) b with
            num := (s.ring n.val).issued } →
      ∃ t, exec (.descriptorFetch n b) s = .next t ∧ (t.ring n.val).issued = (s.ring n.val).issued + 1 ∧
        t.rd Reg.RG_DEV n.val = ((s.ring n.val).issued.toNat + 1) % 2 ^ Reg.RG_DEV.width ∧
        (s.invalidDesc d (padTo 64 b) = false → (s.port d.port).tx ≠ .off → (s.port d.port).tx ≠ .starved →
          (s.port d.port).stopAfter ≠ some 5 → d.timed = false →
          (t.port d.port).queue = (s.port d.port).queue ++ [d] ∧
          (∀ p, p ≠ d.port → t.port p = s.port p) ∧ t.staging = s.staging) ∧
        (s.invalidDesc d (padTo 64 b) = true ∨ (s.port d.port).tx = .off ∨ (s.port d.port).tx = .starved ∨
            ((s.port d.port).stopAfter = some 5 ∧ s.on Reg.PT_TXCFG_EN d.port = false) →
          t.ports = s.ports ∧ ∃ r, (r ∈ t.staging ∨ r ∈ t.unbuilt) ∧ r.type = .txdone ∧ r.seq = d.tag ∧ r.port = d.port)) ∧
  (∀ (s : State) (p : PortIx) (b : List Byte),
      (∀ sd d, (s.port p.val).sending = some sd → sd.job = .desc d → d.data.isSome = true) →
      (∀ l d r, (s.port p.val).queue = l ++ d :: r → (∀ x ∈ l, x.data.isSome = true) → d.data = none → b.length = d.len →
        s.txUsed p.val + d.len ≤ s.txSpace p.val → s.mayRequest = true →
        ∃ t, exec (.txDataFetched p b) s = .next t ∧
          t.port p.val = { s.port p.val with queue := l ++ { d with data := some b } :: r } ∧
          (∀ q, q ≠ p.val → t.port q = s.port q) ∧ t.regs = s.regs ∧ t.staging = s.staging) ∧
      ((∀ x ∈ (s.port p.val).queue, x.data.isSome = true) → exec (.txDataFetched p b) s = .next s)) ∧
  (∀ (s : State) (p : PortIx) (b : List Byte) (sd : Sending) (d : Desc), (s.port p.val).sending = some sd →
      sd.job = .desc d → sd.flight = none → d.data = none → b.length = d.len → s.mayRequest = true →
      ∃ t, exec (.txDataFetched p b) s = .next t ∧
        t.port p.val = { s.port p.val with sending := some { sd with job := .desc { d with data := some b } } } ∧
        (∀ q, q ≠ p.val → t.port q = s.port q) ∧ t.regs = s.regs ∧ t.staging = s.staging)

/-- TX_CHAR_START (R132 to R134, R141, R144, R158): a free line takes the next start at the commit edge of its earliest launch
stamp, where flow control permits it: the device's own flow character, the next character of the job in progress, the waiting
reply or the ready descriptor. The character is in flight from that stamp for one frame, and the start edge goes out with it;
a flow character carries the value of PT_FCCFG, the first character of an addressed job its address, any other the next data
bytes. A start that XOFF holds does not take place. What follows a character without a wait for the line is committed while
that character is still on the line. TIMED_DECIDE (R135, R136): 4 DCLK before its commit edge a timed
descriptor whose data are there, which flow control permits and whose launch stamp nothing occupies, is committed: on a
free line its first character is in flight from the launch stamp itself. Otherwise it is late, leaves the queue and
completes. -/
def Obligations.TransmissionsStart : Prop :=
  (∀ (s : State) (p : PortIx) (n : NextStart) (e : Nat) (u : Stamp), s.running = true → (s.port p.val).line = none →
      s.nextStart p.val = n → n ≠ .none → s.startEdge p.val (s.earliestStart p.val n) = (e, u) →
      ((s.advance e).startPermitted p.val n = true →
        (∀ r, n = .reply r → ({ job := .reply r } : Sending).isDone = false) →
        (∀ d, n = .desc d → ({ job := .desc d } : Sending).isDone = false) →
        ∃ t, exec (.txCharStart p) s = .next t ∧ t.now = max s.now e ∧ (t.port p.val).tx = .send ∧ t.regs = s.regs ∧
          t.out = s.out ++ [.pinLevel (txPin p.val) ((s.pin (txPin p.val)).outLevel (s.port p.val).txSet.inverted) u] ∧
          (t.port p.val).queue = (match n with | .desc _ => (s.port p.val).queue.drop 1 | _ => (s.port p.val).queue) ∧
          (t.port p.val).replies = (match n with | .reply _ => (s.port p.val).replies.drop 1 | _ => (s.port p.val).replies) ∧
          (∀ b, n = .flow b → (t.port p.val).sending = (s.port p.val).sending ∧
            ∃ f, (t.port p.val).flowFlight = some f ∧ f.xoff = b ∧ f.start = u ∧
              f.end_ = (s.port p.val).txSet.frameEnd u (s.bitPeriod p.val) ∧
              f.value = BitVec.ofNat 9 (s.rd (if b then Reg.PT_FCCFG_XOFF else Reg.PT_FCCFG_XON) p.val) &&&
                BitVec.ofNat 9 (2 ^ min 8 (s.port p.val).txSet.data - 1)) ∧
          (∀ sd : Sending, (n = .next ∧ (s.port p.val).sending = some sd) ∨
              (∃ r, n = .reply r ∧ sd = { job := .reply r, heldByFlow := r.heldByFlow }) ∨
              (∃ d, n = .desc d ∧ sd = { job := .desc d }) →
            ∃ sd' v, (t.port p.val).sending = some sd' ∧ sd'.job = sd.job ∧ sd'.sent = sd.sent ∧
              sd'.first = some (sd.first.getD u) ∧
              sd'.flight = some (v, u, (s.port p.val).txSet.frameEnd u (s.bitPeriod p.val)) ∧
              (sd.addrDue = true → sd'.used = sd.used ∧
                v = s.addrChar p.val (match sd.job with | .desc d => d.partner | .reply r => r.to_) &&&
                  BitVec.ofNat 9 (2 ^ (s.port p.val).txSet.data - 1)) ∧
              (∀ a rest, sd.addrDue = false → sd.job.bytes.drop sd.used = a :: rest → (s.port p.val).txSet.data ≠ 9 →
                sd'.used = sd.used + 1 ∧
                v = a.zeroExtend 9 &&& BitVec.ofNat 9 (2 ^ (s.port p.val).txSet.data - 1)) ∧
              (∀ a b rest, sd.addrDue = false → sd.job.bytes.drop sd.used = a :: b :: rest → (s.port p.val).txSet.data = 9 →
                sd'.used = sd.used + 2 ∧
                v = if (s.port p.val).addrMode = 1 then a.zeroExtend 9 else (b.zeroExtend 9 <<< 8) ||| a.zeroExtend 9))) ∧
      (∀ d, n = .desc d → (s.port p.val).flowMode = 2 → (s.port p.val).xoffRx = true →
        exec (.txCharStart p) s = .next (s.advance e))) ∧
  (∀ (s : State) (p : PortIx) (n : NextStart) (e : Nat) (u v z : Stamp) (c : BitVec 9) (bit : Nat), s.running = true →
      (s.port p.val).line = some (c, v, z, bit) → s.nextAhead p.val = n → n ≠ .none →
      s.startEdge p.val (some (s.aheadStart p.val n z)) = (e, u) → e < s.edgeOf z →
      (s.advance e).startPermitted p.val n = true →
      ∃ t a, exec (.txCharStart p) s = .next t ∧ t.now = max s.now e ∧ (t.port p.val).ahead = some a ∧ a.what = n ∧
        a.start = u ∧ (t.port p.val).line = (s.port p.val).line ∧ t.regs = s.regs) ∧
  (∀ (s : State) (p : PortIx) (d : Desc) (rest : List Desc) (n u : Nat), s.running = true →
      (s.port p.val).launchAt = some (n, u) → (s.port p.val).queue = d :: rest → (s.port p.val).launchOk = false →
      s.mayTransmit p.val = true →
      ((s.advance (n - 4)).flowPermits p.val = true → d.data.isSome = true → s.occupied p.val d.launch = false →
        (s.port p.val).sending = none → (s.port p.val).flowFlight = none →
        ({ job := .desc d } : Sending).isDone = false →
        ∃ t, exec (.timedDecide p) s = .next t ∧ t.now = max s.now (n - 4) ∧ (t.port p.val).queue = rest ∧
          ∃ sd v z, (t.port p.val).sending = some sd ∧ sd.job = .desc d ∧ sd.flight = some (v, d.launch, z) ∧
            sd.first = some d.launch) ∧
      ((s.advance (n - 4)).flowPermits p.val = true → d.data.isSome = true → s.occupied p.val d.launch = false →
        (s.port p.val).line.isSome = true →
        ∃ t, exec (.timedDecide p) s = .next t ∧ t.now = max s.now (n - 4) ∧
          t.port p.val = { s.port p.val with launchOk := true }) ∧
      ((s.advance (n - 4)).flowPermits p.val = false ∨ d.data = none ∨ s.occupied p.val d.launch = true →
        ∃ t, exec (.timedDecide p) s = .next t ∧ t.now = max s.now (n - 4) ∧
          (t.port p.val).queue.length < (s.port p.val).queue.length ∧
          ∃ r, (r ∈ t.staging ∨ r ∈ t.unbuilt) ∧ r.type = .txdone ∧ r.seq = d.tag ∧ r.port = p.val ∧ r.late = true))

/-- TX_CHAR_END (R133, R137, R140): at the first edge at which C is at or after its commanded end, the character in flight has
been sent. The last one of a descriptor, with nothing that follows, completes it with a TXDONE record under its tag, in
staging or waiting for room there, and the transmitter is IDLE. A shadow, which transmits nothing beside its primary (R248;
while ENGAGING and DEGRADED as log entry 35 reads it), changes nothing. -/
def Obligations.CharacterEndCompletesTheDescriptor : Prop :=
  ∀ (s : State) (p : PortIx) (v : BitVec 9) (a e : Stamp) (bit : Nat), (s.port p.val).line = some (v, a, e, bit) →
    (s.shadowing = true → exec (.txCharEnd p) s = .next s) ∧
    (s.shadowing = false → (s.pin (txPin p.val)).cfgWaits = none → (s.pin (txPin p.val)).switchWaits = false →
      ∃ t, exec (.txCharEnd p) s = .next t ∧ t.now = s.edgeAt e ∧ (t.port p.val).lastSent = some e ∧
        (a, e) ∈ (t.port p.val).spans) ∧
    (∀ sd d, s.shadowing = false → (s.port p.val).sending = some sd → (s.port p.val).flowFlight = none →
      sd.job = .desc d → sd.isDone = true → (s.port p.val).ahead = none → (s.port p.val).stopAfter = none →
      (s.port p.val).replies = [] → (s.port p.val).queue = [] → (s.port p.val).launchOk = false →
      (s.port p.val).launchAt = none → (s.port p.val).flowDue = [] → (s.port p.val).tx = .send →
      (s.pin (txPin p.val)).cfgWaits = none → (s.pin (txPin p.val)).switchWaits = false →
      ∃ t, exec (.txCharEnd p) s = .next t ∧ t.now = s.edgeAt e ∧ (t.port p.val).sending = none ∧
        (t.port p.val).tx = .idle ∧ (t.port p.val).lastSent = some e ∧
        ∃ r, (r ∈ t.staging ∨ r ∈ t.unbuilt) ∧ r.type = .txdone ∧ r.seq = d.tag ∧ r.port = p.val)

/-! ### The host link and rings (06_host_link_rings.md) -/

/-- CONFIG_WRITE (R168) applies the write to configuration space in L0, and the link goes back to L1 in D3hot; it completes to
the host and changes no register. The widths of its registers are the Base Specification's, as log entry 23 says. The link
(R166, R205, R417, R441, R482): 16,000 DCLK without a request take it to L1 where ASPM L1 is enabled; LINK_UP brings L0 in the
mode trained, one of those the device has; LINK_DOWN resets configuration space, counts in RG_LINK_DOWNS, keeps every ring's
state, and what was issued and not committed is to be written again; PERST_DEASSERT lets training begin and releases WAKE#;
PERST_ASSERT clears the rings and staging. WAKE_REQUEST (R206, R287): with PME enabled and an enabled source pending, D3hot
sends PM_PME, for which the link leaves L1 and to which it returns, and L2 or D3cold asserts WAKE#, each once counted in
RG_LINK_PMES. -/
def Obligations.TheHostLinkFollows : Prop :=
  (∀ (s : State) (c : CfgWrite),
      (s.running = true → s.link.up = true →
        ∃ t, exec (.configWrite c) s = .next t ∧ t.regs = s.regs ∧ t.now = s.now ∧ Out.cfgDone ∈ t.out ∧
          t.link.bme = (({ s.link with pm := .l0, idleFrom := s.now } : Link).config c).bme ∧
          t.link.msixEn = (({ s.link with pm := .l0, idleFrom := s.now } : Link).config c).msixEn ∧
          t.link.funcMask = (({ s.link with pm := .l0, idleFrom := s.now } : Link).config c).funcMask ∧
          t.link.d3hot = (({ s.link with pm := .l0, idleFrom := s.now } : Link).config c).d3hot ∧
          t.link.bar0 = (({ s.link with pm := .l0, idleFrom := s.now } : Link).config c).bar0 ∧
          t.link.bar2 = (({ s.link with pm := .l0, idleFrom := s.now } : Link).config c).bar2 ∧
          t.link.pm = if t.link.d3hot then .l1 else .l0) ∧
      (s.running = false ∨ s.link.up = false → exec (.configWrite c) s = .next s)) ∧
  (∀ s : State,
      (s.running = true → s.link.aspmL1 = true → s.link.pm = .l0 → s.link.d3hot = false → s.requestWaits = false →
        ∃ t, exec .aspmL1Request s = .next t ∧ t.link.pm = .l1 ∧ t.power.host = .idle ∧
          t.now = max s.now (s.link.idleFrom + 16000) ∧ t.regs = s.regs) ∧
      (∀ (speed : BitVec 4) (width : BitVec 6) (flit : Bool),
        (1 ≤ speed.toNat → speed.toNat ≤ 6 → (speed = 6 → flit = true) →
          width = 1 ∨ width = 2 ∨ width = 4 ∨ width = 8 ∨ width = 16 →
          s.running = true → s.link.perst = false → s.link.up = false → s.power.host ≠ .dark →
          ∃ t, exec (.linkUp speed width flit) s = .next t ∧ t.link.pm = .l0 ∧ t.link.speed = speed ∧ t.link.width = width ∧
            t.link.flit = flit ∧ t.link.wakeOut = false ∧ t.regs = s.regs ∧ t.staging = s.staging) ∧
        (speed.toNat = 0 ∨ 6 < speed.toNat ∨ (speed = 6 ∧ flit = false) →
          exec (.linkUp speed width flit) s = .next s)) ∧
      (s.link.up = true →
        ∃ t, exec .linkDown s = .next t ∧ t.link.pm = .down ∧ t.link.bme = false ∧ t.link.d3hot = false ∧
          t.rd Reg.RG_LINK_DOWNS = min (s.rd Reg.RG_LINK_DOWNS + 1) 0xFFFF ∧ t.flushes = [] ∧
          (∀ r ∈ t.staging, r.slot.isSome = true → r.rewrite = true) ∧
          (∀ n, (t.ring n).state = (s.ring n).state ∧ (t.ring n).issued = (s.ring n).issued)) ∧
      (s.link.perst = true → ∃ t, exec .perstDeassert s = .next t ∧ t.link = { s.link with perst := false, wakeOut := false } ∧
        t.out = s.out ++ (if s.link.wakeOut then [.wakeN false] else []) ∧ t.regs = s.regs) ∧
      (s.link.perst = false → s.running = true → s.engagedShadow = false →
        ∃ t, exec .perstAssert s = .next t ∧ t.link.perst = true ∧ t.link.pm = .down ∧ t.staging = [] ∧
          t.rd Reg.PW_RSTSTAT_LAST = 5 ∧ (∀ n, (t.ring n).state = .off))) ∧
  (∀ s : State, s.running = true → s.link.pmeEn = true → s.wakeSource = true →
      (s.link.pm ≠ .l2 → s.power.host ≠ .dark → s.link.d3hot = true → s.link.up = true →
        ∃ t l, exec .wakeRequest s = .next t ∧ t.out = s.out ++ l ++ [.pme, .linkL1] ∧
          l = (if s.link.pm = .l1 then [.linkL0] else []) ∧ t.link = { s.link with pmeOut := true, pm := .l1 } ∧
          (s.link.pmeOut = false → t.rd Reg.RG_LINK_PMES = min (s.rd Reg.RG_LINK_PMES + 1) 0xFFFF)) ∧
      (s.link.pm = .l2 ∨ s.power.host = .dark → s.link.wakeOut = false →
        ∃ t, exec .wakeRequest s = .next t ∧ t.link = { s.link with wakeOut := true } ∧ t.out = s.out ++ [.wakeN true] ∧
          t.rd Reg.RG_LINK_PMES = min (s.rd Reg.RG_LINK_PMES + 1) 0xFFFF))

/-- Records on their way (R146, R186, R194, R198, R200, R203, R204, R229): the oldest transmit record that waits for room, else
the oldest entry of the receive space, goes into staging, in the record of its ring that carries its event; the records that
the horizon point passes become eligible; a message whose records are all issued is sent first at a write opportunity,
its mailbox write before its MSI-X message; else the records of the ring under pressure, of the BOUNDED ring whose bound comes
first, or of the LOSSLESS ring with the earliest record are issued in one run, each with its slot. A ring drains and faults
(R177, R208): a DRAINING ring that holds no record, entry or descriptor, or is barred after a takeover (R264), enters OFF; a
read completion that fails takes an ACTIVE submission ring to FAULT with its RD bit; log entry 104 says what it does while
the ring drains. -/
def Obligations.RecordsAndRingsMove : Prop :=
  (∀ s : State, s.running = true →
      (∀ (p : PortIx) (e : Entry), s.shadowing = false → s.firstTx p.val = none →
        (s.port p.val).entries.find? (fun e => !e.built) = some e →
        s.gapBlocks p.val e = false → s.stagingAdmits p.val e = true →
        ∃ t, exec (.recordBuild (some p)) s = .next t ∧ t.now = s.now ∧
          (∀ x ∈ (t.port p.val).entries, x.order = e.order → x.built = true) ∧
          (t.port p.val).entries.length = (s.port p.val).entries.length ∧
          (∀ c k n seq cf compact, e.kind = .chr c k n seq cf compact →
            ∃ x ∈ t.staging, x.ring = n ∧ x.port = p.val ∧ x.partner = k ∧ x.type = .chr ∧ e.uid ∈ x.events) ∧
          (∀ type all bodies, e.kind = .port type all bodies → ∀ b ∈ bodies,
            ∃ x ∈ t.staging, x.ring = b.1 ∧ x.port = p.val ∧ x.type = type ∧ x.base = e.base ∧ e.uid ∈ x.events)) ∧
      (∀ (p : PortIx) (r : Rec), s.shadowing = false → s.firstTx p.val = some r →
        ∃ t, exec (.recordBuild (some p)) s = .next t ∧ t.now = s.now ∧ t.ports = s.ports ∧
          t.unbuilt = s.unbuilt.filter (fun x => x.uid != r.uid) ∧
          ∃ x ∈ t.staging, x.uid = r.uid ∧ x.ring = r.ring ∧ x.type = r.type ∧ x.base = r.base ∧ x.body = r.body) ∧
      (∀ (n : RingIx) (b a : Stamp), earliest ((s.staging.filter (fun r => r.waits n.val)).map (·.base)) = some b →
        a = b + ticks (s.rd Reg.RG_HZ n.val * 1024 + 1) + s.pairOfs →
        ∃ t, exec (.recordEligible n) s = .next t ∧ t.now = s.edgeAt a ∧ t.regs = s.regs ∧
          (∀ r ∈ s.staging, r.waits n.val = true → sLe r.base ((s.advanceTo a).hp n.val) = true →
            ∃ x ∈ t.staging, x.uid = r.uid ∧ x.eligible = true ∧ x.eligAt = t.now ∧ x.isOpen = false) ∧
          (∀ r ∈ t.staging, r.waits n.val = true → sLe r.base ((s.advanceTo a).hp n.val) = false)) ∧
      (∀ m, s.mayRequest = true → s.hinge.flushFirst = false → s.staging.any (·.rewrite) = false → s.readyMsg = some m →
        s.link.pm = .l0 →
        ∃ t, exec .writeOpportunity s = .next t ∧ t.msgs = s.msgs.erase m ∧ t.staging = s.staging ∧ t.regs = s.regs ∧
          t.out = s.out ++
            [.write ((s.reg m.target 0x223 ++ (s.reg m.target 0x222 : Word)) + BitVec.ofNat 64 (16 * m.slot)) m.bytes,
             .msix (s.reg m.target 0x225 ++ (s.reg m.target 0x224 : Word)) (s.reg m.target 0x226)]) ∧
      (∀ n, s.mayRequest = true → s.hinge.flushFirst = false → s.staging.any (·.rewrite) = false → s.readyMsg = none →
        s.pressedRing.or
          ((s.bestRing (fun a b => decide (s.boundOf a.ring a.since < s.boundOf b.ring b.since))
              (s.readyRings.filter (fun n => s.ringClass n == 1))).or
            (s.bestRing (fun a b => sLt a.base b.base) (s.readyRings.filter (fun n => s.ringClass n == 0)))) = some n →
        ∃ t, exec .writeOpportunity s = .next t ∧ t.flushDue = true ∧ t.link.lastRing = some n ∧
          (t.ring n).issued = (s.ring n).issued + BitVec.ofNat 32 (s.runOf n 512 (s.eligibleRecs n)).length ∧
          ∀ r ∈ s.runOf n 512 (s.eligibleRecs n), ∃ x ∈ t.staging, x.uid = r.uid ∧ x.slot.isSome = true)) ∧
  (∀ (s : State) (n : RingIx), s.running = true →
      ((s.ring n.val).state = .draining →
        (s.ring n.val).mute = true ∨ ((∀ r ∈ s.staging, r.ring ≠ n.val) ∧ s.descHeld n.val = 0 ∧ s.unwritten n.val = [] ∧
          (∀ w ∈ s.gapWaits, w.ring ≠ n.val)) →
        ∃ t, exec (.ringDrainDone n) s = .next t ∧ t.ring n.val = { s.ring n.val with state := .off } ∧
          (∀ m, m ≠ n.val → t.ring m = s.ring m) ∧ t.regs = s.regs) ∧
      ((s.ring n.val).state ≠ .draining ∨ ((s.ring n.val).mute = false ∧ ∃ r ∈ s.staging, r.ring = n.val) →
        exec (.ringDrainDone n) s = .next s) ∧
      (∀ status address, (s.ring n.val).state ≠ .off → s.rd Reg.RG_CFG_KIND n.val = 0 →
        ∃ t, exec (.readCompletionFail n status address) s = .next t ∧ t.now = s.now ∧
          (t.ring n.val).state = (if (s.ring n.val).state = .active then .fault else (s.ring n.val).state) ∧
          t.on Reg.RG_STAT_FAULT_RD n.val = true ∧
          (∀ m, m ≠ n.val → (t.ring m).state = (s.ring m).state)))

/-! ### Coherence (07_coherence.md) -/

/-- Commit points (R215 to R218, R220, R221): a flush read is issued not before 64 DCLK times PERIOD after the last; its
completion counts in GL_CMTCNT, shows its latency in 64 DCLK rounded to nearest, and every record written before it leaves
staging and advances RG_DEV of its ring; its failure counts in GL_CMTERR_FAIL, and every
record issued and not committed is to be written again; writing them again, once the link allows it, asks for a new flush
read. -/
def Obligations.FlushReadsCommitRecords : Prop :=
  ∀ s : State, s.running = true →
    (s.flushDue = true → s.mayRequest = true → s.flushes.length < s.rd Reg.GL_CMTCFG_MAXOUT →
      s.staging.any (·.rewrite) = false →
      ∃ t f, exec .flushReadIssue s = .next t ∧ t.flushes = s.flushes ++ [f] ∧ f.at_ = t.now ∧ t.flushAt = some t.now ∧
        t.flushDue = false ∧ (∀ r ∈ s.staging, r.slot.isSome = true → r.uid ∈ f.recs) ∧
        (∀ a, s.flushAt = some a → a + 64 * s.rd Reg.GL_CMTCFG_PERIOD ≤ t.now) ∧ t.regs = s.regs) ∧
    (∀ f l, s.flushes = f :: l →
      ∃ t, exec .flushReadComplete s = .next t ∧ t.flushes = l ∧
        t.rd Reg.GL_CMTCNT = (s.rd Reg.GL_CMTCNT + 1) % 2 ^ 32 ∧
        t.rd Reg.GL_CMTSTAT_LASTLAT = min (roundDiv (s.now - f.at_) 64) 65535 ∧ t.now = s.now ∧
        (∀ r ∈ t.staging, r.slot.isSome = true → r.rewrite = false → r.uid ∉ f.recs) ∧
        (∀ n : RingIx, t.rd Reg.RG_DEV n.val = (s.rd Reg.RG_DEV n.val +
          (s.staging.filter (fun r => r.ring == n.val && r.slot.isSome && !r.rewrite && f.recs.contains r.uid)).length) %
            2 ^ 32)) ∧
    (∀ f l status, s.flushes = f :: l →
      ∃ t, exec (.flushReadFail status) s = .next t ∧ t.flushes = l ∧
        t.rd Reg.GL_CMTERR_FAIL = min (s.rd Reg.GL_CMTERR_FAIL + 1) 0xFFFF ∧
        (∀ r ∈ t.staging, r.slot.isSome = true → r.rewrite = true)) ∧
    (s.mayRequest = true → s.staging.any (·.rewrite) = true →
      ∃ t, exec .recordRewrite s = .next t ∧ t.flushDue = true ∧ t.staging.any (·.rewrite) = false ∧
        t.staging.length = s.staging.length ∧ t.regs = s.regs ∧ t.now = s.now)

/-- Intervals (R231 to R236): a BOUNDED ring opens a breach interval at the edge at which the oldest of what it has to write
passes its bound, with cause LINK where the device may request nothing; one that lasts 1,600,000 DCLK forms an OPEN record and
starts anew with the cause that holds then; a BULK ring opens a fairness
interval with cause PRECEDENCE once it has held a record that it could write for 1,600,000 DCLK without a write; a loss
interval of that length, of a partner or of the event ring, starts anew with counts 0 from the last loss on, and its GAP
record is formed or waits for its place; the record that waits longest takes a free one. -/
def Obligations.IntervalsOpenAndContinue : Prop :=
  ∀ (s : State) (n : RingIx), s.running = true →
    (∀ x, s.ringClass n.val = 1 → (s.ring n.val).breach = none → leastOf (s.unwritten n.val) = some x →
      ∃ t b, exec (.breachOpen n) s = .next t ∧ (t.ring n.val).breach = some b ∧ b.start = t.now ∧ b.records = 0 ∧
        b.cause = t.breachCause n.val x ∧
        t.now = max s.now (x + s.rd Reg.RG_QOS_LAT n.val * 1600) ∧ (s.mayRequest = false → b.cause = 2) ∧ t.regs = s.regs) ∧
    (∀ b, (s.ring n.val).breach = some b → s.ringClass n.val = 1 → s.breachPlaceTaken n.val = false →
      ∃ t b', exec (.breachIntervalLimit n) s = .next t ∧ (t.ring n.val).breach = some b' ∧ b'.start = t.now ∧
        b'.records = 0 ∧ b'.worst = 0 ∧ t.now = max s.now (b.start + 1600000) ∧ (s.mayRequest = false → b'.cause = 2) ∧
        ∃ r ∈ t.staging, r.ring = n.val ∧ r.type = .breach ∧ r.slot = none) ∧
    (∀ a, s.ringClass n.val = 2 → (s.ring n.val).breach = none → s.holdsReady n.val = true →
      (s.ring n.val).readyFrom = some a →
      ∃ t b, exec (.fairnessOpen n) s = .next t ∧ (t.ring n.val).breach = some b ∧ b.cause = 4 ∧ b.start = t.now ∧
        t.now = max s.now (a + 1600000) ∧ t.regs = s.regs) ∧
    (∀ (p : PortIx) (k : Fin 4) (l : Loss), (s.port p.val).losses.find? (fun x => x.1 == k.val) = some (k.val, l) →
      ∃ t, exec (.gapIntervalLimit p k.castSucc) s = .next t ∧ t.now = max s.now (l.opened + 1600000) ∧
        (∃ l', Sparse.get (fun _ => l) (t.port p.val).losses k.val = l' ∧ l'.chars = 0 ∧ l'.others = 0 ∧
          l'.opened = t.now ∧ l'.first = l.last) ∧
        ((∃ r ∈ t.staging, r.ring = s.partnerRing p.val k.val ∧ r.type = .gap ∧ r.slot = none) ∨
          ∃ w ∈ t.gapWaits, w.ring = s.partnerRing p.val k.val ∧ w.port = p.val ∧ w.partner = k.val ∧ w.loss = l)) ∧
    (∀ (p : PortIx) (l : Loss), (s.ring (s.rd Reg.RG_EVRING_RING)).loss = some l →
      ∃ t, exec (.gapIntervalLimit p 4) s = .next t ∧ t.now = max s.now (l.opened + 1600000) ∧
        (∃ l', (t.ring (s.rd Reg.RG_EVRING_RING)).loss = some l' ∧ l'.chars = 0 ∧ l'.others = 0 ∧ l'.opened = t.now ∧
          l'.first = l.last) ∧
        ((∃ r ∈ t.staging, r.ring = s.rd Reg.RG_EVRING_RING ∧ r.type = .gap ∧ r.slot = none) ∨
          ∃ w ∈ t.gapWaits, w.ring = s.rd Reg.RG_EVRING_RING ∧ w.loss = l)) ∧
    (s.gapPlaceTaken n.val = false → (∃ w ∈ s.gapWaits, w.ring = n.val) →
      ∃ t w, exec (.gapPlaceFree n) s = .next t ∧ w ∈ s.gapWaits ∧ w.ring = n.val ∧ t.gapWaits = s.gapWaits.erase w ∧
        ∃ r ∈ t.staging, r.ring = n.val ∧ r.type = .gap ∧ r.slot = none)

/-! ### Diptych and the Hinge (08_diptych.md) -/

/-- The Hinge (R238, R239, R253): every 1,600 DCLK a member sends its state and its C; a heartbeat received gives the peer's state
and the difference of the counts, and a peer that has left the pair since its last one takes this member along (log entry
38); none for HG_CFG_HBTO µs, in a retraining too, or a retraining of 3,200 DCLK, takes the Hinge down, and an
engaged pair is degraded; a lane that loses training starts a retraining, which HG_LINK counts; eight trained lanes are
the Hinge up. -/
def Obligations.HingeFollowsItsHeartbeats : Prop :=
  ∀ s : State,
    (s.hingeOn = true → s.hinge.up = true →
      (∃ t, exec .heartbeatSend s = .next t ∧ t.now = max s.now (s.hinge.lastSent + 1600) ∧
        t.hinge = { s.hinge with lastSent := t.now } ∧ t.regs = s.regs ∧
        t.out = s.out ++ [.hinge (.heartbeat s.hinge.state s.role t.c (s.on Reg.TB_STAT_EPOCH_VALID) s.anyEnabled
          (if s.chain.assigned then some s.chain.pos else none))]) ∧
      (∀ st role c epoch busy pos, ∃ t, exec (.heartbeatRecv st role c epoch busy pos) s = .next t ∧
        t.hinge.lastRecv = s.now ∧ t.hinge.peer = ⟨st, role, epoch, busy, pos, c - s.c⟩ ∧
        (st = .disengaged → s.hinge.peer.state ≠ .disengaged → s.hinge.peer.state ≠ .solo →
          s.hinge.state = .engaged ∨ s.hinge.state = .degraded ∨ s.hinge.state = .released → t.hinge.state = .disengaged) ∧
        (st ≠ .disengaged ∨ s.hinge.peer.state = .disengaged ∨ s.hinge.peer.state = .solo →
          t = { s with hinge := t.hinge } ∧ t.hinge.state = s.hinge.state)) ∧
      (∃ t, exec .hingeRetraining s = .next t ∧ t.hinge = { s.hinge with up := false, retrainAt := some s.now } ∧
        t.rd Reg.HG_LINK_RETRAIN = min (s.rd Reg.HG_LINK_RETRAIN + 1) (2 ^ Reg.HG_LINK_RETRAIN.width - 1))) ∧
    (s.hingeOn = true → s.hinge.up = true ∨ s.hinge.retrainAt.isSome = true →
      ∃ t, exec .heartbeatTimeout s = .next t ∧ t.now = max s.now (s.hinge.lastRecv + 1600 * s.rd Reg.HG_CFG_HBTO) ∧
        t.hinge.up = false ∧ t.on Reg.HG_STAT_EV_DOWN = true ∧ (s.hinge.state = .engaged → t.hinge.state = .degraded) ∧
        (s.hinge.state = .engaging → t.hinge.state = .disengaged)) ∧
    (∀ n, s.running = true → s.hinge.retrainAt = some n → ∃ t, exec .hingeRetrainTimeout s = .next t ∧
      t.now = max s.now (n + 3200) ∧ t.hinge.up = false ∧ t.hinge.retrainAt = none ∧
      (s.hinge.state = .engaged → t.hinge.state = .degraded)) ∧
    (s.hingeOn = true → s.hinge.up = false → ∃ t, exec .hingeUp s = .next t ∧ t.hinge.up = true ∧
      t.hinge.retrainAt = none ∧ t.rd Reg.HG_LINK_LANES = 0xFF)

/-- Engagement (R241, R251, R252, R257): HG_CTL_ENGAGE at a primary sends the image when every check passes, and with the
Hinge down fails with ENGFAIL 1; a disengaged shadow takes the image; the last acknowledgement makes both ENGAGED; 2 s in
ENGAGING give it up; a watchdog that expires releases a paired primary, and its drivers are off. -/
def Obligations.EngagementProceeds : Prop :=
  ∀ s : State,
    (s.takesWrite 0x181 (Reg.HG_CTL_ENGAGE.set 0 1) = true →
      (s.hinge.up = false → ∃ t, exec (.hgEngage (Reg.HG_CTL_ENGAGE.set 0 1)) s = .next t ∧
        t.rd Reg.HG_STAT_ENGFAIL = 1 ∧ t.hinge = s.hinge) ∧
      (s.hinge.up = true → s.hinge.peer.state = .disengaged → s.hinge.peer.role = .shadow → s.hinge.peer.epoch = true →
        s.hinge.peer.busy = false → s.hinge.peer.tofs = 0 → s.on Reg.TB_STAT_EPOCH_VALID = true →
        ∃ t i, exec (.hgEngage (Reg.HG_CTL_ENGAGE.set 0 1)) s = .next t ∧ t.hinge.state = .engaging ∧
          t.hinge.engagedAt = s.now ∧ t.out = s.out ++ [.hinge (.engage i)] ∧ i.rings = s.rings ∧
          i.ports = s.ports.map (fun x => (x.1, x.2.unpaired)) ∧ i.srcs = s.srcs ∧ i.tgts = s.tgts)) ∧
    (∀ i, s.hingeOn = true → s.hinge.up = true → s.isShadow = true → s.hinge.state = .disengaged →
      ∃ t, exec (.engageRequestRecv i) s = .next t ∧ t.hinge.state = .engaging ∧ t.hinge.engagedAt = s.now ∧
        t.tgts = i.tgts ∧ t.hinge.alImage = some i.almanac) ∧
    (s.running = true → s.hinge.state = .engaging →
      (∃ t, exec .engageComplete s = .next t ∧ t.hinge.state = .engaged ∧ t.rd Reg.HG_STAT_ENGFAIL = 0 ∧
        t.boot.digest.map (·.1) = some 3 ∧ t.now = s.now) ∧
      (∃ t, exec .engageTimeout s = .next t ∧ t.hinge.state = .disengaged ∧
        t.now = max s.now (s.hinge.engagedAt + 3200000000) ∧ (s.isShadow = false → t.rd Reg.HG_STAT_ENGFAIL = 5))) ∧
    (s.isPrimary = true → s.hinge.state.paired = true → ∃ t, exec .watchdogExpire s = .next t ∧
      t.hinge.state = .released ∧ t.hinge.claim = false ∧ t.regs = s.regs ∧
      (s.hinge.claim = true → ∀ q, (t.pin q).pad ≠ .drive) ∧ (∀ p, (t.port p).block = [] ∧ (t.port p).sent = [])) ∧
    (s.isPrimary = false ∨ s.hinge.state.paired = false → exec .watchdogExpire s = .next s)

/-- Mirrored writes (R249, R480): an engaged peer validates what it receives, for the instance that the addressed member's SEL
names, applies a write of mirrored words, counts it and acknowledges with OK, its own SEL words unchanged; or it
acknowledges the code of its refusal and declares the Hinge down. A primary whose own write waits takes the shadow's after
it. The addressed member applies its write at a matching acknowledgement and answers, and ends with E_MIRROR and the Hinge
down at one that differs. -/
def Obligations.MirroredWritesAreAcknowledged : Prop :=
  ∀ s : State, s.running = true →
    (∀ (addr : BitVec 12) (inst : Nat) (data : List Word), s.hinge.state = .engaged → s.hinge.up = true → s.hinge.mirror = none →
      ((∀ x ∈ writeWords addr.toNat data, mirroredWrite x.1 x.2 = true) →
        (s.forwardedSel addr.toNat inst).forwardedCode addr.toNat data = none →
        ∃ t l, exec (.mirrorWriteRecv addr inst data) s = .next t ∧ t.out = l ++ [.hinge (.mirrorAck Code.ok)] ∧
          (∀ x, isSel x = true → t.reg 0 x = s.reg 0 x) ∧ t.hinge.state = .engaged ∧
          t.rd Reg.HG_MIRSEQ = (s.rd Reg.HG_MIRSEQ + 1) % 2 ^ Reg.HG_MIRSEQ.width) ∧
      (∀ c, (s.forwardedSel addr.toNat inst).forwardedCode addr.toNat data = some c →
        ∃ t, exec (.mirrorWriteRecv addr inst data) s = .next t ∧ Out.hinge (.mirrorAck c) ∈ t.out ∧
          t.hinge.up = false ∧ t.hinge.state = .degraded)) ∧
    (∀ (addr : BitVec 12) (inst : Nat) (data : List Word) (m : MirrorWait), s.hinge.state = .engaged → s.hinge.up = true →
      s.isPrimary = true → s.hinge.mirror = some m → s.chain.mode ≠ .broadcast →
      exec (.mirrorWriteRecv addr inst data) s =
        .next { s with hinge := { s.hinge with mirrorLate := some { addr := addr, inst := inst, data := data, status := Code.ok } } }) ∧
    (∀ (m : MirrorWait) (d : Word) (u : State), s.hinge.mirror = some m → m.data = [d] → m.single = true →
      s.hinge.mirrorLate = none →
      u = (({ s with hinge := { s.hinge with mirror := none } } : State).applyWrite (writeWords m.addr.toNat [d]) []).countMirror →
      u.chain.assigned = true →
      ∃ t, exec (.mirrorAckRecv m.status) s = .next t ∧ t.answers Code.ok (u.afterWrite m.addr.toNat) ∧ u.sameButChain t) ∧
    (∀ (m : MirrorWait) (c : BitVec 4), s.hinge.mirror = some m → c ≠ m.status →
      ∃ t, exec (.mirrorAckRecv c) s = .next t ∧ t.answers Code.mirror 0 ∧ t.hinge.mirror = none ∧ t.hinge.up = false ∧
        (s.hinge.state = .engaged → t.hinge.state = .degraded))

/-- Decisions cross the Hinge (R242, R243, R245, R246, R266): the primary sends at most 16 entries as the stamps it gave them, with
the CRC-32C over what it decided. A shadow that follows rebuilds the entries from its own: with the same CRC it confirms them,
counts them in HG_AGREE and acknowledges; otherwise it counts in HG_DISAGREE, names the port, and asks for the transfer, whose
entries it takes in place of its own, and whose receive state ends it; blocks behind it wait. A record that it receives in full,
or by a mark, it holds and acknowledges; CAPTURE and ALMANAC records it asks for in full. The primary takes an acknowledgement
off what waits for it, sends a transfer or a record that is asked for, and counts a frame with a CRC error. The bytes under the
CRC, and what stands for the rows that the table does not have, are the model's (log entries 42 and 105). -/
def Obligations.DecisionsCrossTheHinge : Prop :=
  ∀ (s : State) (p : PortIx),
    (s.running = true → s.mirrors = true →
      (∀ first rest b, (s.port p.val).block = first :: rest → b = ((first :: rest).take 16).map (·.2) →
        ∃ t, exec (.decisionBlockClose p) s = .next t ∧ (t.port p.val).block = (s.port p.val).block.drop 16 ∧
          (t.port p.val).blockNo = (s.port p.val).blockNo + 1 ∧ (t.port p.val).sent = (s.port p.val).sent ++ [b] ∧
          t.now = (if 15 ≤ rest.length then s.now else max s.now (first.1 + 2048)) ∧
          t.out = s.out ++ [.hinge (.block p.val (b.map (·.stamps)) (blockCrc b))] ∧ t.regs = s.regs) ∧
      ((s.port p.val).block = [] → exec (.decisionBlockClose p) s = .next s)) ∧
    (s.follows = true → (s.port p.val).transfer = 0 → ∀ codes crc,
      (∀ u sh, s.rebuild p.val codes crc = some (u, sh) →
        ∃ t, exec (.decisionBlockRecv p codes crc) s = .next t ∧ t.out = u.out ++ [.hinge (.answer (.block p))] ∧
          t.rd Reg.HG_AGREE = (s.rd Reg.HG_AGREE + codes.length) % 2 ^ Reg.HG_AGREE.width ∧ t.ports = u.ports) ∧
      (s.rebuild p.val codes crc = none →
        ∃ t o, exec (.decisionBlockRecv p codes crc) s = .next t ∧ t.out = o ++ [.hinge (.answer (.request p))] ∧
          t.rd Reg.HG_DISAGREE = min (s.rd Reg.HG_DISAGREE + 1) (2 ^ Reg.HG_DISAGREE.width - 1) ∧
          t.on Reg.HG_DISLAST_V = true ∧ t.rd Reg.HG_DISLAST_PORT = p.val ∧ t.on Reg.HG_STAT_EV_DIS = true ∧
          (t.port p.val).transfer = codes.length) ∧
      (∀ e rest c, (s.port p.val).matched = [] → (s.port p.val).own = .entry e :: rest → codes = [c] →
        (s.rebuild p.val codes crc).isSome = decide (blockCrc [e.moved c] = crc))) ∧
    (s.follows = true → (s.port p.val).transfer ≠ 0 →
      (∀ codes crc, ∃ t, exec (.decisionBlockRecv p codes crc) s = .next t ∧
        t.port p.val = { s.port p.val with later := (s.port p.val).later ++ [(codes, crc)] } ∧ t.out = s.out) ∧
      (∀ e l, ∃ t, exec (.fullRecordRecv (.entries p (e :: l))) s = .next t ∧
        t.hinge.disStamp = e.stamps.headD s.hinge.disStamp) ∧
      (∀ y : Port, (s.port p.val).later = [] → ∃ t, exec (.fullRecordRecv (.port p y)) s = .next t ∧
        (t.port p.val).rx = y.rx ∧ (t.port p.val).trk = y.trk ∧ (t.port p.val).acq = y.acq ∧ (t.port p.val).set = y.set ∧
        (t.port p.val).transfer = 0 ∧ t.out = s.out ++ [.hinge (.answer (.block p))] ∧ t.regs = s.regs)) ∧
    (∀ r : Rec, s.follows = true → ∃ t o, exec (.fullRecordRecv (.record r)) s = .next t ∧
      (∃ x ∈ t.staging, x.same r = true ∧ x.body = r.body) ∧ t.out = o ++ [.hinge (.answer (.mark r.uid r.body.count))]) ∧
    (∀ (n : RingIx) (r : Rec), s.follows = true →
      (r.wantsFull = true → exec (.recordMarkRecv n r) s = .next { s with out := s.out ++ [.hinge (.answer (.record r.uid))] }) ∧
      (r.wantsFull = false → ∃ t o, exec (.recordMarkRecv n r) s = .next t ∧
        (∃ x ∈ t.staging, x.same { r with ring := n.val } = true ∧ x.body = r.body) ∧
        t.out = o ++ [.hinge (.answer (.mark r.uid r.body.count))])) ∧
    (s.running = true → s.mirrors = true →
      (∀ b l, (s.port p.val).sent = b :: l →
        (∃ t, exec (.blockAckRecv (.block p)) s = .next t ∧
          t.port p.val = { s.port p.val with blockAck := (s.port p.val).blockAck + 1, sent := l } ∧
          t.staging = s.staging ∧ t.regs = s.regs) ∧
        exec (.blockAckRecv (.request p)) s = .next { s with
          out := s.out ++ [.hinge (.full (.entries p b)), .hinge (.full (.port p (s.port p.val)))] }) ∧
      (∀ u k, ∃ t, exec (.blockAckRecv (.mark u k)) s = .next t ∧
        (∀ r ∈ t.staging, r.uid = u → r.body.count = k → r.marked = false) ∧
        t.staging.length = s.staging.length ∧ t.ports = s.ports ∧ t.regs = s.regs) ∧
      (∀ u r, s.staging.find? (fun r => r.uid == u) = some r →
        exec (.blockAckRecv (.record u)) s = .next { s with out := s.out ++ [.hinge (.full (.record r))] })) ∧
    (s.hingeOn = true → s.hinge.up = true → ∃ t, exec (.blockAckRecv .spoiled) s = .next t ∧
      t.rd Reg.HG_LINK_CRCERR = min (s.rd Reg.HG_LINK_CRCERR + 1) (2 ^ Reg.HG_LINK_CRCERR.width - 1) ∧ t = { s with regs := t.regs })

/-- The shadow follows its primary (R118, R125, R226, R242, R248, R374): it takes the primary's doorbells, descriptors, wins,
endings, palette boundaries, PROV records, commit points and arm states, and marks a coming takeover at a release notice;
the primary's Fresco values complete a snapshot that waits for them. A member that does not follow takes none of them. -/
def Obligations.TheShadowFollows : Prop :=
  ∀ s : State,
    (s.follows = true →
      (∀ (n : RingIx) v, ∃ t, exec (.hingeDoorbellRecv n v) s = .next t ∧ (t.ring n.val).host = v ∧
        (t.ring n.val).issued = (s.ring n.val).issued ∧ (∀ m, m ≠ n.val → t.ring m = s.ring m) ∧ t.regs = s.regs) ∧
      (∀ d : Desc, ∃ t, exec (.hingeDescriptorRecv d) s = .next t ∧
        (t.port d.port).queue = (s.port d.port).queue ++ [{ d with data := none }] ∧
        (t.ring d.ring).issued = d.num + 1 ∧ t.staging = s.staging) ∧
      (∀ (p : PortIx) lane stamp period base first agreed, (s.port p.val).rx ≠ .held →
        ∃ t, exec (.hingeEventRecv p (.win lane stamp period base first agreed)) s = .next t ∧ (t.port p.val).rx = .track ∧
          (t.port p.val).trk.period = period ∧ (t.port p.val).winner = lane ∧ (t.port p.val).acq = none) ∧
      (∀ (p : PortIx) base stamp, (s.port p.val).rx ≠ .held →
        ∃ t, exec (.hingeEventRecv p (.ended 3 base stamp)) s = .next t ∧ (t.port p.val).rx = .edgeOnly ∧
          (t.port p.val).acq = none) ∧
      (∀ (p : PortIx) stamp, ∃ t, exec (.hingeEventRecv p (.boundary false stamp)) s = .next t ∧
        (t.port p.val).set = s.portPalette p.val ∧ (t.port p.val).palWaits = false) ∧
      (∀ (p : PortIx) stamp, ∃ t, exec (.hingeEventRecv p (.boundary true stamp)) s = .next t ∧
        (t.port p.val).txSet = s.portPalette p.val ∧ (t.port p.val).txPalWaits = false ∧ t.regs = s.regs) ∧
      (∀ (p : PortIx) r serial shown, ∃ t, exec (.hingeProvRecv p r serial shown) s = .next t ∧
        (t.port p.val).serial = serial ∧ t.staging.length = s.staging.length + 1 ∧ t.regs = s.regs ∧
        (∀ a, (s.port p.val).acq = some a → ∃ a', (t.port p.val).acq = some a' ∧ a'.shown = shown)) ∧
      (∀ (n : RingIx) count, s.gated = [] → ∃ t, exec (.commitPointRecv n count) s = .next t ∧ t.reg n.val 0x509 = count ∧
        s.regsSameBut t [(n.val, 0x509), (n.val, Reg.RG_WRITTEN.word)] ∧ (∀ r ∈ t.staging, r ∈ s.staging)) ∧
      (∀ (q : PinIx) m, ∃ t, exec (.armStateRecv q m) s = .next t ∧ t.mon q.val = m ∧ t.regs = s.regs)) ∧
    (s.running = true → s.tb.frWaits = true → ∀ values, ∃ t, exec (.frescoValuesRecv values) s = .next t ∧
      t.on Reg.TB_STAT_FR_VALID = true ∧ t.tb.frWaits = false ∧ s.regsSameBut t [(0, 0x080)]) ∧
    (s.follows = true ∨ (s.running = true ∧ s.hinge.state = .degraded) →
      exec .releaseNoticeRecv s = .next { s with hinge := { s.hinge with noticeAt := some s.now } }) ∧
    (s.follows = false → ∀ (n : RingIx) (p : PortIx) (q : PinIx) v d e r serial shown m codes crc f,
      exec (.hingeDoorbellRecv n v) s = .next s ∧ exec (.hingeDescriptorRecv d) s = .next s ∧
      exec (.hingeEventRecv p e) s = .next s ∧ exec (.hingeProvRecv p r serial shown) s = .next s ∧
      exec (.commitPointRecv n v) s = .next s ∧ exec (.armStateRecv q m) s = .next s ∧
      exec (.decisionBlockRecv p codes crc) s = .next s ∧ exec (.fullRecordRecv f) s = .next s ∧
      exec (.recordMarkRecv n r) s = .next s)

/-- The claim (R254 to R257, R259): the first released sample of HG_RELI starts a seek; 64 DCLK of released qualify it and HG_RELO
holds; at 192 DCLK the claim is held, and at 192 + 64 o DCLK octant o drives, the last one of a takeover giving its time from
the first released sample in HG_TKINFO_LAT; a reading of hold while seeking blocks the
member, which seeks again after its back-off; 64 DCLK after the drivers turn off HG_RELO is released; VST_P falling stops
drivers and HG_RELO. A takeover (R258, R264): an engaged shadow, or one of a degraded or engaging pair that HG_CFG_TKDEG lets,
whose seek qualifies is TAKEN with the stamp of the first released sample; HG_TKINFO_CAUSE tells a release notice within 1,600
DCLK; but from ENGAGED its rings that are not OFF stand in FAULT and write nothing until they are enabled again, its transmitters
are empty, and HG_STAT_TKDEG shows it. -/
def Obligations.ClaimsAndTakeovers : Prop :=
  (∀ s : State, s.running = true →
      (s.hinge.claim = false → s.hinge.firstRel = none →
        exec .reliReleased s = .next { s with hinge := { s.hinge with reli := true, firstRel := some (s.now, s.stamp) } }) ∧
      (∀ n u, s.hinge.firstRel = some (n, u) →
        (s.pastV = true → s.hinge.reli = true → s.hinge.relo = false → s.hinge.claim = false → s.hinge.blocked = false →
          s.eligible = true → s.mayTake = false →
          ∃ t, exec .claimQualify s = .next t ∧ t.now = max s.now (n + 64) ∧ t.hinge = { s.hinge with relo := true } ∧
            t.regs = s.regs) ∧
        (s.hinge.reli = true → s.hinge.relo = true → s.hinge.claim = false → s.eligible = true → s.hinge.offAt = none →
          ∃ t, exec .claimHeld s = .next t ∧ t.now = max s.now (n + 192) ∧
            t.hinge = { s.hinge with claim := true, drivers := 0 } ∧ t.regs = s.regs) ∧
        (∀ o : Fin 8, s.hinge.claim = true → s.hinge.drivers = o.val →
          ∃ t, exec (.octantDriverEnable o) s = .next t ∧ t.now = max s.now (n + 192 + 64 * o.val) ∧
            t.hinge.drivers = o.val + 1 ∧
            (s.hinge.state ≠ .taken → t.hinge = { s.hinge with drivers := o.val + 1 } ∧ t.regs = s.regs) ∧
            (s.hinge.state = .taken → o.val = 7 → t.rd Reg.HG_TKINFO_LAT = min (t.now - s.hinge.tkFrom) 0x3FFF) ∧
            (∀ q, octOfPin q = o.val → (s.pin q).pad = .keep → (s.group (groupOfPin q)).frozen = false →
              (s.oct o.val).state = .run → (t.pin q).pad = (if (s.ownerLevel q).isSome then .drive else .off))) ∧
        (s.hinge.blocked = true → s.hinge.reli = true →
          ∃ t, exec .claimRetry s = .next t ∧ t.now = max s.now (n + 1600 + 128 * s.chain.pos.toNat) ∧
            t.hinge = { s.hinge with blocked := false, firstRel := some (t.now, t.stamp) } ∧ t.regs = s.regs) ∧
        (s.pastV = true → s.hinge.claim = false → s.eligible = true →
          ∃ t, exec .claimBlocked s = .next t ∧ t.hinge.reli = false ∧ t.hinge.relo = false ∧ t.hinge.blocked = true ∧
            t.hinge.firstRel = none ∧ t.on Reg.HG_STAT_EV_BLOCK = true ∧ t.now = s.now)) ∧
      (∀ n, s.hinge.offAt = some n → ∃ t, exec .reloRelease s = .next t ∧ t.now = max s.now (n + 64) ∧
        t.hinge = { s.hinge with relo := false, offAt := none } ∧ t.regs = s.regs) ∧
      (∃ t, exec .vstPFall s = .next t ∧ t.hinge.relo = false ∧ t.hinge.claim = false ∧ t.hinge.offAt = none ∧
        (∀ q, (t.pin q).pad ≠ .hold) ∧ (s.hinge.claim = true → ∀ q, (t.pin q).pad ≠ .drive) ∧ t.regs = s.regs)) ∧
  (∀ (s : State) (n : Nat) (u : Stamp), s.hinge.firstRel = some (n, u) → s.pastV = true → s.hinge.reli = true →
      s.hinge.relo = false → s.hinge.claim = false → s.hinge.blocked = false → s.mayTake = true →
      ∃ t, exec .claimQualify s = .next t ∧ t.hinge.state = .taken ∧ t.hinge.tkStamp = u ∧ t.hinge.tkFrom = n ∧
        t.hinge.relo = true ∧ t.now = max s.now (n + 64) ∧ t.on Reg.HG_STAT_EV_TK = true ∧
        t.rd Reg.HG_TKINFO_CAUSE = (if s.hinge.noticeAt.any (fun m => decide (m ≤ t.now ∧ t.now ≤ m + 1600)) then 2 else 1) ∧
        t.hinge.tkdeg = decide (s.hinge.state ≠ .engaged) ∧
        (s.hinge.state ≠ .engaged →
          (∀ m, ((s.ring m).state = .off → (t.ring m).state = .off) ∧
            ((s.ring m).state ≠ .off → (t.ring m).state = .fault ∧ (t.ring m).mute = true)) ∧
          (∀ p, (t.port p).queue = [] ∧ (t.port p).sending = none ∧ (t.port p).replies = [])))

/-! ### Carillon (09_carillon.md) -/

/-- Sources (R273 to R277, R288, R292): a held source becomes pending when its timer reaches CA_SCOAL_TIME; the input of a
station source whose pin has taken a full level takes it when the samples have stood for CA_SDEB times 64 DCLK (log entry
108), and an enabled idle source with level sense that is so asserted is pending; a software set of the host pends an idle source of its target with the mark, and one
that names no source of the target counts in BADW; each 1 of PRIV marks its private source; CLRPEND and a disabled EN
clear. -/
def Obligations.SourcesPendAndClear : Prop :=
  ∀ s : State,
    (∀ (n : SourceIx) k, s.running = true → (s.src n.val).state = .hold → (s.src n.val).timer = some k →
      ∃ t, exec (.coalesceRipe n) s = .next t ∧ t.src n.val = { s.src n.val with state := .pend, stamp := t.stamp } ∧
        t.now = max s.now (k + 160 * s.rd Reg.CA_SCOAL_TIME n.val) ∧ (∀ m, m ≠ n.val → t.src m = s.src m) ∧ t.regs = s.regs) ∧
    (∀ (st : Fin 1024) (level : Bool), s.running = true → (s.pin (4 * st.val + 3)).owner = .gpioIn →
      s.pinRuns (4 * st.val + 3) = true → (s.pin (4 * st.val + 3)).level = some level →
      (s.pin (4 * st.val + 3)).srcIn = !level →
      ∃ t, exec (.stationInputChange st level) s = .next t ∧ (t.pin (4 * st.val + 3)).srcIn = level ∧
        t.now = max s.now ((s.pin (4 * st.val + 3)).standsFrom level + 64 * s.rd Reg.CA_SDEB (1024 + st.val)) ∧
        (t.src (1024 + st.val)).input = (level != s.on Reg.CA_SCFG_INV (1024 + st.val)) ∧
        (s.sense (1024 + st.val) = 0 → (level != s.on Reg.CA_SCFG_INV (1024 + st.val)) = true →
          s.srcOn (1024 + st.val) = true → (s.src (1024 + st.val)).state = .idle →
          (t.src (1024 + st.val)).state = .pend) ∧ t.regs = s.regs) ∧
    (s.running = true → s.link.up = true → ∀ (t : Fin 16) (d : Word) (k : Nat),
      k = (if srcPrivate (d.toNat % 4096) then t.val * 4096 + d.toNat % 4096 else d.toNat % 4096) →
      (srcValid k = true → s.srcTarget k = t.val → (s.src k).state = .idle →
        ∃ u, exec (.caSetpend (some t) d) s = .next u ∧
          u.src k = { s.src k with state := .pend, mark := true, stamp := s.stamp } ∧ u.regs = s.regs) ∧
      (srcValid k = false ∨ s.srcTarget k ≠ t.val →
        ∃ u, exec (.caSetpend (some t) d) s = .next u ∧ u.srcs = s.srcs ∧
          u.rd Reg.CA_TSTAT_BADW t.val = min (s.rd Reg.CA_TSTAT_BADW t.val + 1) (2 ^ Reg.CA_TSTAT_BADW.width - 1)) ∧
      (∃ u, exec (.caPrivSet (some t) d) s = .next u ∧ u.regs = s.regs ∧
        ∀ b, b < 32 → (u.src (t.val * 4096 + 512 + b)).mark = (d.getLsbD b || (s.src (t.val * 4096 + 512 + b)).mark))) ∧
    (s.takesWrite 0x204 (Reg.CA_SCTL_SETPEND.set 0 1) = true → s.selAll 0x204 = false →
      ∃ u, exec (.caSetpend none (Reg.CA_SCTL_SETPEND.set 0 1)) s = .next u ∧ (u.src (s.selOf 0x204)).mark = true) ∧
    (s.takesWrite 0x204 (Reg.CA_SCTL_CLRPEND.set 0 1) = true → s.selAll 0x204 = false →
      (s.src (s.selOf 0x204)).input = false →
      ∃ u, exec (.caClrpend (Reg.CA_SCTL_CLRPEND.set 0 1)) s = .next u ∧ (u.src (s.selOf 0x204)).state = .idle ∧
        (u.src (s.selOf 0x204)).mark = false ∧ (u.src (s.selOf 0x204)).held = 0)

/-- Claims, decisions and ends of interrupt (R277 to R284): a read of CA_CLAIM, or the host's claim, returns the winner of a
pin-type target and makes it ACTIVE on top of the stack, 0 with nothing to claim; a message-type target whose message may
go makes its winner ACTIVE and forms one message; an EOI takes the source it names off the stack, one that names none
there counts in BADW. -/
def Obligations.ClaimsActivateTheWinner : Prop :=
  ∀ (s : State) (t : Fin 16),
    (∀ n, s.takesRead 0x228 = true → s.selOf 0x228 = t.val → s.on Reg.CA_TCFG_KIND t.val = false →
      s.winner t.val = some n →
      ∃ u, exec (.caClaimRead none) s = .next u ∧ u.answers Code.ok (BitVec.ofNat 32 (n % 4096)) ∧
        (u.src n).state = .active ∧
        (u.tgt t.val).stack = (s.tgt t.val).stack ++ [⟨n, s.rd Reg.CA_SCFG_PRIO n, none⟩]) ∧
    (s.running = true → s.link.up = true →
      (∀ n, s.on Reg.CA_TCFG_KIND t.val = false → s.winner t.val = some n →
        ∃ u, exec (.caClaimRead (some t)) s = .next u ∧ (u.src n).state = .active ∧ (u.src n).held = 0 ∧
          (u.tgt t.val).stack = (s.tgt t.val).stack ++ [⟨n, s.rd Reg.CA_SCFG_PRIO n, none⟩] ∧
          u.out = s.out ++ [.readData [BitVec.ofNat 32 (n % 4096)]] ∧
          u.rd Reg.CA_TCNT t.val = (s.rd Reg.CA_TCNT t.val + 1) % 2 ^ Reg.CA_TCNT.width) ∧
      (s.on Reg.CA_TCFG_KIND t.val = true ∨ s.winner t.val = none →
        exec (.caClaimRead (some t)) s = .next { s with out := s.out ++ [.readData [0]] }) ∧
      (∀ d e, (s.tgt t.val).stack.find? (fun e => e.source % 4096 == Reg.CA_EOI.get d) = some e →
        ∃ u, exec (.caEoi (some t) d) s = .next u ∧
          (u.tgt t.val).stack = (s.tgt t.val).stack.filter (fun y => y.source != e.source) ∧ u.regs = s.regs ∧
          ((s.src e.source).held = 0 → (s.src e.source).mark = false → (s.src e.source).input = false →
            (u.src e.source).state = .idle)) ∧
      (∀ d, (s.tgt t.val).stack.find? (fun e => e.source % 4096 == Reg.CA_EOI.get d) = none →
        ∃ u, exec (.caEoi (some t) d) s = .next u ∧ u = { s with regs := u.regs } ∧
          s.regsSameBut u [(t.val, Reg.CA_TSTAT_BADW.word)] ∧
          u.rd Reg.CA_TSTAT_BADW t.val = min (s.rd Reg.CA_TSTAT_BADW t.val + 1) (2 ^ Reg.CA_TSTAT_BADW.width - 1))) ∧
    (∀ d, s.takesWrite Reg.CA_EOI.word d = true → s.selAll Reg.CA_EOI.word = false → s.selOf Reg.CA_EOI.word = t.val →
      (∀ e, (s.tgt t.val).stack.find? (fun e => e.source % 4096 == Reg.CA_EOI.get d) = some e →
        ∃ u, exec (.caEoi none d) s = .next u ∧
          (u.tgt t.val).stack = (s.tgt t.val).stack.filter (fun y => y.source != e.source)) ∧
      ((s.tgt t.val).stack.find? (fun e => e.source % 4096 == Reg.CA_EOI.get d) = none →
        ∃ u, exec (.caEoi none d) s = .next u ∧ u.tgts = s.tgts ∧ u.srcs = s.srcs ∧
          u.rd Reg.CA_TSTAT_BADW t.val = min (s.rd Reg.CA_TSTAT_BADW t.val + 1) (2 ^ Reg.CA_TSTAT_BADW.width - 1))) ∧
    (∀ n, s.on Reg.CA_TCFG_KIND t.val = true → s.mayRequest = true → s.link.msix = true →
      s.on Reg.CA_MSIX_CTL_VMASK t.val = false → s.winner t.val = some n →
      ∃ u m, exec (.messageDecision t) s = .next u ∧ u.msgs = s.msgs ++ [m] ∧ m.target = t.val ∧ m.source = n ∧
        m.slot = (s.tgt t.val).freeSlot ∧ (u.src n).state = .active ∧
        (u.tgt t.val).stack = (s.tgt t.val).stack ++ [⟨n, s.rd Reg.CA_SCFG_PRIO n, some m.slot⟩])

/-! ### The chain (10_tureus_chain.md) -/

/-- Frames (R296 to R298, R300, R305, R308, R312, R318, R319, R322): an edge inside a frame shifts the stage by one bit; a frame
begins with the response in the stage when it is ready, else with the one before it and UNDERRUN, and not before CH_RSTN is high
again (log entry 109); it ends by counting and by executing its slot as the row of its opcode does, or by answering E_CRC to a
slot whose CRC fails and E_VALUE to one that is not well formed; one without edges returns an assigned device to Full
mode; a response is ready when its time has passed. -/
def Obligations.FramesCarrySlots : Prop :=
  ∀ s : State, s.clocked = true →
    (∀ b, s.chain.inFrame = true → ∃ t, exec (.chClkRisingEdge b) s = .next t ∧ t = { s with chain := t.chain } ∧
      t.chain.stage = s.chain.stage.tail ++ [b] ∧ t.chain.edges = s.chain.edges + 1 ∧
      t.chain.dout = (s.chain.stage.tail ++ [b]).headD false ∧ t.chain.resp = s.chain.resp) ∧
    (∀ b, s.chain.inFrame = false → exec (.chClkRisingEdge b) s = .next s) ∧
    (∀ n, s.chain.inFrame = false → s.chain.rstLow = some n →
      ∃ t, exec .frameBegin s = .next t ∧ t.chain.inFrame = true ∧ t.chain.rstLow = none ∧ t.now = max s.now (n + 1664)) ∧
    (s.chain.inFrame = false → s.chain.rstLow = none → s.chain.lenNext = none → s.chain.assigned = true → s.chain.mode = .full →
      (∀ r, s.respReady = some r → ∃ t, exec .frameBegin s = .next t ∧ t.chain.inFrame = true ∧ t.chain.edges = 0 ∧
        t.chain.stage = r.bits false s.chain.len ∧ t.chain.resp = none ∧ t.chain.prev = some r ∧ t.regs = s.regs) ∧
      (∀ r, s.respReady = none → s.chainPending = true → s.chain.prev = some r →
        ∃ t, exec .frameBegin s = .next t ∧ t.chain.inFrame = true ∧ t.chain.stage = r.bits true s.chain.len ∧
          t.chain.resp = s.chain.resp ∧ t.rd Reg.CH_ERR2_UNDER = min (s.rd Reg.CH_ERR2_UNDER + 1) 0xFFFF) ∧
      (∃ t, exec .emptyFrame s = .next t ∧ t.chain.mode = .full ∧ t.chain.target = 0xFF ∧ t.chain.inFrame = false)) ∧
    (∀ h ws, s.chain.inFrame = true → s.chain.edges ≠ 0 → s.chain.assigned = true → s.chain.mode = .full →
      s.boot.stage ≠ .gesso → s.chainPending = false → slotOf s.chain.slotBits = (h, ws) →
      (s.chain.lengthBad = false → slotCrcOk h ws = true → slotWellFormed h ws = true →
        (slotOp h = 0 ∨ slotOp h = 15 → ∃ t, exec .frameEnd s = .next t ∧ t.chain.inFrame = false ∧
          t.answers Code.ok t.chStat ∧ t.rd Reg.CH_CNT_FRAMES = (s.rd Reg.CH_CNT_FRAMES + 1) % 2 ^ 32 ∧
          s.regsSameBut t [(0, 0x044), (0, 0x047)]) ∧
        (∀ (a : BitVec 12) (d : Word) (u : State), s.chain.lenNext = none → s.hinge.state ≠ .engaged → ws.length = s.chain.len →
          u = ({ s with chain := { s.chain with inFrame := false, lenWait := s.chain.lenWait - 1 } } : State).incWrap
            Reg.CH_CNT_FRAMES →
          (h &&& 0xFFFFFFFFFFFFFF00#64 = slotHead 1 a 0 → exec .frameEnd s = exec (.chainRead a (ws.dropLast.length + 1)) u) ∧
          (h &&& 0xFFFFFFFFFFFFFF00#64 = slotHead 2 a d → exec .frameEnd s = exec (.chainWrite a (d :: ws.dropLast)) u) ∧
          (h &&& 0xFFFFFFFFFFFFFF00#64 = slotHead 3 0 d → exec .frameEnd s = exec (.chainSelect d) u) ∧
          (h &&& 0xFFFFFFFFFFFFFF00#64 = slotHead 4 0 d → exec .frameEnd s = exec (.chainAssign d) u) ∧
          (h &&& 0xFFFFFFFFFFFFFF00#64 = slotHead 5 0 0xC5 → exec .frameEnd s = exec .chainrst u))) ∧
      (s.chain.lengthBad = false → slotCrcOk h ws = true → slotWellFormed h ws = false →
        ∃ t, exec .frameEnd s = .next t ∧ t.chain.inFrame = false ∧ t.answers Code.value 0 ∧
          s.regsSameBut t [(0, 0x044), (0, 0x047)]) ∧
      (s.chain.lengthBad = true ∨ slotCrcOk h ws = false →
        ∃ t, exec .frameEnd s = .next t ∧ t.chain.inFrame = false ∧ t.answers Code.crc 0 ∧
          t.rd Reg.CH_ERR_CRC = min (s.rd Reg.CH_ERR_CRC + 1) 0xFFFF)) ∧
    (∀ r, s.chain.resp = some r → ∃ t, exec .responseReady s = .next t ∧ t.now = max s.now r.readyAt ∧
      t.chain.resp = some { r with ready := true } ∧ t.regs = s.regs)

/-- Slots (R308, R309, R313 to R321): a NOP answers CH_STAT; a single READ that nothing refuses answers the word; a WRITE of the
words that CH_LEN_K gives, one or K, answers the code of the first check it fails and applies nothing, else it is applied and
answered OK; a READ or WRITE of another length displaces its frame and answers E_CRC; a SELECT in
Full mode changes the mode and answers CH_STAT; an ASSIGN gives an unassigned device its position and answers GL_ID. The
order of a SELECT's checks is log entry 49's. A chain reset (R326), by a CHAINRST that is executed or by CH_RSTN: the CH_
registers and the position return to their reset values, a response and a slot that wait are dropped, GL_ERRLOG stays, and
PW_RSTSTAT_LAST names it; after CHAINRST the reset response stands in the stage, and CH_RSTN stays low as log entry 109 says. -/
def Obligations.SlotsAndChainResets : Prop :=
  (∀ s : State,
      (s.chainOn = true → s.hinge.mirror = none → s.chain.lenNext = none →
        (∃ t, exec .chainNop s = .next t ∧ t.answers Code.ok s.chStat ∧ s.sameButChain t) ∧
        (∀ addr : BitVec 12, s.takesRead addr.toNat = true → ∃ t, exec (.chainRead addr 1) s = .next t ∧
          t.answers Code.ok (s.readValue false (s.selOf addr.toNat) addr.toNat)) ∧
        (∀ addr data c k, data.length = max 1 s.chain.len →
          s.checkWrite addr.toNat data (s.chain.len == 0 && data.length == 1) = some (c, k) →
          ∃ t, exec (.chainWrite addr data) s = .next t ∧ s.sameButChain t ∧
            t.answers c (if s.chain.len == 0 && data.length == 1 then 0 else BitVec.ofNat 32 k)) ∧
        (∀ addr data n, data.length ≠ max 1 s.chain.len → n ≠ max 1 s.chain.len →
          (∃ t, exec (.chainWrite addr data) s = .next t ∧ t.answers Code.crc 0 ∧
            t.rd Reg.CH_ERR_CRC = min (s.rd Reg.CH_ERR_CRC + 1) 0xFFFF) ∧
          (∃ t, exec (.chainRead addr n) s = .next t ∧ t.answers Code.crc 0 ∧
            t.rd Reg.CH_ERR_CRC = min (s.rd Reg.CH_ERR_CRC + 1) 0xFFFF)) ∧
        (∀ (addr : BitVec 12) (data : List Word) (u : State), data.length = max 1 s.chain.len →
          s.checkWrite addr.toNat data (s.chain.len == 0 && data.length == 1) = none →
          (∀ x ∈ writeWords addr.toNat data, mirroredWrite x.1 x.2 = false) →
          u = s.applyWrite (writeWords addr.toNat data) [] → u.chain.assigned = true →
          ∃ t, exec (.chainWrite addr data) s = .next t ∧ u.sameButChain t ∧
            t.answers Code.ok (if s.chain.len == 0 && data.length == 1 then u.afterWrite addr.toNat else 0)) ∧
        (∀ d : Word, d.toNat < 256 → s.chain.mode = .full →
          (d.toNat = 254 ∨ d.toNat = 255 ∨ (d.toNat < 64 ∧ (s.chain.ndev = 0 ∨ d.toNat < s.chain.ndev)) →
            ∃ t, exec (.chainSelect d) s = .next t ∧ t.answers Code.ok t.chStat ∧ s.sameButChain t ∧
              t.chain.target = d.truncate 8 ∧
              t.chain.mode = (if d.toNat = 254 then .broadcast else if d.toNat = 255 then .full
                else if d.toNat = s.chain.pos.toNat then .selected else .bypassed)) ∧
          (64 ≤ d.toNat → d.toNat < 254 → ∃ t, exec (.chainSelect d) s = .next t ∧ t.answers Code.position 0 ∧
            t.chain.mode = .full ∧ s.sameButChain t))) ∧
      (∀ d : Word, s.clocked = true → s.boot.stage ≠ .gesso → s.chain.assigned = false → s.chain.lenNext = none →
        s.chain.rstLow = none →
        (d.toNat < 64 → ∃ t, exec (.chainAssign d) s = .next t ∧ t.chain.assigned = true ∧ t.chain.pos.toNat = d.toNat ∧
          t.chain.mode = .full ∧ t.answers Code.ok (s.reg 0 0x000) ∧ s.sameButChain t) ∧
        (64 ≤ d.toNat → ∃ t, exec (.chainAssign d) s = .next t ∧ t.chain.assigned = false ∧
          t.answers (if 256 ≤ d.toNat then Code.value else Code.position) 0 ∧ s.sameButChain t))) ∧
  (∀ s : State, s.clocked = true →
      ∃ t, exec .chRstnAssert s = .next t ∧
        t.chain = { errlog := s.chain.errlog, errHold := s.chain.errHold, rstLow := some s.now } ∧
        t.hinge.mirror = none ∧ t.rd Reg.PW_RSTSTAT_LAST = 10 ∧ (∀ w, 0x040 ≤ w → w ≤ 0x047 → t.reg 0 w = resetWord w) ∧
        (∀ i w, w < 4096 → (i, w) ∉ [(0, 0x040), (0, 0x041), (0, 0x042), (0, 0x043), (0, 0x044), (0, 0x045), (0, 0x046),
          (0, 0x047), (0, Reg.PW_RSTSTAT_LAST.word)] → t.reg i w = s.reg i w) ∧
        (s.chainOn = true → s.hinge.mirror = none → ∃ u, exec .chainrst s = .next u ∧ u = { t with chain := u.chain } ∧
          u.chain = { t.chain with rstLow := s.chain.rstLow, stage := u.chain.stage, dout := u.chain.stage.headD false } ∧
          u.chain.stage.length = 64) ∧
        (s.chainOn = false → exec .chainrst s = .next s))

/-! ### Stations, pins and levels (11_stations_levels.md) -/

/-- Pins (R340, R344, R346): 4 DCLK after W a switched pin commits its owner's first level, with the driver on under a claim
and the keeper otherwise, and a pin whose owner drives nothing is OFF; the mismatch of a driven level and the opposite
sampled one sets MISM 64 DCLK later; ST_GPIN follows a level that stood for ST_GPDEB times 64 DCLK. -/
def Obligations.PinsSwitchAndSample : Prop :=
  ∀ (s : State) (q : PinIx), s.running = true →
    (∀ w, (s.pin q.val).switchAt = some w → s.pinRuns q.val = true →
      (∀ b, (s.advance (w + 4)).ownerLevel q.val = some b → ∃ t, exec (.pinSwitch q) s = .next t ∧ t.now = max s.now (w + 4) ∧
        t.pin q.val = { s.pin q.val with
          switchAt := none, pad := if s.driverOn q.val && !s.engagedShadow then .drive else .keep,
          driven := some b, drivenAt := t.now } ∧
        (s.driverOn q.val = true → s.engagedShadow = false →
          ∃ u, t.out = s.out ++ [.pinLevel q.val ((s.pin q.val).outLevel b) u]) ∧
        (∀ r, r ≠ q.val → t.pin r = s.pin r) ∧ t.regs = s.regs) ∧
      ((s.advance (w + 4)).ownerLevel q.val = none → ∃ t, exec (.pinSwitch q) s = .next t ∧ t.now = max s.now (w + 4) ∧
        t.pin q.val = { s.pin q.val with switchAt := none, pad := .off, driven := none } ∧ t.out = s.out ∧
        (∀ r, r ≠ q.val → t.pin r = s.pin r) ∧ t.regs = s.regs)) ∧
    ((s.pin q.val).pad = .drive →
      ((s.drivenNow q.val).1 = some true ∧ (s.pin q.val).sample = .low ∧ (s.pin q.val).openDrain = false) ∨
        ((s.drivenNow q.val).1 = some false ∧ (s.pin q.val).sample = .high) →
      ∃ t, exec (.mismatchDetect q) s = .next t ∧ t.on (Reg.ST_PINSTAT_MISM.at (pinOf q.val)) (q.val / 4) = true ∧
        t.now = max s.now (max ((s.drivenNow q.val).2 + 64) ((((s.pin q.val).history.getLast?.map (·.1)).getD 0)) + 64) ∧
        t.pins = s.pins) ∧
    (∀ level n v, s.pinRuns q.val = true → (s.group (groupOfPin q.val)).frozen = false →
      (s.pin q.val).sample = (if level then .high else .low) → (s.pin q.val).gpin = !level →
      (s.pin q.val).history.getLast? = some (n, v) →
      ∃ t, exec (.gpinChange q level) s = .next t ∧ t.pin q.val = { s.pin q.val with gpin := level } ∧
        t.now = max s.now (n + 64 * s.rd Reg.ST_GPDEB (q.val / 4)) ∧ t.regs = s.regs ∧
        (∀ r, r ≠ q.val → t.pin r = s.pin r))

/-- A span change of a level group runs from its acceptance edge A (R352, R353): at 1,600 DCLK the DACs stand at the zero code
of the old span, at 4,800 at that of the new one, which is in force, at 6,400 at the new codes; at 14,400 the samplers run
again; at 16,000 the change is over. Each step follows the one before it. -/
def Obligations.SpanChangesRunInSteps : Prop :=
  ∀ (s : State) (g : Fin 64) (a : Nat), s.running = true → (s.group g.val).busyAt = some a →
    ((s.group g.val).step = 0 → ∃ t, exec (.spanOldZero g) s = .next t ∧ t.now = max s.now (a + 1600) ∧ t.regs = s.regs ∧
      t.pins = s.pins ∧ t.group g.val = { s.group g.val with
        step := 1, voh := zeroCode (s.group g.val).span, vol := zeroCode (s.group g.val).span,
        vthh := zeroCode (s.group g.val).span, vthl := zeroCode (s.group g.val).span }) ∧
    ((s.group g.val).step = 1 → ∃ t n, exec (.spanApply g) s = .next t ∧ t.now = max s.now (a + 4800) ∧ t.regs = s.regs ∧
      t.pins = s.pins ∧ n = BitVec.ofNat 2 (s.rd Reg.ST_LGCFG_SPAN g.val) ∧
      t.group g.val = { s.group g.val with
        step := 2, span := n, voh := zeroCode n, vol := zeroCode n, vthh := zeroCode n, vthl := zeroCode n }) ∧
    ((s.group g.val).step = 2 → ∃ t, exec (.spanCodesLoad g) s = .next t ∧ t.now = max s.now (a + 6400) ∧ t.regs = s.regs ∧
      t.pins = s.pins ∧ t.group g.val = { s.group g.val with
        step := 3, voh := BitVec.ofNat 14 (s.rd Reg.ST_LGVOH g.val), vol := BitVec.ofNat 14 (s.rd Reg.ST_LGVOL g.val),
        vthh := BitVec.ofNat 14 (s.rd Reg.ST_LGVTHH g.val), vthl := BitVec.ofNat 14 (s.rd Reg.ST_LGVTHL g.val) }) ∧
    ((s.group g.val).step = 3 → ∀ levels, ∃ t, exec (.samplerResume g levels) s = .next t ∧
      t.now = max s.now (a + 14400) ∧ t.group g.val = { s.group g.val with step := 4, frozen := false }) ∧
    ((s.group g.val).step = 4 → ∃ t, exec (.spanChangeEnd g) s = .next t ∧ t.now = max s.now (a + 16000) ∧
      t.group g.val = { s.group g.val with step := 5, busyAt := none } ∧ t.regs = s.regs ∧
      (∀ q, groupOfPin q = g.val → s.driverOn q = true → s.engagedShadow = false → (t.pin q).pad ≠ .keep))

/-! ### Line monitors and capture (12_line_monitor.md) -/

/-- Line monitors (R359, R362, R365): an arming monitor is ARMED once its octant and its stack run, and its grid starts there;
no crossing for LM_TOUT times 64 DCLK is a trigger of cause 1; 320 DCLK after REARM it is ARMED again. -/
def Obligations.MonitorsArmAndTrigger : Prop :=
  ∀ (s : State) (q : PinIx), s.running = true →
    ((s.mon q.val).state = .arming → s.pinRuns q.val = true → s.power.mem1 = .run →
      ∃ t, exec (.monitorArmed q) s = .next t ∧ t.now = s.now ∧ t.regs = s.regs ∧ t.mon q.val = { s.mon q.val with
        state := .armed, gridAt := s.now, toFrom := s.now, armedStamp := s.toPin q.val s.c }) ∧
    ((s.mon q.val).state = .armed → s.on Reg.LM_COND_TO q.val = true → (s.mon q.val).trig = none →
      s.engagedShadow = false → s.pinRuns q.val = true →
      ∃ t x, exec (.monitorTimeout q) s = .next t ∧
        t.now = max s.now ((s.mon q.val).toFrom + 64 * s.rd Reg.LM_TOUT q.val) ∧ t.regs = s.regs ∧
        x.pin = q.val ∧ x.edge = t.now ∧ x.cause = 1 ∧ x.mask = 1 ∧ x.stamp = t.samplerStamp q.val ∧
        t.mon q.val = { s.mon q.val with trig := some x, toFrom := t.now, lastCause := 1, lastStamp := x.stamp }) ∧
    ((s.mon q.val).state = .rearm →
      ∃ t, exec (.rearmEnd q) s = .next t ∧ t.now = max s.now ((s.mon q.val).rearmAt + 320) ∧ t.regs = s.regs ∧
        (t.mon q.val).state = .armed ∧ (t.mon q.val).toFrom = t.now ∧ (t.mon q.val).gridAt = (s.mon q.val).gridAt ∧
        (∀ r, r ≠ q.val → t.mon r = s.mon r))

/-- Captures (R362, R365, R368, R369): a trigger reaches admission 16 DCLK after its edge; with stack 1, budget and a free
segment it occupies the segment and the monitor captures; without budget, or without a segment, it is declined with its
cause and the monitor rearms. A captured segment has its samples 64 DCLK after the last one, and the monitor leaves
CAPTURE; the oldest complete segment with an extent is written to the upload area, in the turn of an ACTIVE capture ring. The
segment's edge is the latest that R365 allows (log entry 15). -/
def Obligations.CapturesAreAdmittedAndUploaded : Prop :=
  ∀ (s : State) (q : PinIx), s.running = true →
    (∀ x, (s.mon q.val).trig = some x → s.admissionBlocked x = false →
      (((s.rd Reg.GL_DIESTAT_HBM_OK).testBit 1 = true → s.unitsUsed + unitsOf (s.rd Reg.LM_CAP_RATE q.val) ≤ 64000 →
          (∀ g ∈ s.segments, g.trig.pin ≠ q.val ∨ g.index ≠ (s.mon q.val).next) →
        ∃ t, exec (.triggerAdmission q) s = .next t ∧ t.now = max s.now (x.edge + 16) ∧ (t.mon q.val).state = .capture ∧
          (t.mon q.val).trig = none ∧ (t.mon q.val).taken = (s.mon q.val).taken + 1 ∧
          (t.mon q.val).pseq = (s.mon q.val).pseq + 1 ∧ t.segments.length = s.segments.length + 1 ∧
          (∃ g ∈ t.segments, g.trig = x ∧ g.index = (s.mon q.val).next ∧ g.pseq = (s.mon q.val).pseq + 1) ∧ t.regs = s.regs)) ∧
      ((s.rd Reg.GL_DIESTAT_HBM_OK).testBit 1 = false ∨ 64000 < s.unitsUsed + unitsOf (s.rd Reg.LM_CAP_RATE q.val) →
        ∃ t, exec (.triggerAdmission q) s = .next t ∧ t.now = max s.now (x.edge + 16) ∧ (t.mon q.val).state = .rearm ∧
          (t.mon q.val).trig = none ∧ (t.mon q.val).rearmAt = t.now ∧ t.segments = s.segments ∧
          ∃ r ∈ t.staging, r.type = .capture ∧ r.ring = s.rd Reg.LM_UPCFG_RING ∧ r.base = x.stamp) ∧
      ((s.rd Reg.GL_DIESTAT_HBM_OK).testBit 1 = true → s.unitsUsed + unitsOf (s.rd Reg.LM_CAP_RATE q.val) ≤ 64000 →
          (∃ g ∈ s.segments, g.trig.pin = q.val ∧ g.index = (s.mon q.val).next) →
        ∃ t, exec (.triggerAdmission q) s = .next t ∧ (t.mon q.val).state = .rearm ∧ t.on Reg.LM_STAT_EV_NOSEG q.val = true ∧
          t.segments = s.segments)) ∧
    (∀ g, s.segments.find? (fun g => g.trig.pin == q.val && g.samples.isNone) = some g → (s.mon q.val).state = .capture →
      s.power.mem1 = .run →
      ∃ t, exec (.segmentComplete q) s = .next t ∧ t.now = max s.now (g.grid + (g.preA + g.post) * gridOf g.rate + 64) ∧
        t.segments.length = s.segments.length ∧ (∃ x ∈ t.segments, x.key = g.key ∧ x.samples.isSome = true) ∧
        (t.mon q.val).state ≠ .capture ∧ t.regs = s.regs) ∧
    (∀ g, s.nextUpload = some g → g.trig.pin = q.val → s.mayRequest = true → s.engagedShadow = false →
      (s.ring (s.rd Reg.LM_UPCFG_RING)).state = .active → (s.ring (s.rd Reg.LM_UPCFG_RING)).mute = false →
      ∃ t, exec (.uploadStart q) s = .next t ∧ t.flushDue = true ∧ t.now = s.now ∧ t.regs = s.regs ∧
        t.out = s.out ++ writesOf s.link.mps g.bytes.length
          (s.upBase + BitVec.ofNat 64 ((g.extent.map (·.1)).getD 0)) g.bytes ∧
        (∀ x ∈ t.segments, x.key = g.key → x.upload.isSome = true))

/-! ### Contact units (13_contact_units.md) -/

/-- Contact units (R381 to R386): a closing switch is CLOSED 160 DCLK after W; an opened one ends its claim after 160 DCLK; a
range change puts the output at 0 at 160 DCLK, in its new range at 8,000, at its source at 16,000, and closes at 32,000
under the claim; a limit that acts for CU_CLAMP_TIME, or a temperature above 125, is a FAULT with its flag, the switch
open, the unit detached, and source 280 asserted. -/
def Obligations.ContactUnitsSwitchAndFault : Prop :=
  ∀ (s : State) (i : Fin 16), s.running = true →
    ((s.cu i.val).state = .closing → ∃ t, exec (.cuSwitchClosed i) s = .next t ∧
      t.now = max s.now ((s.cu i.val).swAt + 160) ∧ t.cu i.val = { s.cu i.val with state := .closed, closed := true } ∧
      (∀ j, j ≠ i.val → t.cu j = s.cu j) ∧ t.regs = s.regs) ∧
    ((s.cu i.val).opening = true → ∃ t, exec (.cuSwitchOpen i) s = .next t ∧
      t.now = max s.now ((s.cu i.val).swAt + 160) ∧ (t.cu i.val).opening = false ∧ (t.cu i.val).closed = false) ∧
    (∀ a, (s.cu i.val).rangeAt = some a →
      ((s.cu i.val).rangeStep = 0 → ∃ t, exec (.cuRangeOutputZero i) s = .next t ∧ t.now = max s.now (a + 160) ∧
        t.cu i.val = { s.cu i.val with closed := false, out := 0x20000, rangeStep := 1 } ∧ t.regs = s.regs) ∧
      ((s.cu i.val).rangeStep = 1 → ∃ t, exec (.cuRangeApply i) s = .next t ∧ t.now = max s.now (a + 8000) ∧
        t.cu i.val = { s.cu i.val with
          kind := s.on Reg.CU_CFG_KIND i.val, range := BitVec.ofNat 3 (s.rd Reg.CU_CFG_RANGE i.val), rangeStep := 2 } ∧
        t.regs = s.regs) ∧
      ((s.cu i.val).rangeStep = 2 → ∃ t, exec (.cuRangeLevelApply i) s = .next t ∧ t.now = max s.now (a + 16000) ∧
        (t.cu i.val).src = BitVec.ofNat 2 (s.rd Reg.CU_CFG_SRC i.val) ∧ (t.cu i.val).theta = 0 ∧ (t.cu i.val).wave = 0 ∧
        (t.cu i.val).srcAt = t.now ∧ (t.cu i.val).rangeStep = 3 ∧
        (s.rd Reg.CU_CFG_SRC i.val = 0 → (t.cu i.val).out = BitVec.ofNat 18 (s.rd Reg.CU_LEVEL i.val)) ∧ t.regs = s.regs) ∧
      ((s.cu i.val).rangeStep = 3 → (s.cu i.val).state ≠ .fault → ∃ t, exec (.cuRangeClose i) s = .next t ∧
        t.now = max s.now (a + 32000) ∧ (t.cu i.val).rangeAt = none ∧ t.regs = s.regs ∧
        (s.on Reg.CU_ATTACH_EN i.val = true → s.cuClaimHeld i.val = true →
          (t.cu i.val).state = .closed ∧ (t.cu i.val).closed = true) ∧
        (s.on Reg.CU_ATTACH_EN i.val = true → s.cuClaimHeld i.val = false →
          (t.cu i.val).state = .heldoff ∧ (t.cu i.val).closed = false) ∧
        (s.on Reg.CU_ATTACH_EN i.val = false → (t.cu i.val).state = s.cuRest i.val ∧ (t.cu i.val).closed = false))) ∧
    ((s.cu i.val).closed = true → s.rd Reg.CU_CLAMP_TIME i.val ≠ 0 → ∃ t, exec (.cuComplianceFault i) s = .next t ∧
      (t.cu i.val).state = .fault ∧ (t.cu i.val).closed = false ∧ (t.cu i.val).mrun = false ∧
      t.on Reg.CU_STAT_EV_COMPL i.val = true ∧ t.on Reg.CU_ATTACH_EN i.val = false ∧ (t.src 280).input = true ∧ t.now = s.now) ∧
    (∀ temp : BitVec 8,
      (125 < temp.toNat → ∃ t, exec (.cuThermalFault i temp) s = .next t ∧ (t.cu i.val).state = .fault ∧
        (t.cu i.val).closed = false ∧ t.on Reg.CU_STAT_EV_THERM i.val = true ∧ t.on Reg.CU_ATTACH_EN i.val = false ∧
        (t.src 280).input = true ∧ t.rd Reg.CU_TEMP i.val = temp.toNat) ∧
      (temp.toNat ≤ 125 → ∃ t, exec (.cuThermalFault i temp) s = .next t ∧ t = { s with regs := t.regs } ∧
        t.rd Reg.CU_TEMP i.val = temp.toNat))

/-- Stimulus and measurement (R388, R390 to R392): a running sine advances its phase by CU_FREQ every 16 DCLK, a waveform
shows its next sample every CU_WCFG_DIV times 16; a measurement of N converter codes leaves their mean in CU_MRES and
MDONE, and goes on where CONT is 1. The first sample's place is the model's choice (log entry 17). -/
def Obligations.ContactUnitsForceAndMeasure : Prop :=
  ∀ (s : State) (i : Fin 16), s.running = true →
    (s.cuRuns i.val = true → (s.cu i.val).src = 1 → ∃ t, exec (.sineUpdate i) s = .next t ∧
      t.now = max s.now ((s.cu i.val).srcAt + 16) ∧ t.regs = s.regs ∧
      (t.cu i.val).theta = (s.cu i.val).theta + BitVec.ofNat 32 (s.rd Reg.CU_FREQ i.val) ∧
      (t.cu i.val).srcAt = (s.cu i.val).srcAt + 16 ∧ (t.cu i.val).out = s.sineCode i.val (t.cu i.val).theta ∧
      (∀ j, j ≠ i.val → t.cu j = s.cu j)) ∧
    (s.cuRuns i.val = true → (s.cu i.val).src = 2 → ∃ t, exec (.waveSample i) s = .next t ∧
      t.now = max s.now ((s.cu i.val).srcAt + 16 * s.rd Reg.CU_WCFG_DIV i.val) ∧ t.regs = s.regs ∧
      (t.cu i.val).wave = ((s.cu i.val).wave + 1) % max 1 (s.rd Reg.CU_WCFG_LEN i.val) ∧
      (t.cu i.val).out = (s.cu i.val).sample (t.cu i.val).wave ∧ (∀ j, j ≠ i.val → t.cu j = s.cu j)) ∧
    (∀ codes : List (BitVec 18), (s.cu i.val).mrun = true → codes.length = 2 ^ s.rd Reg.CU_MCFG_LOG2N i.val →
      ∃ t, exec (.cuMeasDone i codes) s = .next t ∧ t.now = max s.now ((s.cu i.val).mAt + codes.length * 800) ∧
        t.rd Reg.CU_MRES i.val = roundDiv ((codes.map (·.toNat)).sum) codes.length % 2 ^ Reg.CU_MRES.width ∧
        t.on Reg.CU_STAT_MDONE i.val = true ∧ (t.cu i.val).mstamp = t.stamp ∧ (t.cu i.val).mAt = t.now ∧
        (t.cu i.val).mrun = s.on Reg.CU_MCFG_CONT i.val ∧ (t.cu i.val).out = (s.cu i.val).out ∧
        ((s.cu i.val).src = 0 → t.rd Reg.CU_ACRES_I i.val = 0 ∧ t.rd Reg.CU_ACRES_Q i.val = 0))

/-! ### Auxiliary masters and the flash (14_aux_masters.md) -/

/-- Transfers (R399 to R401): the last bit comes L + 2 H n DCLK after the start; the transfer is DONE and counted with its
bits, and its select is held where KEEP is 1, else released T later; AX_TOUT in HELD without a START releases it with its
error; an ABORT of a running transfer releases it with its error. That the master is BUSY until the release is log entry
28's reading. -/
def Obligations.AuxiliaryTransfersEnd : Prop :=
  ∀ (s : State) (m : Fin 8), s.running = true →
    (∀ bits : List Bool, (s.aux m.val).state = .busy → (s.aux m.val).startWaits = false → (s.aux m.val).releaseAt = none →
      ∃ t, exec (.axTransferDone m bits) s = .next t ∧
        t.now = max s.now ((s.aux m.val).startAt + (s.aux m.val).lead +
          2 * s.rd Reg.AX_CFG_HALF m.val * s.rd Reg.AX_XFER_LEN m.val) ∧
        t.on Reg.AX_STAT_DONE m.val = true ∧
        t.rd Reg.AX_CNT_CNT m.val = (s.rd Reg.AX_CNT_CNT m.val + 1) % 2 ^ Reg.AX_CNT_CNT.width ∧
        t.rd Reg.AX_CNT_BITS m.val = s.rd Reg.AX_XFER_LEN m.val % 2 ^ Reg.AX_CNT_BITS.width ∧
        (s.on Reg.AX_XFER_KEEP m.val = true → (t.aux m.val).state = .held ∧ (t.aux m.val).heldAt = t.now) ∧
        (s.on Reg.AX_XFER_KEEP m.val = false → (t.aux m.val).releaseAt = some (t.now + s.rd Reg.AX_DLY_TRAIL m.val)) ∧
        (∀ k, k ≠ m.val → t.aux k = s.aux k)) ∧
    (∀ n, (s.aux m.val).releaseAt = some n → m.val ≠ 0 → ∃ t, exec (.axSelectRelease m) s = .next t ∧ t.now = max s.now n ∧
      t.aux m.val = { s.aux m.val with state := .idle, csOn := false, releaseAt := none } ∧
      t.out = s.out ++ [.auxSelect m.val (s.aux m.val).cs false] ∧ t.regs = s.regs) ∧
    (∀ n, (s.aux m.val).releaseAt = some n → ∃ t, exec (.axSelectRelease m) s = .next t ∧ t.now = max s.now n ∧
      (t.aux m.val).state = .idle ∧ (t.aux m.val).csOn = false ∧ t.regs = s.regs) ∧
    ((s.aux m.val).state = .held → ∃ t, exec (.axHeldTimeout m) s = .next t ∧
      t.now = max s.now ((s.aux m.val).heldAt + 64 * s.rd Reg.AX_TOUT m.val) ∧ (t.aux m.val).state = .busy ∧
      (t.aux m.val).releaseAt = some (t.now + s.rd Reg.AX_DLY_TRAIL m.val) ∧ t.on Reg.AX_STAT_EV_TOUT m.val = true) ∧
    (∀ (d : Word) (bits : List Bool), Reg.AX_CTL_ABORT.get d = 1 → Reg.AX_CTL_START.get d = 0 → s.takesWrite 0x884 d = true →
      s.selAll 0x884 = false → s.selOf 0x884 = m.val → (s.aux m.val).state = .busy → (s.aux m.val).releaseAt = none →
      (s.aux m.val).startWaits = false →
      ∃ t, exec (.axAbort d bits) s = .next t ∧ (t.aux m.val).state = .busy ∧
        (t.aux m.val).releaseAt = some (s.now + s.rd Reg.AX_DLY_TRAIL m.val) ∧ t.on Reg.AX_STAT_EV_ABORT m.val = true)

/-- The flash (R405, R406, R408): a discovery whose reads succeed with major revision 1 shows the density and the revision, any
other shows none and sets EV_DISC unless it is the boot's; a block that has arrived is held as 64 words and counted, and CS0
stays asserted in continuous read, which ends after AX_FLCFG_CTOUT times 64 DCLK. -/
def Obligations.TheFlashReaderLoadsBlocks : Prop :=
  ∀ s : State, s.running = true →
    (∀ (ok : Bool) (major minor : BitVec 8) (dens : BitVec 6), s.flash.discovering = true →
      ∃ t, exec (.discoveryDone ok major minor dens) s = .next t ∧ t.flash = { s.flash with discovering := false } ∧
        (ok = true ∧ major = 1 → t.on Reg.AX_SFDP_OK = true ∧ t.rd Reg.AX_SFDP_DENS = dens.toNat ∧
          t.rd Reg.AX_SFDP_MAJOR = 1 ∧ t.rd Reg.AX_SFDP_MINOR = minor.toNat) ∧
        (ok = false ∨ major ≠ 1 → t.on Reg.AX_SFDP_OK = false ∧ t.rd Reg.AX_SFDP_DENS = 0 ∧
          ((s.aux 0).state ≠ .boot → t.on Reg.AX_STAT_EV_DISC 0 = true)) ∧
        ((s.aux 0).state = .boot → t.boot = { s.boot with readAt := s.now } ∧ t.out = s.out ++ [.imageRead 32])) ∧
    (∀ words : List Word, s.flash.busy = true → words.length = 64 → (s.aux 0).startWaits = false →
      ∃ t, exec (.flashBlockLoaded words) s = .next t ∧ t.now = max s.now s.flash.doneAt ∧
        t.flash = { s.flash with words := words, busy := false, hold := s.on Reg.AX_FLCFG_CONT && s.on Reg.AX_FLCFG_EN,
                                 holdAt := t.now } ∧
        t.rd Reg.AX_FLCNT = (s.rd Reg.AX_FLCNT + 1) % 2 ^ Reg.AX_FLCNT.width ∧
        t.out = (if s.on Reg.AX_FLCFG_CONT && s.on Reg.AX_FLCFG_EN then s.out else s.out ++ [.auxSelect 0 0 false])) ∧
    (s.flash.hold = true → ∃ t, exec .flashContTimeout s = .next t ∧
      t.now = max s.now (s.flash.holdAt + 64 * s.rd Reg.AX_FLCFG_CTOUT) ∧ t.flash = { s.flash with hold := false } ∧
      t.out = s.out ++ [.auxSelect 0 0 false] ∧ t.regs = s.regs)

/-! ### Boot (15_boot.md) -/

/-- The Iatil load (R420 to R422): the header is checked at its 256th byte, and a fault ends the load in WAIT with its code
and offset; at LENGTH bytes the digest decides, a fast read that fails is tried once more at 25 MHz, any other ends with
code 5; the signature decides with code 7; the body is checked with code 8, or applied, and the device goes on to
Vernissage 16,000 DCLK later unless the image holds it. The offsets reported are read as log entry 45 says. -/
def Obligations.TheLoadChecksAndApplies : Prop :=
  ∀ s : State, s.running = true → s.boot.stage = .load →
    (∀ header, s.flash.discovering = false → s.boot.header = none →
      ∃ t, exec (.imageHeaderCheck header) s = .next t ∧ t.now = max s.now (s.boot.readAt + 261 * 512) ∧
        (∀ code a, s.headerFault (padTo 256 header) = some (code, a) → code < 16 →
          t.boot.stage = .wait ∧ t.rd Reg.GL_BOOTSTAT_ERR = code ∧ t.reg 0 0x012 = BitVec.ofNat 32 a) ∧
        (s.headerFault (padTo 256 header) = none →
          t.boot.stage = .load ∧ t.boot.header = some (padTo 256 header) ∧
          t.boot.fast = (imgFast (padTo 256 header) && !s.boot.retried) ∧
          t.on Reg.GL_BOOTSTAT_HOLD = imgHold (padTo 256 header))) ∧
    (∀ h image img, s.boot.header = some h → s.boot.image = none →
      img = h ++ (padTo (imgLength h) image).drop 256 →
      ∃ t, exec (.imageReadEnd image) s = .next t ∧
        (sha256 (imgMessage img) = slice h 32 32 → t.boot.stage = .load ∧ t.boot.image = some img ∧
          t.boot.digestOk = true ∧ t.boot.sigOk = !needsSignature h ∧ (t.aux 0).state ≠ .boot) ∧
        (sha256 (imgMessage img) ≠ slice h 32 32 →
          (s.boot.fast = true → t.boot.stage = .load ∧ t.boot.header = none ∧ t.boot.retried = true ∧ t.boot.fast = false ∧
            t.on Reg.GL_BOOTSTAT_RETRY = true) ∧
          (s.boot.fast = false → t.boot.stage = .wait ∧ t.rd Reg.GL_BOOTSTAT_ERR = 5))) ∧
    (∀ img, s.boot.image = some img → s.boot.sigOk = false →
      ∃ t, exec .signatureVerified s = .next t ∧ t.now = s.now ∧
        (Config.verify (slice img 64 64) (sha256 (imgMessage img)) (slice img 128 64) = true →
          t.boot = { s.boot with sigOk := true } ∧ t.on Reg.GL_BOOTSTAT_SIGNED = true) ∧
        (Config.verify (slice img 64 64) (sha256 (imgMessage img)) (slice img 128 64) = false →
          t.boot.stage = .wait ∧ t.rd Reg.GL_BOOTSTAT_ERR = 7)) ∧
    (∀ img, s.boot.image = some img → s.boot.digestOk = true → s.boot.sigOk = true →
      (∀ a, s.bodyOf img = .error a → ∃ t, exec .imageApply s = .next t ∧ t.boot.stage = .wait ∧
        t.rd Reg.GL_BOOTSTAT_ERR = 8 ∧ t.reg 0 0x012 = BitVec.ofNat 32 a) ∧
      (∀ ws, s.bodyOf img = .ok ws → ∃ t, exec .imageApply s = .next t ∧ t.boot.image = none ∧
        t.boot.imageId = BitVec.ofNat 64 (imgField img 24 8) ∧ t.rd Reg.GL_BOOTSTAT_ERR = 0 ∧
        (imgHold img = true → t.boot.stage = .loaded) ∧
        (imgHold img = false → t.boot.stage = .vern ∧ t.boot.vAt = some (t.now + 16000))))

/-- Vernissage (R424, R425, R427, R449): at edge V the device is READY with its time from Gesso in GL_BOOTTIME; octant o takes
its pins at V + 192 + 64 o DCLK, in order; a state digest that is done forms a CONFIG entry, or is kept by an engaged
shadow. -/
def Obligations.VernissageOpensTheOctants : Prop :=
  ∀ s : State, s.running = true →
    (∀ v, s.boot.vAt = some v → s.boot.stage = .vern → ∃ t, exec .vernissage s = .next t ∧ t.boot.stage = .ready ∧
      t.boot.octTaken = 0 ∧ t.now = max s.now v ∧ t.reg 0 0x013 = BitVec.ofNat 32 (min (t.now / 1600) (2 ^ 32 - 1)) ∧
      s.regsSameBut t [(0, 0x013)] ∧ t.pins = s.pins) ∧
    (∀ v (o : Fin 8), s.boot.vAt = some v → s.boot.stage = .ready → s.boot.octTaken = o.val →
      ∃ t, exec (.octantTakePins o) s = .next t ∧ t.boot = { s.boot with octTaken := o.val + 1 } ∧
        t.now = max s.now (v + 192 + 64 * o.val)) ∧
    (∀ source regs, s.boot.digest = some (source, regs) → ∃ t, exec .stateDigestDone s = .next t ∧
      t.boot = { s.boot with digest := none } ∧ t.now = s.now ∧
      (s.engagedShadow = true → source = 3 →
        t.hinge = { s.hinge with ownDigest := some (sha256 (s.digestBytes regs)) } ∧ t.almanac = s.almanac) ∧
      (s.engagedShadow = false → s.alSuspended = false → s.almanac.halt = false → s.almanac.queue.length < alQueueSize →
        t.almanac.index = s.almanac.index + 1 ∧ t.almanac.queue.length = s.almanac.queue.length + 1 ∧
        ∃ e ∈ t.almanac.queue, e.index = s.almanac.index ∧ e.kind = 4 ∧ e.nrec = 3 ∧ e.stamp = s.stamp))

/-! ### Power and resets (16_power_reset.md, 18_electrical_package.md) -/

/-- Octants (R431, R435 to R437): an octant without holders enters IDLE at its timer, with its ports held, begins NAP and DARK
at theirs, with the pads of NAP in hold, and is there 3,200 DCLK later; a request brings it to RUN at its latency, at once when
it came at the edge of the entry into IDLE, and its ports leave HELD. That entries and returns take their bounds is the
model's choice (log entry 31). -/
def Obligations.OctantsSleepAndWake : Prop :=
  ∀ (s : State) (o : Fin 8),
    ((s.oct o.val).state = .run → s.octMay o.val 1 = true → ∃ t, exec (.octantIdleEnter o) s = .next t ∧
      t.now = max s.now ((s.oct o.val).activeAt + 64 * s.rd (Reg.PW_OCTCFG_IDLET.at o.val)) ∧
      t.oct o.val = { s.oct o.val with state := .idle, since := t.now, leftAt := t.now } ∧
      (∀ p, octOfPort p = o.val → (t.port p).rx = .off ∨ (t.port p).rx = .held)) ∧
    ((s.oct o.val).state = .idle → s.octMay o.val 2 = true → ∃ t, exec (.octantNapEnter o) s = .next t ∧
      t.now = max s.now (max (s.oct o.val).since (s.oct o.val).activeAt +
        1600 * s.rd (Reg.PW_OCTCFG_NAPT.at o.val)) ∧
      t.oct o.val = { s.oct o.val with entering := some .nap, since := t.now } ∧ t.regs = s.regs ∧
      (∀ q, octOfPin q = o.val → (t.pin q).pad ≠ .drive)) ∧
    ((s.oct o.val).state = .nap → s.octMay o.val 3 = true → ∃ t, exec (.octantDarkEnter o) s = .next t ∧
      t.now = max s.now (max (s.oct o.val).since (s.oct o.val).activeAt +
        160000 * s.rd (Reg.PW_OCTCFG_DARKT.at o.val)) ∧
      t.oct o.val = { s.oct o.val with entering := some .dark, since := t.now } ∧ t.regs = s.regs ∧ t.pins = s.pins) ∧
    (∀ into, s.running = true → (s.oct o.val).entering = some into → ∃ t, exec (.octantEntryDone o) s = .next t ∧
      t.now = max s.now ((s.oct o.val).since + 3200) ∧
      t.oct o.val = { s.oct o.val with state := into, entering := none, since := t.now } ∧ t.regs = s.regs) ∧
    (∀ w cause, s.running = true → (s.oct o.val).wakeAt = some (w, cause) → (s.oct o.val).entering = none →
      (s.oct o.val).state ≠ .run → (s.oct o.val).failed = false → ∃ t, exec (.octantRun o) s = .next t ∧
      t.now = max s.now (max w (s.oct o.val).since +
        (match (s.oct o.val).state with | .nap => 1600 | .dark => 44800 | _ => if w = (s.oct o.val).leftAt then 0 else 8)) ∧
      (t.oct o.val).state = .run ∧ (t.oct o.val).wakeAt = none ∧
      (∀ p, octOfPort p = o.val → (t.port p).rx ≠ .held ∨ ((s.port p).rx = .held ∧ (s.port p).rxHeld = .held)))

/-- The other domains (R431): the core enters IDLE after 1,600 DCLK without work (log entry 113) and returns in 16 DCLK, the
host side goes with D3cold and returns from NAP in 32, the Hinge sleeps in a member that is SOLO and returns in 64,000, a
stack enters what its bound and its content allow, 1,600 DCLK or PW_MEMCFG_SRT microseconds after it came to RUN, and returns
in its latency after its request, which is taken whole (log entry 31); that nothing has accessed the stack meanwhile is the
sender's (log entry 92). -/
def Obligations.DomainsSleepAndWake : Prop :=
  ∀ s : State,
    (s.pastV = true →
      (s.power.core = .run → s.coreBusy = false → ∃ t, exec (.domainSleepEnter .core .idle) s = .next t ∧
        t.now = max s.now (s.coreIdleFrom + 1600) ∧ t.power = { s.power with core := .idle } ∧ t.regs = s.regs ∧
        t.ports = s.ports) ∧
      (s.link.d3hot = true → s.power.host ≠ .dark → ∃ t, exec (.domainSleepEnter .host .dark) s = .next t ∧
        t.power = { s.power with host := .dark } ∧ t.link.pm = .l2 ∧ t.now = s.now) ∧
      (s.rd Reg.HG_CFG_ROLE = 0 → exec (.domainSleepEnter .hinge .dark) s =
        .next { s with power := { s.power with hinge := .dark }, hinge := { s.hinge with up := false } }) ∧
      (∀ into, memMay s.power.mem0 into (s.rd Reg.PW_MEMCFG_MAXST0) s.reserveHolds s.mem0Wanted = true →
        ∃ t, exec (.domainSleepEnter .mem0 into) s = .next t ∧ t.power = { s.power with mem0 := into } ∧ t.regs = s.regs ∧
          t.now = max s.now (s.power.mem0At + (match into with
            | .idle => 1600 | .nap => 1600 * s.rd Reg.PW_MEMCFG_SRT | _ => 0))) ∧
      (∀ into, memMay s.power.mem1 into (s.rd Reg.PW_MEMCFG_MAXST1) (!s.segments.isEmpty) s.mem1Wanted = true →
        ∃ t, exec (.domainSleepEnter .mem1 into) s = .next t ∧ t.power = { s.power with mem1 := into } ∧ t.regs = s.regs ∧
          t.segments = s.segments ∧ t.now = max s.now (s.power.mem1At + (match into with
            | .idle => 1600 | .nap => 1600 * s.rd Reg.PW_MEMCFG_SRT | _ => 0)))) ∧
    (s.pastV = false → ∀ d into, exec (.domainSleepEnter d into) s = .next s) ∧
    (s.running = true →
      (s.power.core ≠ .run → ∃ t, exec (.domainWake .core) s = .next t ∧ t.now = s.now + 16 ∧
        t.power = { s.power with core := .run, coreAt := t.now } ∧ t.regs = s.regs) ∧
      (s.power.host = .nap → s.link.d3hot = false → ∃ t, exec (.domainWake .host) s = .next t ∧ t.now = s.now + 32 ∧
        t.power = { s.power with host := .run } ∧ t.regs = s.regs) ∧
      (s.power.hinge = .dark → s.rd Reg.HG_CFG_ROLE ≠ 0 → ∃ t, exec (.domainWake .hinge) s = .next t ∧
        t.now = s.now + 64000 ∧ t.power = { s.power with hinge := .run } ∧ t.regs = s.regs) ∧
      (s.power.mem0 ≠ .run → ∃ t, exec (.domainWake .mem0) s = .next t ∧
        t.now = max s.now (s.power.wake0.getD s.now + memLatency s.power.mem0) ∧
        t.power = { s.power with mem0 := .run, mem0At := t.now, wake0 := none } ∧ t.regs = s.regs) ∧
      (s.power.mem1 ≠ .run → ∃ t, exec (.domainWake .mem1) s = .next t ∧
        t.now = max s.now (s.power.wake1.getD s.now + memLatency s.power.mem1) ∧
        t.power = { s.power with mem1 := .run, mem1At := t.now, wake1 := none } ∧ t.regs = s.regs))

/-- The temperature (R473, R474): the sensors' readings stand in GL_THERM; at WARN source 259 is asserted, below WARN - HYST
it is released, and a Gesso that waits for cool dies starts; a trip is counted with its die, and is a SOFT reset whose
Gesso waits. -/
def Obligations.HeatWarnsAndTrips : Prop :=
  ∀ s : State,
    (∀ (core sio hbm : BitVec 8) (hot : Nat), hot = max core.toNat (max sio.toNat hbm.toNat) →
      ∃ t, exec (.thermalWarn core sio hbm) s = .next t ∧ t.now = s.now ∧ t.rd Reg.GL_THERM_TCORE = core.toNat ∧
        t.rd Reg.GL_THERM_TSIO = sio.toNat ∧ t.rd Reg.GL_THERM_THBM = hbm.toNat ∧
        (s.running = true → s.rd Reg.GL_THERMCFG_WARN ≤ hot → (t.src 259).input = true) ∧
        (s.running = true → hot < s.rd Reg.GL_THERMCFG_WARN → hot < s.coolLimit → (t.src 259).input = false) ∧
        (s.boot.hot = true → hot < s.coolLimit → t.boot = { s.boot with hot := false, fuseAt := s.now })) ∧
    (∀ die : Fin 7, s.clocked = true → s.regsWf = true → ∃ t, exec (.thermalTrip die) s = .next t ∧
      t.boot = { fuseAt := t.now, hot := true } ∧ t.staging = [] ∧ t.mons = [] ∧ t.segments = [] ∧ t.rings = [] ∧
      t.rd Reg.GL_THERM_TRIPDIE = die.val ∧ t.rd Reg.GL_THERM_TRIPS = min (s.rd Reg.GL_THERM_TRIPS + 1) 7 ∧
      t.rd Reg.PW_RSTSTAT_LAST = 2 ∧ (∀ q, (t.pin q).pad ≠ .drive)) ∧
    (∀ die : Fin 7, s.clocked = false → exec (.thermalTrip die) s = .next s)

/-! ### The Almanac (17_almanac.md) -/

/-- The Almanac (R452, R456, R459): formation resumes with a LAPSE once 1,024 places are free; a checkpoint is cut at once
when one is asked for, else a second after the last, and its CHECKPOINT counts unless the queue is full; its signature completes
it; after a reset one LAPSE says what was discarded. -/
def Obligations.TheAlmanacCutsAndRecovers : Prop :=
  ∀ s : State, s.running = true →
    (s.almanac.halt = true → 1024 ≤ alQueueSize - s.almanac.queue.length →
      ∃ t, exec .lapseQueue s = .next t ∧ t.almanac.halt = false ∧ t.almanac.haltCount = 0 ∧ t.on Reg.AL_STAT_LAPSE = true ∧
        t.now = s.now ∧ (s.alSuspended = false → t.almanac.index = s.almanac.index + 1 ∧
          ∃ e ∈ t.almanac.queue, e.index = s.almanac.index ∧ e.kind = 8)) ∧
    (s.almanac.halt = false → exec .lapseQueue s = .next s) ∧
    (s.alSuspended = false → ∃ t, exec .checkpointCut s = .next t ∧
      (s.ports.length ≤ 1024 → t.almanac.cpcount = (if s.almanac.full then s.almanac.cpcount else s.almanac.cpcount + 1)) ∧
      t.almanac.cutAsked = false ∧ t.almanac.cutAt = t.now ∧
      t.now = (if s.almanac.cutAsked || decide (65536 ≤ s.almanac.index - s.almanac.cpFrom) then s.now
        else max s.now (s.almanac.cutAt + 1600000000)) ∧
      (s.ports = [] → s.almanac.halt = false → s.almanac.queue.length < alQueueSize →
        ∃ e ∈ t.almanac.queue, e.index = s.almanac.index ∧ e.kind = 7 ∧ e.nrec = 4 ∧ e.signed = false)) ∧
    (s.alSuspended = true → exec .checkpointCut s = .next s) ∧
    (∀ e, s.almanac.queue.find? (fun e => e.kind == 7 && !e.signed) = some e → ∃ t, exec .checkpointSigned s = .next t ∧
      (∃ x ∈ t.almanac.queue, x.index = e.index ∧ x.signed = true) ∧
      t.almanac.queue.length = s.almanac.queue.length ∧ t.regs = s.regs ∧ t.now = s.now) ∧
    (∀ d, s.almanac.lapseDue = some d → s.alSuspended = false → ∃ t, exec .lapseReset s = .next t ∧
      t.almanac.lapseDue = none ∧ t.on Reg.AL_STAT_LAPSE = true ∧ t.now = s.now ∧
      (s.almanac.halt = false → s.almanac.queue.length < alQueueSize → t.almanac.index = s.almanac.index + 1))

/-! ### One reading of the time -/

/-- R38 whole: a read of TB_NOW_LO answers the low half of C at that edge and copies the high half of that value; a read of
TB_NOW_HI answers what was copied and changes nothing but the chain's own state; a burst that starts at TB_NOW_LO, which
nothing refuses, answers the two halves of one value as its first two words. -/
def Obligations.TheTimeReadsConsistently : Prop :=
  ∀ s : State,
    (s.takesRead 0x081 = true → ∃ t, exec (.chainRead 0x081 1) s = .next t ∧ t.answers Code.ok (s.c.truncate 32) ∧
      t.tb = { s.tb with nowHold := (s.c >>> 32).truncate 32 } ∧ t.c = s.c ∧ t.now = s.now) ∧
    (s.takesRead 0x082 = true → ∃ t, exec (.chainRead 0x082 1) s = .next t ∧ t.answers Code.ok s.tb.nowHold ∧
      s.sameButChain t) ∧
    (∀ n, s.chainOn = true → s.hinge.mirror = none → s.chain.lenNext = none → s.chain.mode ≠ .broadcast → 2 ≤ n →
      s.chain.len = n → s.burstRefusal 0x081 n = Code.ok → (∀ w, 0x081 ≤ w → w < 0x081 + n → s.selAll w = false) →
      ∃ t r, exec (.chainRead 0x081 n) s = .next t ∧ t.chain.resp = some r ∧ r.status.truncate 4 = Code.ok ∧
        r.data = s.c.truncate 32 ∧ r.more[0]? = some ((s.c >>> 32).truncate 32) ∧ r.more.length = n - 1)
end

