-- ==== Sys2Proof/Laws/Sparse.lean ====
section
/-!
SUPPORT. Laws of the sparse stores: a read after a write, a write leaves every other key alone, and every operation keeps the
canonical form.
-/
namespace Sys2Proof.Machine

variable {α : Type}

theorem Sparse.wfFrom_weaken [DecidableEq α] (d : Nat → α) (lo hi : Nat) (m : Sparse α) (h : lo ≤ hi)
    (w : Sparse.wfFrom d hi m = true) : Sparse.wfFrom d lo m = true := by
  cases m with
  | nil => rfl
  | cons a t =>
    obtain ⟨k, v⟩ := a
    simp only [Sparse.wfFrom, Bool.and_eq_true, decide_eq_true_eq] at w ⊢
    exact ⟨⟨Nat.le_trans h w.1.1, w.1.2⟩, w.2⟩

/-- A key below the first listed one reads its default. -/
theorem Sparse.get_of_wfFrom [DecidableEq α] (d : Nat → α) (lo : Nat) (m : Sparse α) (k : Nat)
    (w : Sparse.wfFrom d lo m = true) (h : k < lo) : Sparse.get d m k = d k := by
  induction m generalizing lo with
  | nil => rfl
  | cons a t ih =>
    obtain ⟨j, v⟩ := a
    simp only [Sparse.wfFrom, Bool.and_eq_true, decide_eq_true_eq] at w
    have : ¬ j = k := by omega
    simp only [Sparse.get, this, if_false]
    exact ih (j + 1) w.2 (by omega)

theorem Sparse.get_insert_self (d : Nat → α) (m : Sparse α) (k : Nat) (v : α) :
    Sparse.get d (Sparse.insert m k v) k = v := by
  induction m with
  | nil => simp [Sparse.insert, Sparse.get]
  | cons a t ih =>
    obtain ⟨j, x⟩ := a
    simp only [Sparse.insert]
    split
    · simp [Sparse.get]
    · split
      · simp [Sparse.get]
      · have : ¬ j = k := by omega
        simp [Sparse.get, this, ih]

theorem Sparse.get_insert_other (d : Nat → α) (m : Sparse α) (k j : Nat) (v : α) (h : j ≠ k) :
    Sparse.get d (Sparse.insert m k v) j = Sparse.get d m j := by
  induction m with
  | nil => simp [Sparse.insert, Sparse.get, Ne.symm h]
  | cons a t ih =>
    obtain ⟨i, x⟩ := a
    simp only [Sparse.insert]
    split
    · simp [Sparse.get, Ne.symm h]
    · split
      · subst_vars
        simp [Sparse.get, Ne.symm h]
      · simp only [Sparse.get, ih]

theorem Sparse.get_drop_other (d : Nat → α) (m : Sparse α) (k j : Nat) (h : j ≠ k) :
    Sparse.get d (Sparse.drop m k) j = Sparse.get d m j := by
  induction m with
  | nil => rfl
  | cons a t ih =>
    obtain ⟨i, x⟩ := a
    simp only [Sparse.drop]
    split
    · subst_vars
      simp only [Sparse.get, Ne.symm h, if_false, ih]
    · simp only [Sparse.get, ih]

theorem Sparse.get_drop_self (d : Nat → α) (m : Sparse α) (k : Nat) : Sparse.get d (Sparse.drop m k) k = d k := by
  induction m with
  | nil => rfl
  | cons a t ih =>
    obtain ⟨i, x⟩ := a
    simp only [Sparse.drop]
    split
    · exact ih
    · rename_i h
      simp only [Sparse.get, h, if_false]
      exact ih

theorem Sparse.wfFrom_insert [DecidableEq α] (d : Nat → α) (lo : Nat) (m : Sparse α) (k : Nat) (v : α) (hv : v ≠ d k)
    (hk : lo ≤ k) (w : Sparse.wfFrom d lo m = true) : Sparse.wfFrom d lo (Sparse.insert m k v) = true := by
  induction m generalizing lo with
  | nil => simp [Sparse.insert, Sparse.wfFrom, hv, hk]
  | cons a t ih =>
    obtain ⟨j, x⟩ := a
    simp only [Sparse.wfFrom, Bool.and_eq_true, decide_eq_true_eq] at w
    simp only [Sparse.insert]
    split
    · simp [Sparse.wfFrom, hv, hk, w.1.2, w.2]; omega
    · split
      · subst_vars
        simp [Sparse.wfFrom, hv, hk, w.2]
      · simp only [Sparse.wfFrom, Bool.and_eq_true, decide_eq_true_eq]
        exact ⟨w.1, ih (j + 1) (by omega) w.2⟩

theorem Sparse.wfFrom_drop [DecidableEq α] (d : Nat → α) (lo : Nat) (m : Sparse α) (k : Nat)
    (w : Sparse.wfFrom d lo m = true) : Sparse.wfFrom d lo (Sparse.drop m k) = true := by
  induction m generalizing lo with
  | nil => rfl
  | cons a t ih =>
    obtain ⟨j, x⟩ := a
    simp only [Sparse.wfFrom, Bool.and_eq_true, decide_eq_true_eq] at w
    simp only [Sparse.drop]
    split
    · exact Sparse.wfFrom_weaken d _ _ _ (by omega) (ih (j + 1) w.2)
    · simp only [Sparse.wfFrom, Bool.and_eq_true, decide_eq_true_eq]
      exact ⟨w.1, ih (j + 1) w.2⟩

/-- A write keeps the canonical form. -/
theorem Sparse.wf_put [DecidableEq α] (d : Nat → α) (m : Sparse α) (k : Nat) (v : α) (w : Sparse.wf d m = true) :
    Sparse.wf d (Sparse.put d m k v) = true := by
  unfold Sparse.put
  split
  · exact Sparse.wfFrom_drop d 0 m k w
  · rename_i h
    exact Sparse.wfFrom_insert d 0 m k v h (Nat.zero_le k) w

/-- A read of another key after a write gives what it gave before. -/
@[simp] theorem Sparse.get_put_other [DecidableEq α] (d : Nat → α) (m : Sparse α) (k j : Nat) (v : α) (h : j ≠ k) :
    Sparse.get d (Sparse.put d m k v) j = Sparse.get d m j := by
  unfold Sparse.put
  split
  · exact Sparse.get_drop_other d m k j h
  · exact Sparse.get_insert_other d m k j v h

/-- A read after a write to the same key gives the value written. -/
@[simp] theorem Sparse.get_put_self [DecidableEq α] (d : Nat → α) (m : Sparse α) (k : Nat) (v : α) :
    Sparse.get d (Sparse.put d m k v) k = v := by
  unfold Sparse.put
  split
  · rename_i h
    rw [Sparse.get_drop_self, h]
  · exact Sparse.get_insert_self d m k v

/-- Two canonical stores that read alike at every key are equal. -/
theorem Sparse.ext_of_wf [DecidableEq α] (d : Nat → α) (lo : Nat) (m n : Sparse α) (wm : Sparse.wfFrom d lo m = true)
    (wn : Sparse.wfFrom d lo n = true) (h : ∀ k, Sparse.get d m k = Sparse.get d n k) : m = n := by
  induction m generalizing lo n with
  | nil =>
    cases n with
    | nil => rfl
    | cons b u =>
      obtain ⟨k, v⟩ := b
      simp only [Sparse.wfFrom, Bool.and_eq_true, decide_eq_true_eq] at wn
      have := h k
      simp [Sparse.get] at this
      exact absurd this.symm wn.1.2
  | cons a t ih =>
    obtain ⟨j, x⟩ := a
    cases n with
    | nil =>
      simp only [Sparse.wfFrom, Bool.and_eq_true, decide_eq_true_eq] at wm
      have := h j
      simp [Sparse.get] at this
      exact absurd this wm.1.2
    | cons b u =>
      obtain ⟨k, v⟩ := b
      have wm' := wm
      have wn' := wn
      simp only [Sparse.wfFrom, Bool.and_eq_true, decide_eq_true_eq] at wm wn
      rcases Nat.lt_trichotomy j k with hl | he | hg
      · have h1 := h j
        rw [Sparse.get_of_wfFrom d (j + 1) ((k, v) :: u) j
          (by simp [Sparse.wfFrom, wn.1.2, wn.2]; omega) (by omega)] at h1
        simp [Sparse.get] at h1
        exact absurd h1 wm.1.2
      · subst he
        have hv := h j
        simp [Sparse.get] at hv
        subst hv
        have : t = u := by
          apply ih (j + 1) u wm.2 wn.2
          intro i
          have hi := h i
          by_cases e : j = i
          · subst e
            rw [Sparse.get_of_wfFrom d _ t _ wm.2 (by omega), Sparse.get_of_wfFrom d _ u _ wn.2 (by omega)]
          · simpa [Sparse.get, e] using hi
        rw [this]
      · have h1 := h k
        rw [Sparse.get_of_wfFrom d (k + 1) ((j, x) :: t) k
          (by simp [Sparse.wfFrom, wm.1.2, wm.2]; omega) (by omega)] at h1
        simp [Sparse.get] at h1
        exact absurd h1.symm wn.1.2

end Sys2Proof.Machine
end

