-- ==== Sys2Proof/Laws/State.lean ====
section
/-!
SUPPORT. What each update of the state leaves alone, one lemma for each field and update; and that a register, a pin, a port,
a ring and every other part reads what was last stored to it.
-/
namespace Sys2Proof.Machine

variable (s : State)

/-! ### setReg -/

@[simp] theorem State.setReg_pending (i w : Nat) (v : Word) : (s.setReg i w v).pending = s.pending := rfl
@[simp] theorem State.setReg_now (i w : Nat) (v : Word) : (s.setReg i w v).now = s.now := rfl
@[simp] theorem State.setReg_c (i w : Nat) (v : Word) : (s.setReg i w v).c = s.c := rfl
@[simp] theorem State.setReg_strap (i w : Nat) (v : Word) : (s.setReg i w v).strap = s.strap := rfl
@[simp] theorem State.setReg_clk (i w : Nat) (v : Word) : (s.setReg i w v).clk = s.clk := rfl
@[simp] theorem State.setReg_boot (i w : Nat) (v : Word) : (s.setReg i w v).boot = s.boot := rfl
@[simp] theorem State.setReg_chain (i w : Nat) (v : Word) : (s.setReg i w v).chain = s.chain := rfl
@[simp] theorem State.setReg_tb (i w : Nat) (v : Word) : (s.setReg i w v).tb = s.tb := rfl
@[simp] theorem State.setReg_hinge (i w : Nat) (v : Word) : (s.setReg i w v).hinge = s.hinge := rfl
@[simp] theorem State.setReg_link (i w : Nat) (v : Word) : (s.setReg i w v).link = s.link := rfl
@[simp] theorem State.setReg_power (i w : Nat) (v : Word) : (s.setReg i w v).power = s.power := rfl
@[simp] theorem State.setReg_flash (i w : Nat) (v : Word) : (s.setReg i w v).flash = s.flash := rfl
@[simp] theorem State.setReg_almanac (i w : Nat) (v : Word) : (s.setReg i w v).almanac = s.almanac := rfl
@[simp] theorem State.setReg_pins (i w : Nat) (v : Word) : (s.setReg i w v).pins = s.pins := rfl
@[simp] theorem State.setReg_ports (i w : Nat) (v : Word) : (s.setReg i w v).ports = s.ports := rfl
@[simp] theorem State.setReg_rings (i w : Nat) (v : Word) : (s.setReg i w v).rings = s.rings := rfl
@[simp] theorem State.setReg_groups (i w : Nat) (v : Word) : (s.setReg i w v).groups = s.groups := rfl
@[simp] theorem State.setReg_mons (i w : Nat) (v : Word) : (s.setReg i w v).mons = s.mons := rfl
@[simp] theorem State.setReg_cus (i w : Nat) (v : Word) : (s.setReg i w v).cus = s.cus := rfl
@[simp] theorem State.setReg_auxs (i w : Nat) (v : Word) : (s.setReg i w v).auxs = s.auxs := rfl
@[simp] theorem State.setReg_octs (i w : Nat) (v : Word) : (s.setReg i w v).octs = s.octs := rfl
@[simp] theorem State.setReg_srcs (i w : Nat) (v : Word) : (s.setReg i w v).srcs = s.srcs := rfl
@[simp] theorem State.setReg_tgts (i w : Nat) (v : Word) : (s.setReg i w v).tgts = s.tgts := rfl
@[simp] theorem State.setReg_staging (i w : Nat) (v : Word) : (s.setReg i w v).staging = s.staging := rfl
@[simp] theorem State.setReg_stagingLow (i w : Nat) (v : Word) : (s.setReg i w v).stagingLow = s.stagingLow := rfl
@[simp] theorem State.setReg_unbuilt (i w : Nat) (v : Word) : (s.setReg i w v).unbuilt = s.unbuilt := rfl
@[simp] theorem State.setReg_gated (i w : Nat) (v : Word) : (s.setReg i w v).gated = s.gated := rfl
@[simp] theorem State.setReg_gapWaits (i w : Nat) (v : Word) : (s.setReg i w v).gapWaits = s.gapWaits := rfl
@[simp] theorem State.setReg_msgs (i w : Nat) (v : Word) : (s.setReg i w v).msgs = s.msgs := rfl
@[simp] theorem State.setReg_flushes (i w : Nat) (v : Word) : (s.setReg i w v).flushes = s.flushes := rfl
@[simp] theorem State.setReg_flushAt (i w : Nat) (v : Word) : (s.setReg i w v).flushAt = s.flushAt := rfl
@[simp] theorem State.setReg_flushDue (i w : Nat) (v : Word) : (s.setReg i w v).flushDue = s.flushDue := rfl
@[simp] theorem State.setReg_bulkAt (i w : Nat) (v : Word) : (s.setReg i w v).bulkAt = s.bulkAt := rfl
@[simp] theorem State.setReg_segments (i w : Nat) (v : Word) : (s.setReg i w v).segments = s.segments := rfl
@[simp] theorem State.setReg_upHead (i w : Nat) (v : Word) : (s.setReg i w v).upHead = s.upHead := rfl
@[simp] theorem State.setReg_extents (i w : Nat) (v : Word) : (s.setReg i w v).extents = s.extents := rfl
@[simp] theorem State.setReg_nextUid (i w : Nat) (v : Word) : (s.setReg i w v).nextUid = s.nextUid := rfl
@[simp] theorem State.setReg_nextOrder (i w : Nat) (v : Word) : (s.setReg i w v).nextOrder = s.nextOrder := rfl
@[simp] theorem State.setReg_free (i w : Nat) (v : Word) : (s.setReg i w v).free = s.free := rfl
@[simp] theorem State.setReg_out (i w : Nat) (v : Word) : (s.setReg i w v).out = s.out := rfl

/-! ### wr -/

@[simp] theorem State.wr_pending (f : Fld) (x i : Nat) : (s.wr f x i).pending = s.pending := rfl
@[simp] theorem State.wr_now (f : Fld) (x i : Nat) : (s.wr f x i).now = s.now := rfl
@[simp] theorem State.wr_c (f : Fld) (x i : Nat) : (s.wr f x i).c = s.c := rfl
@[simp] theorem State.wr_strap (f : Fld) (x i : Nat) : (s.wr f x i).strap = s.strap := rfl
@[simp] theorem State.wr_clk (f : Fld) (x i : Nat) : (s.wr f x i).clk = s.clk := rfl
@[simp] theorem State.wr_boot (f : Fld) (x i : Nat) : (s.wr f x i).boot = s.boot := rfl
@[simp] theorem State.wr_chain (f : Fld) (x i : Nat) : (s.wr f x i).chain = s.chain := rfl
@[simp] theorem State.wr_tb (f : Fld) (x i : Nat) : (s.wr f x i).tb = s.tb := rfl
@[simp] theorem State.wr_hinge (f : Fld) (x i : Nat) : (s.wr f x i).hinge = s.hinge := rfl
@[simp] theorem State.wr_link (f : Fld) (x i : Nat) : (s.wr f x i).link = s.link := rfl
@[simp] theorem State.wr_power (f : Fld) (x i : Nat) : (s.wr f x i).power = s.power := rfl
@[simp] theorem State.wr_flash (f : Fld) (x i : Nat) : (s.wr f x i).flash = s.flash := rfl
@[simp] theorem State.wr_almanac (f : Fld) (x i : Nat) : (s.wr f x i).almanac = s.almanac := rfl
@[simp] theorem State.wr_pins (f : Fld) (x i : Nat) : (s.wr f x i).pins = s.pins := rfl
@[simp] theorem State.wr_ports (f : Fld) (x i : Nat) : (s.wr f x i).ports = s.ports := rfl
@[simp] theorem State.wr_rings (f : Fld) (x i : Nat) : (s.wr f x i).rings = s.rings := rfl
@[simp] theorem State.wr_groups (f : Fld) (x i : Nat) : (s.wr f x i).groups = s.groups := rfl
@[simp] theorem State.wr_mons (f : Fld) (x i : Nat) : (s.wr f x i).mons = s.mons := rfl
@[simp] theorem State.wr_cus (f : Fld) (x i : Nat) : (s.wr f x i).cus = s.cus := rfl
@[simp] theorem State.wr_auxs (f : Fld) (x i : Nat) : (s.wr f x i).auxs = s.auxs := rfl
@[simp] theorem State.wr_octs (f : Fld) (x i : Nat) : (s.wr f x i).octs = s.octs := rfl
@[simp] theorem State.wr_srcs (f : Fld) (x i : Nat) : (s.wr f x i).srcs = s.srcs := rfl
@[simp] theorem State.wr_tgts (f : Fld) (x i : Nat) : (s.wr f x i).tgts = s.tgts := rfl
@[simp] theorem State.wr_staging (f : Fld) (x i : Nat) : (s.wr f x i).staging = s.staging := rfl
@[simp] theorem State.wr_stagingLow (f : Fld) (x i : Nat) : (s.wr f x i).stagingLow = s.stagingLow := rfl
@[simp] theorem State.wr_unbuilt (f : Fld) (x i : Nat) : (s.wr f x i).unbuilt = s.unbuilt := rfl
@[simp] theorem State.wr_gated (f : Fld) (x i : Nat) : (s.wr f x i).gated = s.gated := rfl
@[simp] theorem State.wr_gapWaits (f : Fld) (x i : Nat) : (s.wr f x i).gapWaits = s.gapWaits := rfl
@[simp] theorem State.wr_msgs (f : Fld) (x i : Nat) : (s.wr f x i).msgs = s.msgs := rfl
@[simp] theorem State.wr_flushes (f : Fld) (x i : Nat) : (s.wr f x i).flushes = s.flushes := rfl
@[simp] theorem State.wr_flushAt (f : Fld) (x i : Nat) : (s.wr f x i).flushAt = s.flushAt := rfl
@[simp] theorem State.wr_flushDue (f : Fld) (x i : Nat) : (s.wr f x i).flushDue = s.flushDue := rfl
@[simp] theorem State.wr_bulkAt (f : Fld) (x i : Nat) : (s.wr f x i).bulkAt = s.bulkAt := rfl
@[simp] theorem State.wr_segments (f : Fld) (x i : Nat) : (s.wr f x i).segments = s.segments := rfl
@[simp] theorem State.wr_upHead (f : Fld) (x i : Nat) : (s.wr f x i).upHead = s.upHead := rfl
@[simp] theorem State.wr_extents (f : Fld) (x i : Nat) : (s.wr f x i).extents = s.extents := rfl
@[simp] theorem State.wr_nextUid (f : Fld) (x i : Nat) : (s.wr f x i).nextUid = s.nextUid := rfl
@[simp] theorem State.wr_nextOrder (f : Fld) (x i : Nat) : (s.wr f x i).nextOrder = s.nextOrder := rfl
@[simp] theorem State.wr_free (f : Fld) (x i : Nat) : (s.wr f x i).free = s.free := rfl
@[simp] theorem State.wr_out (f : Fld) (x i : Nat) : (s.wr f x i).out = s.out := rfl

/-! ### emit -/

@[simp] theorem State.emit_pending (o : Out) : (s.emit o).pending = s.pending := rfl
@[simp] theorem State.emit_now (o : Out) : (s.emit o).now = s.now := rfl
@[simp] theorem State.emit_c (o : Out) : (s.emit o).c = s.c := rfl
@[simp] theorem State.emit_strap (o : Out) : (s.emit o).strap = s.strap := rfl
@[simp] theorem State.emit_regs (o : Out) : (s.emit o).regs = s.regs := rfl
@[simp] theorem State.emit_clk (o : Out) : (s.emit o).clk = s.clk := rfl
@[simp] theorem State.emit_boot (o : Out) : (s.emit o).boot = s.boot := rfl
@[simp] theorem State.emit_chain (o : Out) : (s.emit o).chain = s.chain := rfl
@[simp] theorem State.emit_tb (o : Out) : (s.emit o).tb = s.tb := rfl
@[simp] theorem State.emit_hinge (o : Out) : (s.emit o).hinge = s.hinge := rfl
@[simp] theorem State.emit_link (o : Out) : (s.emit o).link = s.link := rfl
@[simp] theorem State.emit_power (o : Out) : (s.emit o).power = s.power := rfl
@[simp] theorem State.emit_flash (o : Out) : (s.emit o).flash = s.flash := rfl
@[simp] theorem State.emit_almanac (o : Out) : (s.emit o).almanac = s.almanac := rfl
@[simp] theorem State.emit_pins (o : Out) : (s.emit o).pins = s.pins := rfl
@[simp] theorem State.emit_ports (o : Out) : (s.emit o).ports = s.ports := rfl
@[simp] theorem State.emit_rings (o : Out) : (s.emit o).rings = s.rings := rfl
@[simp] theorem State.emit_groups (o : Out) : (s.emit o).groups = s.groups := rfl
@[simp] theorem State.emit_mons (o : Out) : (s.emit o).mons = s.mons := rfl
@[simp] theorem State.emit_cus (o : Out) : (s.emit o).cus = s.cus := rfl
@[simp] theorem State.emit_auxs (o : Out) : (s.emit o).auxs = s.auxs := rfl
@[simp] theorem State.emit_octs (o : Out) : (s.emit o).octs = s.octs := rfl
@[simp] theorem State.emit_srcs (o : Out) : (s.emit o).srcs = s.srcs := rfl
@[simp] theorem State.emit_tgts (o : Out) : (s.emit o).tgts = s.tgts := rfl
@[simp] theorem State.emit_staging (o : Out) : (s.emit o).staging = s.staging := rfl
@[simp] theorem State.emit_stagingLow (o : Out) : (s.emit o).stagingLow = s.stagingLow := rfl
@[simp] theorem State.emit_unbuilt (o : Out) : (s.emit o).unbuilt = s.unbuilt := rfl
@[simp] theorem State.emit_gated (o : Out) : (s.emit o).gated = s.gated := rfl
@[simp] theorem State.emit_gapWaits (o : Out) : (s.emit o).gapWaits = s.gapWaits := rfl
@[simp] theorem State.emit_msgs (o : Out) : (s.emit o).msgs = s.msgs := rfl
@[simp] theorem State.emit_flushes (o : Out) : (s.emit o).flushes = s.flushes := rfl
@[simp] theorem State.emit_flushAt (o : Out) : (s.emit o).flushAt = s.flushAt := rfl
@[simp] theorem State.emit_flushDue (o : Out) : (s.emit o).flushDue = s.flushDue := rfl
@[simp] theorem State.emit_bulkAt (o : Out) : (s.emit o).bulkAt = s.bulkAt := rfl
@[simp] theorem State.emit_segments (o : Out) : (s.emit o).segments = s.segments := rfl
@[simp] theorem State.emit_upHead (o : Out) : (s.emit o).upHead = s.upHead := rfl
@[simp] theorem State.emit_extents (o : Out) : (s.emit o).extents = s.extents := rfl
@[simp] theorem State.emit_nextUid (o : Out) : (s.emit o).nextUid = s.nextUid := rfl
@[simp] theorem State.emit_nextOrder (o : Out) : (s.emit o).nextOrder = s.nextOrder := rfl
@[simp] theorem State.emit_free (o : Out) : (s.emit o).free = s.free := rfl

/-! ### setPin -/

@[simp] theorem State.setPin_pending (k : Nat) (x : Pin) : (s.setPin k x).pending = s.pending := rfl
@[simp] theorem State.setPin_now (k : Nat) (x : Pin) : (s.setPin k x).now = s.now := rfl
@[simp] theorem State.setPin_c (k : Nat) (x : Pin) : (s.setPin k x).c = s.c := rfl
@[simp] theorem State.setPin_strap (k : Nat) (x : Pin) : (s.setPin k x).strap = s.strap := rfl
@[simp] theorem State.setPin_regs (k : Nat) (x : Pin) : (s.setPin k x).regs = s.regs := rfl
@[simp] theorem State.setPin_clk (k : Nat) (x : Pin) : (s.setPin k x).clk = s.clk := rfl
@[simp] theorem State.setPin_boot (k : Nat) (x : Pin) : (s.setPin k x).boot = s.boot := rfl
@[simp] theorem State.setPin_chain (k : Nat) (x : Pin) : (s.setPin k x).chain = s.chain := rfl
@[simp] theorem State.setPin_tb (k : Nat) (x : Pin) : (s.setPin k x).tb = s.tb := rfl
@[simp] theorem State.setPin_hinge (k : Nat) (x : Pin) : (s.setPin k x).hinge = s.hinge := rfl
@[simp] theorem State.setPin_link (k : Nat) (x : Pin) : (s.setPin k x).link = s.link := rfl
@[simp] theorem State.setPin_power (k : Nat) (x : Pin) : (s.setPin k x).power = s.power := rfl
@[simp] theorem State.setPin_flash (k : Nat) (x : Pin) : (s.setPin k x).flash = s.flash := rfl
@[simp] theorem State.setPin_almanac (k : Nat) (x : Pin) : (s.setPin k x).almanac = s.almanac := rfl
@[simp] theorem State.setPin_ports (k : Nat) (x : Pin) : (s.setPin k x).ports = s.ports := rfl
@[simp] theorem State.setPin_rings (k : Nat) (x : Pin) : (s.setPin k x).rings = s.rings := rfl
@[simp] theorem State.setPin_groups (k : Nat) (x : Pin) : (s.setPin k x).groups = s.groups := rfl
@[simp] theorem State.setPin_mons (k : Nat) (x : Pin) : (s.setPin k x).mons = s.mons := rfl
@[simp] theorem State.setPin_cus (k : Nat) (x : Pin) : (s.setPin k x).cus = s.cus := rfl
@[simp] theorem State.setPin_auxs (k : Nat) (x : Pin) : (s.setPin k x).auxs = s.auxs := rfl
@[simp] theorem State.setPin_octs (k : Nat) (x : Pin) : (s.setPin k x).octs = s.octs := rfl
@[simp] theorem State.setPin_srcs (k : Nat) (x : Pin) : (s.setPin k x).srcs = s.srcs := rfl
@[simp] theorem State.setPin_tgts (k : Nat) (x : Pin) : (s.setPin k x).tgts = s.tgts := rfl
@[simp] theorem State.setPin_staging (k : Nat) (x : Pin) : (s.setPin k x).staging = s.staging := rfl
@[simp] theorem State.setPin_stagingLow (k : Nat) (x : Pin) : (s.setPin k x).stagingLow = s.stagingLow := rfl
@[simp] theorem State.setPin_unbuilt (k : Nat) (x : Pin) : (s.setPin k x).unbuilt = s.unbuilt := rfl
@[simp] theorem State.setPin_gated (k : Nat) (x : Pin) : (s.setPin k x).gated = s.gated := rfl
@[simp] theorem State.setPin_gapWaits (k : Nat) (x : Pin) : (s.setPin k x).gapWaits = s.gapWaits := rfl
@[simp] theorem State.setPin_msgs (k : Nat) (x : Pin) : (s.setPin k x).msgs = s.msgs := rfl
@[simp] theorem State.setPin_flushes (k : Nat) (x : Pin) : (s.setPin k x).flushes = s.flushes := rfl
@[simp] theorem State.setPin_flushAt (k : Nat) (x : Pin) : (s.setPin k x).flushAt = s.flushAt := rfl
@[simp] theorem State.setPin_flushDue (k : Nat) (x : Pin) : (s.setPin k x).flushDue = s.flushDue := rfl
@[simp] theorem State.setPin_bulkAt (k : Nat) (x : Pin) : (s.setPin k x).bulkAt = s.bulkAt := rfl
@[simp] theorem State.setPin_segments (k : Nat) (x : Pin) : (s.setPin k x).segments = s.segments := rfl
@[simp] theorem State.setPin_upHead (k : Nat) (x : Pin) : (s.setPin k x).upHead = s.upHead := rfl
@[simp] theorem State.setPin_extents (k : Nat) (x : Pin) : (s.setPin k x).extents = s.extents := rfl
@[simp] theorem State.setPin_nextUid (k : Nat) (x : Pin) : (s.setPin k x).nextUid = s.nextUid := rfl
@[simp] theorem State.setPin_nextOrder (k : Nat) (x : Pin) : (s.setPin k x).nextOrder = s.nextOrder := rfl
@[simp] theorem State.setPin_free (k : Nat) (x : Pin) : (s.setPin k x).free = s.free := rfl
@[simp] theorem State.setPin_out (k : Nat) (x : Pin) : (s.setPin k x).out = s.out := rfl

/-! ### setPort -/

@[simp] theorem State.setPort_pending (k : Nat) (x : Port) : (s.setPort k x).pending = s.pending := rfl
@[simp] theorem State.setPort_now (k : Nat) (x : Port) : (s.setPort k x).now = s.now := rfl
@[simp] theorem State.setPort_c (k : Nat) (x : Port) : (s.setPort k x).c = s.c := rfl
@[simp] theorem State.setPort_strap (k : Nat) (x : Port) : (s.setPort k x).strap = s.strap := rfl
@[simp] theorem State.setPort_regs (k : Nat) (x : Port) : (s.setPort k x).regs = s.regs := rfl
@[simp] theorem State.setPort_clk (k : Nat) (x : Port) : (s.setPort k x).clk = s.clk := rfl
@[simp] theorem State.setPort_boot (k : Nat) (x : Port) : (s.setPort k x).boot = s.boot := rfl
@[simp] theorem State.setPort_chain (k : Nat) (x : Port) : (s.setPort k x).chain = s.chain := rfl
@[simp] theorem State.setPort_tb (k : Nat) (x : Port) : (s.setPort k x).tb = s.tb := rfl
@[simp] theorem State.setPort_hinge (k : Nat) (x : Port) : (s.setPort k x).hinge = s.hinge := rfl
@[simp] theorem State.setPort_link (k : Nat) (x : Port) : (s.setPort k x).link = s.link := rfl
@[simp] theorem State.setPort_power (k : Nat) (x : Port) : (s.setPort k x).power = s.power := rfl
@[simp] theorem State.setPort_flash (k : Nat) (x : Port) : (s.setPort k x).flash = s.flash := rfl
@[simp] theorem State.setPort_almanac (k : Nat) (x : Port) : (s.setPort k x).almanac = s.almanac := rfl
@[simp] theorem State.setPort_pins (k : Nat) (x : Port) : (s.setPort k x).pins = s.pins := rfl
@[simp] theorem State.setPort_rings (k : Nat) (x : Port) : (s.setPort k x).rings = s.rings := rfl
@[simp] theorem State.setPort_groups (k : Nat) (x : Port) : (s.setPort k x).groups = s.groups := rfl
@[simp] theorem State.setPort_mons (k : Nat) (x : Port) : (s.setPort k x).mons = s.mons := rfl
@[simp] theorem State.setPort_cus (k : Nat) (x : Port) : (s.setPort k x).cus = s.cus := rfl
@[simp] theorem State.setPort_auxs (k : Nat) (x : Port) : (s.setPort k x).auxs = s.auxs := rfl
@[simp] theorem State.setPort_octs (k : Nat) (x : Port) : (s.setPort k x).octs = s.octs := rfl
@[simp] theorem State.setPort_srcs (k : Nat) (x : Port) : (s.setPort k x).srcs = s.srcs := rfl
@[simp] theorem State.setPort_tgts (k : Nat) (x : Port) : (s.setPort k x).tgts = s.tgts := rfl
@[simp] theorem State.setPort_staging (k : Nat) (x : Port) : (s.setPort k x).staging = s.staging := rfl
@[simp] theorem State.setPort_stagingLow (k : Nat) (x : Port) : (s.setPort k x).stagingLow = s.stagingLow := rfl
@[simp] theorem State.setPort_unbuilt (k : Nat) (x : Port) : (s.setPort k x).unbuilt = s.unbuilt := rfl
@[simp] theorem State.setPort_gated (k : Nat) (x : Port) : (s.setPort k x).gated = s.gated := rfl
@[simp] theorem State.setPort_gapWaits (k : Nat) (x : Port) : (s.setPort k x).gapWaits = s.gapWaits := rfl
@[simp] theorem State.setPort_msgs (k : Nat) (x : Port) : (s.setPort k x).msgs = s.msgs := rfl
@[simp] theorem State.setPort_flushes (k : Nat) (x : Port) : (s.setPort k x).flushes = s.flushes := rfl
@[simp] theorem State.setPort_flushAt (k : Nat) (x : Port) : (s.setPort k x).flushAt = s.flushAt := rfl
@[simp] theorem State.setPort_flushDue (k : Nat) (x : Port) : (s.setPort k x).flushDue = s.flushDue := rfl
@[simp] theorem State.setPort_bulkAt (k : Nat) (x : Port) : (s.setPort k x).bulkAt = s.bulkAt := rfl
@[simp] theorem State.setPort_segments (k : Nat) (x : Port) : (s.setPort k x).segments = s.segments := rfl
@[simp] theorem State.setPort_upHead (k : Nat) (x : Port) : (s.setPort k x).upHead = s.upHead := rfl
@[simp] theorem State.setPort_extents (k : Nat) (x : Port) : (s.setPort k x).extents = s.extents := rfl
@[simp] theorem State.setPort_nextUid (k : Nat) (x : Port) : (s.setPort k x).nextUid = s.nextUid := rfl
@[simp] theorem State.setPort_nextOrder (k : Nat) (x : Port) : (s.setPort k x).nextOrder = s.nextOrder := rfl
@[simp] theorem State.setPort_free (k : Nat) (x : Port) : (s.setPort k x).free = s.free := rfl
@[simp] theorem State.setPort_out (k : Nat) (x : Port) : (s.setPort k x).out = s.out := rfl

/-! ### setRing -/

@[simp] theorem State.setRing_pending (k : Nat) (x : Ring) : (s.setRing k x).pending = s.pending := rfl
@[simp] theorem State.setRing_now (k : Nat) (x : Ring) : (s.setRing k x).now = s.now := rfl
@[simp] theorem State.setRing_c (k : Nat) (x : Ring) : (s.setRing k x).c = s.c := rfl
@[simp] theorem State.setRing_strap (k : Nat) (x : Ring) : (s.setRing k x).strap = s.strap := rfl
@[simp] theorem State.setRing_regs (k : Nat) (x : Ring) : (s.setRing k x).regs = s.regs := rfl
@[simp] theorem State.setRing_clk (k : Nat) (x : Ring) : (s.setRing k x).clk = s.clk := rfl
@[simp] theorem State.setRing_boot (k : Nat) (x : Ring) : (s.setRing k x).boot = s.boot := rfl
@[simp] theorem State.setRing_chain (k : Nat) (x : Ring) : (s.setRing k x).chain = s.chain := rfl
@[simp] theorem State.setRing_tb (k : Nat) (x : Ring) : (s.setRing k x).tb = s.tb := rfl
@[simp] theorem State.setRing_hinge (k : Nat) (x : Ring) : (s.setRing k x).hinge = s.hinge := rfl
@[simp] theorem State.setRing_link (k : Nat) (x : Ring) : (s.setRing k x).link = s.link := rfl
@[simp] theorem State.setRing_power (k : Nat) (x : Ring) : (s.setRing k x).power = s.power := rfl
@[simp] theorem State.setRing_flash (k : Nat) (x : Ring) : (s.setRing k x).flash = s.flash := rfl
@[simp] theorem State.setRing_almanac (k : Nat) (x : Ring) : (s.setRing k x).almanac = s.almanac := rfl
@[simp] theorem State.setRing_pins (k : Nat) (x : Ring) : (s.setRing k x).pins = s.pins := rfl
@[simp] theorem State.setRing_ports (k : Nat) (x : Ring) : (s.setRing k x).ports = s.ports := rfl
@[simp] theorem State.setRing_groups (k : Nat) (x : Ring) : (s.setRing k x).groups = s.groups := rfl
@[simp] theorem State.setRing_mons (k : Nat) (x : Ring) : (s.setRing k x).mons = s.mons := rfl
@[simp] theorem State.setRing_cus (k : Nat) (x : Ring) : (s.setRing k x).cus = s.cus := rfl
@[simp] theorem State.setRing_auxs (k : Nat) (x : Ring) : (s.setRing k x).auxs = s.auxs := rfl
@[simp] theorem State.setRing_octs (k : Nat) (x : Ring) : (s.setRing k x).octs = s.octs := rfl
@[simp] theorem State.setRing_srcs (k : Nat) (x : Ring) : (s.setRing k x).srcs = s.srcs := rfl
@[simp] theorem State.setRing_tgts (k : Nat) (x : Ring) : (s.setRing k x).tgts = s.tgts := rfl
@[simp] theorem State.setRing_staging (k : Nat) (x : Ring) : (s.setRing k x).staging = s.staging := rfl
@[simp] theorem State.setRing_stagingLow (k : Nat) (x : Ring) : (s.setRing k x).stagingLow = s.stagingLow := rfl
@[simp] theorem State.setRing_unbuilt (k : Nat) (x : Ring) : (s.setRing k x).unbuilt = s.unbuilt := rfl
@[simp] theorem State.setRing_gated (k : Nat) (x : Ring) : (s.setRing k x).gated = s.gated := rfl
@[simp] theorem State.setRing_gapWaits (k : Nat) (x : Ring) : (s.setRing k x).gapWaits = s.gapWaits := rfl
@[simp] theorem State.setRing_msgs (k : Nat) (x : Ring) : (s.setRing k x).msgs = s.msgs := rfl
@[simp] theorem State.setRing_flushes (k : Nat) (x : Ring) : (s.setRing k x).flushes = s.flushes := rfl
@[simp] theorem State.setRing_flushAt (k : Nat) (x : Ring) : (s.setRing k x).flushAt = s.flushAt := rfl
@[simp] theorem State.setRing_flushDue (k : Nat) (x : Ring) : (s.setRing k x).flushDue = s.flushDue := rfl
@[simp] theorem State.setRing_bulkAt (k : Nat) (x : Ring) : (s.setRing k x).bulkAt = s.bulkAt := rfl
@[simp] theorem State.setRing_segments (k : Nat) (x : Ring) : (s.setRing k x).segments = s.segments := rfl
@[simp] theorem State.setRing_upHead (k : Nat) (x : Ring) : (s.setRing k x).upHead = s.upHead := rfl
@[simp] theorem State.setRing_extents (k : Nat) (x : Ring) : (s.setRing k x).extents = s.extents := rfl
@[simp] theorem State.setRing_nextUid (k : Nat) (x : Ring) : (s.setRing k x).nextUid = s.nextUid := rfl
@[simp] theorem State.setRing_nextOrder (k : Nat) (x : Ring) : (s.setRing k x).nextOrder = s.nextOrder := rfl
@[simp] theorem State.setRing_free (k : Nat) (x : Ring) : (s.setRing k x).free = s.free := rfl
@[simp] theorem State.setRing_out (k : Nat) (x : Ring) : (s.setRing k x).out = s.out := rfl

/-! ### setGroup -/

@[simp] theorem State.setGroup_pending (k : Nat) (x : Group) : (s.setGroup k x).pending = s.pending := rfl
@[simp] theorem State.setGroup_now (k : Nat) (x : Group) : (s.setGroup k x).now = s.now := rfl
@[simp] theorem State.setGroup_c (k : Nat) (x : Group) : (s.setGroup k x).c = s.c := rfl
@[simp] theorem State.setGroup_strap (k : Nat) (x : Group) : (s.setGroup k x).strap = s.strap := rfl
@[simp] theorem State.setGroup_regs (k : Nat) (x : Group) : (s.setGroup k x).regs = s.regs := rfl
@[simp] theorem State.setGroup_clk (k : Nat) (x : Group) : (s.setGroup k x).clk = s.clk := rfl
@[simp] theorem State.setGroup_boot (k : Nat) (x : Group) : (s.setGroup k x).boot = s.boot := rfl
@[simp] theorem State.setGroup_chain (k : Nat) (x : Group) : (s.setGroup k x).chain = s.chain := rfl
@[simp] theorem State.setGroup_tb (k : Nat) (x : Group) : (s.setGroup k x).tb = s.tb := rfl
@[simp] theorem State.setGroup_hinge (k : Nat) (x : Group) : (s.setGroup k x).hinge = s.hinge := rfl
@[simp] theorem State.setGroup_link (k : Nat) (x : Group) : (s.setGroup k x).link = s.link := rfl
@[simp] theorem State.setGroup_power (k : Nat) (x : Group) : (s.setGroup k x).power = s.power := rfl
@[simp] theorem State.setGroup_flash (k : Nat) (x : Group) : (s.setGroup k x).flash = s.flash := rfl
@[simp] theorem State.setGroup_almanac (k : Nat) (x : Group) : (s.setGroup k x).almanac = s.almanac := rfl
@[simp] theorem State.setGroup_pins (k : Nat) (x : Group) : (s.setGroup k x).pins = s.pins := rfl
@[simp] theorem State.setGroup_ports (k : Nat) (x : Group) : (s.setGroup k x).ports = s.ports := rfl
@[simp] theorem State.setGroup_rings (k : Nat) (x : Group) : (s.setGroup k x).rings = s.rings := rfl
@[simp] theorem State.setGroup_mons (k : Nat) (x : Group) : (s.setGroup k x).mons = s.mons := rfl
@[simp] theorem State.setGroup_cus (k : Nat) (x : Group) : (s.setGroup k x).cus = s.cus := rfl
@[simp] theorem State.setGroup_auxs (k : Nat) (x : Group) : (s.setGroup k x).auxs = s.auxs := rfl
@[simp] theorem State.setGroup_octs (k : Nat) (x : Group) : (s.setGroup k x).octs = s.octs := rfl
@[simp] theorem State.setGroup_srcs (k : Nat) (x : Group) : (s.setGroup k x).srcs = s.srcs := rfl
@[simp] theorem State.setGroup_tgts (k : Nat) (x : Group) : (s.setGroup k x).tgts = s.tgts := rfl
@[simp] theorem State.setGroup_staging (k : Nat) (x : Group) : (s.setGroup k x).staging = s.staging := rfl
@[simp] theorem State.setGroup_stagingLow (k : Nat) (x : Group) : (s.setGroup k x).stagingLow = s.stagingLow := rfl
@[simp] theorem State.setGroup_unbuilt (k : Nat) (x : Group) : (s.setGroup k x).unbuilt = s.unbuilt := rfl
@[simp] theorem State.setGroup_gated (k : Nat) (x : Group) : (s.setGroup k x).gated = s.gated := rfl
@[simp] theorem State.setGroup_gapWaits (k : Nat) (x : Group) : (s.setGroup k x).gapWaits = s.gapWaits := rfl
@[simp] theorem State.setGroup_msgs (k : Nat) (x : Group) : (s.setGroup k x).msgs = s.msgs := rfl
@[simp] theorem State.setGroup_flushes (k : Nat) (x : Group) : (s.setGroup k x).flushes = s.flushes := rfl
@[simp] theorem State.setGroup_flushAt (k : Nat) (x : Group) : (s.setGroup k x).flushAt = s.flushAt := rfl
@[simp] theorem State.setGroup_flushDue (k : Nat) (x : Group) : (s.setGroup k x).flushDue = s.flushDue := rfl
@[simp] theorem State.setGroup_bulkAt (k : Nat) (x : Group) : (s.setGroup k x).bulkAt = s.bulkAt := rfl
@[simp] theorem State.setGroup_segments (k : Nat) (x : Group) : (s.setGroup k x).segments = s.segments := rfl
@[simp] theorem State.setGroup_upHead (k : Nat) (x : Group) : (s.setGroup k x).upHead = s.upHead := rfl
@[simp] theorem State.setGroup_extents (k : Nat) (x : Group) : (s.setGroup k x).extents = s.extents := rfl
@[simp] theorem State.setGroup_nextUid (k : Nat) (x : Group) : (s.setGroup k x).nextUid = s.nextUid := rfl
@[simp] theorem State.setGroup_nextOrder (k : Nat) (x : Group) : (s.setGroup k x).nextOrder = s.nextOrder := rfl
@[simp] theorem State.setGroup_free (k : Nat) (x : Group) : (s.setGroup k x).free = s.free := rfl
@[simp] theorem State.setGroup_out (k : Nat) (x : Group) : (s.setGroup k x).out = s.out := rfl

/-! ### setMon -/

@[simp] theorem State.setMon_pending (k : Nat) (x : Monitor) : (s.setMon k x).pending = s.pending := rfl
@[simp] theorem State.setMon_now (k : Nat) (x : Monitor) : (s.setMon k x).now = s.now := rfl
@[simp] theorem State.setMon_c (k : Nat) (x : Monitor) : (s.setMon k x).c = s.c := rfl
@[simp] theorem State.setMon_strap (k : Nat) (x : Monitor) : (s.setMon k x).strap = s.strap := rfl
@[simp] theorem State.setMon_regs (k : Nat) (x : Monitor) : (s.setMon k x).regs = s.regs := rfl
@[simp] theorem State.setMon_clk (k : Nat) (x : Monitor) : (s.setMon k x).clk = s.clk := rfl
@[simp] theorem State.setMon_boot (k : Nat) (x : Monitor) : (s.setMon k x).boot = s.boot := rfl
@[simp] theorem State.setMon_chain (k : Nat) (x : Monitor) : (s.setMon k x).chain = s.chain := rfl
@[simp] theorem State.setMon_tb (k : Nat) (x : Monitor) : (s.setMon k x).tb = s.tb := rfl
@[simp] theorem State.setMon_hinge (k : Nat) (x : Monitor) : (s.setMon k x).hinge = s.hinge := rfl
@[simp] theorem State.setMon_link (k : Nat) (x : Monitor) : (s.setMon k x).link = s.link := rfl
@[simp] theorem State.setMon_power (k : Nat) (x : Monitor) : (s.setMon k x).power = s.power := rfl
@[simp] theorem State.setMon_flash (k : Nat) (x : Monitor) : (s.setMon k x).flash = s.flash := rfl
@[simp] theorem State.setMon_almanac (k : Nat) (x : Monitor) : (s.setMon k x).almanac = s.almanac := rfl
@[simp] theorem State.setMon_pins (k : Nat) (x : Monitor) : (s.setMon k x).pins = s.pins := rfl
@[simp] theorem State.setMon_ports (k : Nat) (x : Monitor) : (s.setMon k x).ports = s.ports := rfl
@[simp] theorem State.setMon_rings (k : Nat) (x : Monitor) : (s.setMon k x).rings = s.rings := rfl
@[simp] theorem State.setMon_groups (k : Nat) (x : Monitor) : (s.setMon k x).groups = s.groups := rfl
@[simp] theorem State.setMon_cus (k : Nat) (x : Monitor) : (s.setMon k x).cus = s.cus := rfl
@[simp] theorem State.setMon_auxs (k : Nat) (x : Monitor) : (s.setMon k x).auxs = s.auxs := rfl
@[simp] theorem State.setMon_octs (k : Nat) (x : Monitor) : (s.setMon k x).octs = s.octs := rfl
@[simp] theorem State.setMon_srcs (k : Nat) (x : Monitor) : (s.setMon k x).srcs = s.srcs := rfl
@[simp] theorem State.setMon_tgts (k : Nat) (x : Monitor) : (s.setMon k x).tgts = s.tgts := rfl
@[simp] theorem State.setMon_staging (k : Nat) (x : Monitor) : (s.setMon k x).staging = s.staging := rfl
@[simp] theorem State.setMon_stagingLow (k : Nat) (x : Monitor) : (s.setMon k x).stagingLow = s.stagingLow := rfl
@[simp] theorem State.setMon_unbuilt (k : Nat) (x : Monitor) : (s.setMon k x).unbuilt = s.unbuilt := rfl
@[simp] theorem State.setMon_gated (k : Nat) (x : Monitor) : (s.setMon k x).gated = s.gated := rfl
@[simp] theorem State.setMon_gapWaits (k : Nat) (x : Monitor) : (s.setMon k x).gapWaits = s.gapWaits := rfl
@[simp] theorem State.setMon_msgs (k : Nat) (x : Monitor) : (s.setMon k x).msgs = s.msgs := rfl
@[simp] theorem State.setMon_flushes (k : Nat) (x : Monitor) : (s.setMon k x).flushes = s.flushes := rfl
@[simp] theorem State.setMon_flushAt (k : Nat) (x : Monitor) : (s.setMon k x).flushAt = s.flushAt := rfl
@[simp] theorem State.setMon_flushDue (k : Nat) (x : Monitor) : (s.setMon k x).flushDue = s.flushDue := rfl
@[simp] theorem State.setMon_bulkAt (k : Nat) (x : Monitor) : (s.setMon k x).bulkAt = s.bulkAt := rfl
@[simp] theorem State.setMon_segments (k : Nat) (x : Monitor) : (s.setMon k x).segments = s.segments := rfl
@[simp] theorem State.setMon_upHead (k : Nat) (x : Monitor) : (s.setMon k x).upHead = s.upHead := rfl
@[simp] theorem State.setMon_extents (k : Nat) (x : Monitor) : (s.setMon k x).extents = s.extents := rfl
@[simp] theorem State.setMon_nextUid (k : Nat) (x : Monitor) : (s.setMon k x).nextUid = s.nextUid := rfl
@[simp] theorem State.setMon_nextOrder (k : Nat) (x : Monitor) : (s.setMon k x).nextOrder = s.nextOrder := rfl
@[simp] theorem State.setMon_free (k : Nat) (x : Monitor) : (s.setMon k x).free = s.free := rfl
@[simp] theorem State.setMon_out (k : Nat) (x : Monitor) : (s.setMon k x).out = s.out := rfl

/-! ### setCu -/

@[simp] theorem State.setCu_pending (k : Nat) (x : Cu) : (s.setCu k x).pending = s.pending := rfl
@[simp] theorem State.setCu_now (k : Nat) (x : Cu) : (s.setCu k x).now = s.now := rfl
@[simp] theorem State.setCu_c (k : Nat) (x : Cu) : (s.setCu k x).c = s.c := rfl
@[simp] theorem State.setCu_strap (k : Nat) (x : Cu) : (s.setCu k x).strap = s.strap := rfl
@[simp] theorem State.setCu_regs (k : Nat) (x : Cu) : (s.setCu k x).regs = s.regs := rfl
@[simp] theorem State.setCu_clk (k : Nat) (x : Cu) : (s.setCu k x).clk = s.clk := rfl
@[simp] theorem State.setCu_boot (k : Nat) (x : Cu) : (s.setCu k x).boot = s.boot := rfl
@[simp] theorem State.setCu_chain (k : Nat) (x : Cu) : (s.setCu k x).chain = s.chain := rfl
@[simp] theorem State.setCu_tb (k : Nat) (x : Cu) : (s.setCu k x).tb = s.tb := rfl
@[simp] theorem State.setCu_hinge (k : Nat) (x : Cu) : (s.setCu k x).hinge = s.hinge := rfl
@[simp] theorem State.setCu_link (k : Nat) (x : Cu) : (s.setCu k x).link = s.link := rfl
@[simp] theorem State.setCu_power (k : Nat) (x : Cu) : (s.setCu k x).power = s.power := rfl
@[simp] theorem State.setCu_flash (k : Nat) (x : Cu) : (s.setCu k x).flash = s.flash := rfl
@[simp] theorem State.setCu_almanac (k : Nat) (x : Cu) : (s.setCu k x).almanac = s.almanac := rfl
@[simp] theorem State.setCu_pins (k : Nat) (x : Cu) : (s.setCu k x).pins = s.pins := rfl
@[simp] theorem State.setCu_ports (k : Nat) (x : Cu) : (s.setCu k x).ports = s.ports := rfl
@[simp] theorem State.setCu_rings (k : Nat) (x : Cu) : (s.setCu k x).rings = s.rings := rfl
@[simp] theorem State.setCu_groups (k : Nat) (x : Cu) : (s.setCu k x).groups = s.groups := rfl
@[simp] theorem State.setCu_mons (k : Nat) (x : Cu) : (s.setCu k x).mons = s.mons := rfl
@[simp] theorem State.setCu_auxs (k : Nat) (x : Cu) : (s.setCu k x).auxs = s.auxs := rfl
@[simp] theorem State.setCu_octs (k : Nat) (x : Cu) : (s.setCu k x).octs = s.octs := rfl
@[simp] theorem State.setCu_srcs (k : Nat) (x : Cu) : (s.setCu k x).srcs = s.srcs := rfl
@[simp] theorem State.setCu_tgts (k : Nat) (x : Cu) : (s.setCu k x).tgts = s.tgts := rfl
@[simp] theorem State.setCu_staging (k : Nat) (x : Cu) : (s.setCu k x).staging = s.staging := rfl
@[simp] theorem State.setCu_stagingLow (k : Nat) (x : Cu) : (s.setCu k x).stagingLow = s.stagingLow := rfl
@[simp] theorem State.setCu_unbuilt (k : Nat) (x : Cu) : (s.setCu k x).unbuilt = s.unbuilt := rfl
@[simp] theorem State.setCu_gated (k : Nat) (x : Cu) : (s.setCu k x).gated = s.gated := rfl
@[simp] theorem State.setCu_gapWaits (k : Nat) (x : Cu) : (s.setCu k x).gapWaits = s.gapWaits := rfl
@[simp] theorem State.setCu_msgs (k : Nat) (x : Cu) : (s.setCu k x).msgs = s.msgs := rfl
@[simp] theorem State.setCu_flushes (k : Nat) (x : Cu) : (s.setCu k x).flushes = s.flushes := rfl
@[simp] theorem State.setCu_flushAt (k : Nat) (x : Cu) : (s.setCu k x).flushAt = s.flushAt := rfl
@[simp] theorem State.setCu_flushDue (k : Nat) (x : Cu) : (s.setCu k x).flushDue = s.flushDue := rfl
@[simp] theorem State.setCu_bulkAt (k : Nat) (x : Cu) : (s.setCu k x).bulkAt = s.bulkAt := rfl
@[simp] theorem State.setCu_segments (k : Nat) (x : Cu) : (s.setCu k x).segments = s.segments := rfl
@[simp] theorem State.setCu_upHead (k : Nat) (x : Cu) : (s.setCu k x).upHead = s.upHead := rfl
@[simp] theorem State.setCu_extents (k : Nat) (x : Cu) : (s.setCu k x).extents = s.extents := rfl
@[simp] theorem State.setCu_nextUid (k : Nat) (x : Cu) : (s.setCu k x).nextUid = s.nextUid := rfl
@[simp] theorem State.setCu_nextOrder (k : Nat) (x : Cu) : (s.setCu k x).nextOrder = s.nextOrder := rfl
@[simp] theorem State.setCu_free (k : Nat) (x : Cu) : (s.setCu k x).free = s.free := rfl
@[simp] theorem State.setCu_out (k : Nat) (x : Cu) : (s.setCu k x).out = s.out := rfl

/-! ### setAux -/

@[simp] theorem State.setAux_pending (k : Nat) (x : Aux) : (s.setAux k x).pending = s.pending := rfl
@[simp] theorem State.setAux_now (k : Nat) (x : Aux) : (s.setAux k x).now = s.now := rfl
@[simp] theorem State.setAux_c (k : Nat) (x : Aux) : (s.setAux k x).c = s.c := rfl
@[simp] theorem State.setAux_strap (k : Nat) (x : Aux) : (s.setAux k x).strap = s.strap := rfl
@[simp] theorem State.setAux_regs (k : Nat) (x : Aux) : (s.setAux k x).regs = s.regs := rfl
@[simp] theorem State.setAux_clk (k : Nat) (x : Aux) : (s.setAux k x).clk = s.clk := rfl
@[simp] theorem State.setAux_boot (k : Nat) (x : Aux) : (s.setAux k x).boot = s.boot := rfl
@[simp] theorem State.setAux_chain (k : Nat) (x : Aux) : (s.setAux k x).chain = s.chain := rfl
@[simp] theorem State.setAux_tb (k : Nat) (x : Aux) : (s.setAux k x).tb = s.tb := rfl
@[simp] theorem State.setAux_hinge (k : Nat) (x : Aux) : (s.setAux k x).hinge = s.hinge := rfl
@[simp] theorem State.setAux_link (k : Nat) (x : Aux) : (s.setAux k x).link = s.link := rfl
@[simp] theorem State.setAux_power (k : Nat) (x : Aux) : (s.setAux k x).power = s.power := rfl
@[simp] theorem State.setAux_flash (k : Nat) (x : Aux) : (s.setAux k x).flash = s.flash := rfl
@[simp] theorem State.setAux_almanac (k : Nat) (x : Aux) : (s.setAux k x).almanac = s.almanac := rfl
@[simp] theorem State.setAux_pins (k : Nat) (x : Aux) : (s.setAux k x).pins = s.pins := rfl
@[simp] theorem State.setAux_ports (k : Nat) (x : Aux) : (s.setAux k x).ports = s.ports := rfl
@[simp] theorem State.setAux_rings (k : Nat) (x : Aux) : (s.setAux k x).rings = s.rings := rfl
@[simp] theorem State.setAux_groups (k : Nat) (x : Aux) : (s.setAux k x).groups = s.groups := rfl
@[simp] theorem State.setAux_mons (k : Nat) (x : Aux) : (s.setAux k x).mons = s.mons := rfl
@[simp] theorem State.setAux_cus (k : Nat) (x : Aux) : (s.setAux k x).cus = s.cus := rfl
@[simp] theorem State.setAux_octs (k : Nat) (x : Aux) : (s.setAux k x).octs = s.octs := rfl
@[simp] theorem State.setAux_srcs (k : Nat) (x : Aux) : (s.setAux k x).srcs = s.srcs := rfl
@[simp] theorem State.setAux_tgts (k : Nat) (x : Aux) : (s.setAux k x).tgts = s.tgts := rfl
@[simp] theorem State.setAux_staging (k : Nat) (x : Aux) : (s.setAux k x).staging = s.staging := rfl
@[simp] theorem State.setAux_stagingLow (k : Nat) (x : Aux) : (s.setAux k x).stagingLow = s.stagingLow := rfl
@[simp] theorem State.setAux_unbuilt (k : Nat) (x : Aux) : (s.setAux k x).unbuilt = s.unbuilt := rfl
@[simp] theorem State.setAux_gated (k : Nat) (x : Aux) : (s.setAux k x).gated = s.gated := rfl
@[simp] theorem State.setAux_gapWaits (k : Nat) (x : Aux) : (s.setAux k x).gapWaits = s.gapWaits := rfl
@[simp] theorem State.setAux_msgs (k : Nat) (x : Aux) : (s.setAux k x).msgs = s.msgs := rfl
@[simp] theorem State.setAux_flushes (k : Nat) (x : Aux) : (s.setAux k x).flushes = s.flushes := rfl
@[simp] theorem State.setAux_flushAt (k : Nat) (x : Aux) : (s.setAux k x).flushAt = s.flushAt := rfl
@[simp] theorem State.setAux_flushDue (k : Nat) (x : Aux) : (s.setAux k x).flushDue = s.flushDue := rfl
@[simp] theorem State.setAux_bulkAt (k : Nat) (x : Aux) : (s.setAux k x).bulkAt = s.bulkAt := rfl
@[simp] theorem State.setAux_segments (k : Nat) (x : Aux) : (s.setAux k x).segments = s.segments := rfl
@[simp] theorem State.setAux_upHead (k : Nat) (x : Aux) : (s.setAux k x).upHead = s.upHead := rfl
@[simp] theorem State.setAux_extents (k : Nat) (x : Aux) : (s.setAux k x).extents = s.extents := rfl
@[simp] theorem State.setAux_nextUid (k : Nat) (x : Aux) : (s.setAux k x).nextUid = s.nextUid := rfl
@[simp] theorem State.setAux_nextOrder (k : Nat) (x : Aux) : (s.setAux k x).nextOrder = s.nextOrder := rfl
@[simp] theorem State.setAux_free (k : Nat) (x : Aux) : (s.setAux k x).free = s.free := rfl
@[simp] theorem State.setAux_out (k : Nat) (x : Aux) : (s.setAux k x).out = s.out := rfl

/-! ### setOct -/

@[simp] theorem State.setOct_pending (k : Nat) (x : Octant) : (s.setOct k x).pending = s.pending := rfl
@[simp] theorem State.setOct_now (k : Nat) (x : Octant) : (s.setOct k x).now = s.now := rfl
@[simp] theorem State.setOct_c (k : Nat) (x : Octant) : (s.setOct k x).c = s.c := rfl
@[simp] theorem State.setOct_strap (k : Nat) (x : Octant) : (s.setOct k x).strap = s.strap := rfl
@[simp] theorem State.setOct_regs (k : Nat) (x : Octant) : (s.setOct k x).regs = s.regs := rfl
@[simp] theorem State.setOct_clk (k : Nat) (x : Octant) : (s.setOct k x).clk = s.clk := rfl
@[simp] theorem State.setOct_boot (k : Nat) (x : Octant) : (s.setOct k x).boot = s.boot := rfl
@[simp] theorem State.setOct_chain (k : Nat) (x : Octant) : (s.setOct k x).chain = s.chain := rfl
@[simp] theorem State.setOct_tb (k : Nat) (x : Octant) : (s.setOct k x).tb = s.tb := rfl
@[simp] theorem State.setOct_hinge (k : Nat) (x : Octant) : (s.setOct k x).hinge = s.hinge := rfl
@[simp] theorem State.setOct_link (k : Nat) (x : Octant) : (s.setOct k x).link = s.link := rfl
@[simp] theorem State.setOct_power (k : Nat) (x : Octant) : (s.setOct k x).power = s.power := rfl
@[simp] theorem State.setOct_flash (k : Nat) (x : Octant) : (s.setOct k x).flash = s.flash := rfl
@[simp] theorem State.setOct_almanac (k : Nat) (x : Octant) : (s.setOct k x).almanac = s.almanac := rfl
@[simp] theorem State.setOct_pins (k : Nat) (x : Octant) : (s.setOct k x).pins = s.pins := rfl
@[simp] theorem State.setOct_ports (k : Nat) (x : Octant) : (s.setOct k x).ports = s.ports := rfl
@[simp] theorem State.setOct_rings (k : Nat) (x : Octant) : (s.setOct k x).rings = s.rings := rfl
@[simp] theorem State.setOct_groups (k : Nat) (x : Octant) : (s.setOct k x).groups = s.groups := rfl
@[simp] theorem State.setOct_mons (k : Nat) (x : Octant) : (s.setOct k x).mons = s.mons := rfl
@[simp] theorem State.setOct_cus (k : Nat) (x : Octant) : (s.setOct k x).cus = s.cus := rfl
@[simp] theorem State.setOct_auxs (k : Nat) (x : Octant) : (s.setOct k x).auxs = s.auxs := rfl
@[simp] theorem State.setOct_srcs (k : Nat) (x : Octant) : (s.setOct k x).srcs = s.srcs := rfl
@[simp] theorem State.setOct_tgts (k : Nat) (x : Octant) : (s.setOct k x).tgts = s.tgts := rfl
@[simp] theorem State.setOct_staging (k : Nat) (x : Octant) : (s.setOct k x).staging = s.staging := rfl
@[simp] theorem State.setOct_stagingLow (k : Nat) (x : Octant) : (s.setOct k x).stagingLow = s.stagingLow := rfl
@[simp] theorem State.setOct_unbuilt (k : Nat) (x : Octant) : (s.setOct k x).unbuilt = s.unbuilt := rfl
@[simp] theorem State.setOct_gated (k : Nat) (x : Octant) : (s.setOct k x).gated = s.gated := rfl
@[simp] theorem State.setOct_gapWaits (k : Nat) (x : Octant) : (s.setOct k x).gapWaits = s.gapWaits := rfl
@[simp] theorem State.setOct_msgs (k : Nat) (x : Octant) : (s.setOct k x).msgs = s.msgs := rfl
@[simp] theorem State.setOct_flushes (k : Nat) (x : Octant) : (s.setOct k x).flushes = s.flushes := rfl
@[simp] theorem State.setOct_flushAt (k : Nat) (x : Octant) : (s.setOct k x).flushAt = s.flushAt := rfl
@[simp] theorem State.setOct_flushDue (k : Nat) (x : Octant) : (s.setOct k x).flushDue = s.flushDue := rfl
@[simp] theorem State.setOct_bulkAt (k : Nat) (x : Octant) : (s.setOct k x).bulkAt = s.bulkAt := rfl
@[simp] theorem State.setOct_segments (k : Nat) (x : Octant) : (s.setOct k x).segments = s.segments := rfl
@[simp] theorem State.setOct_upHead (k : Nat) (x : Octant) : (s.setOct k x).upHead = s.upHead := rfl
@[simp] theorem State.setOct_extents (k : Nat) (x : Octant) : (s.setOct k x).extents = s.extents := rfl
@[simp] theorem State.setOct_nextUid (k : Nat) (x : Octant) : (s.setOct k x).nextUid = s.nextUid := rfl
@[simp] theorem State.setOct_nextOrder (k : Nat) (x : Octant) : (s.setOct k x).nextOrder = s.nextOrder := rfl
@[simp] theorem State.setOct_free (k : Nat) (x : Octant) : (s.setOct k x).free = s.free := rfl
@[simp] theorem State.setOct_out (k : Nat) (x : Octant) : (s.setOct k x).out = s.out := rfl

/-! ### setSrc -/

@[simp] theorem State.setSrc_pending (k : Nat) (x : Src) : (s.setSrc k x).pending = s.pending := rfl
@[simp] theorem State.setSrc_now (k : Nat) (x : Src) : (s.setSrc k x).now = s.now := rfl
@[simp] theorem State.setSrc_c (k : Nat) (x : Src) : (s.setSrc k x).c = s.c := rfl
@[simp] theorem State.setSrc_strap (k : Nat) (x : Src) : (s.setSrc k x).strap = s.strap := rfl
@[simp] theorem State.setSrc_regs (k : Nat) (x : Src) : (s.setSrc k x).regs = s.regs := rfl
@[simp] theorem State.setSrc_clk (k : Nat) (x : Src) : (s.setSrc k x).clk = s.clk := rfl
@[simp] theorem State.setSrc_boot (k : Nat) (x : Src) : (s.setSrc k x).boot = s.boot := rfl
@[simp] theorem State.setSrc_chain (k : Nat) (x : Src) : (s.setSrc k x).chain = s.chain := rfl
@[simp] theorem State.setSrc_tb (k : Nat) (x : Src) : (s.setSrc k x).tb = s.tb := rfl
@[simp] theorem State.setSrc_hinge (k : Nat) (x : Src) : (s.setSrc k x).hinge = s.hinge := rfl
@[simp] theorem State.setSrc_link (k : Nat) (x : Src) : (s.setSrc k x).link = s.link := rfl
@[simp] theorem State.setSrc_power (k : Nat) (x : Src) : (s.setSrc k x).power = s.power := rfl
@[simp] theorem State.setSrc_flash (k : Nat) (x : Src) : (s.setSrc k x).flash = s.flash := rfl
@[simp] theorem State.setSrc_almanac (k : Nat) (x : Src) : (s.setSrc k x).almanac = s.almanac := rfl
@[simp] theorem State.setSrc_pins (k : Nat) (x : Src) : (s.setSrc k x).pins = s.pins := rfl
@[simp] theorem State.setSrc_ports (k : Nat) (x : Src) : (s.setSrc k x).ports = s.ports := rfl
@[simp] theorem State.setSrc_rings (k : Nat) (x : Src) : (s.setSrc k x).rings = s.rings := rfl
@[simp] theorem State.setSrc_groups (k : Nat) (x : Src) : (s.setSrc k x).groups = s.groups := rfl
@[simp] theorem State.setSrc_mons (k : Nat) (x : Src) : (s.setSrc k x).mons = s.mons := rfl
@[simp] theorem State.setSrc_cus (k : Nat) (x : Src) : (s.setSrc k x).cus = s.cus := rfl
@[simp] theorem State.setSrc_auxs (k : Nat) (x : Src) : (s.setSrc k x).auxs = s.auxs := rfl
@[simp] theorem State.setSrc_octs (k : Nat) (x : Src) : (s.setSrc k x).octs = s.octs := rfl
@[simp] theorem State.setSrc_tgts (k : Nat) (x : Src) : (s.setSrc k x).tgts = s.tgts := rfl
@[simp] theorem State.setSrc_staging (k : Nat) (x : Src) : (s.setSrc k x).staging = s.staging := rfl
@[simp] theorem State.setSrc_stagingLow (k : Nat) (x : Src) : (s.setSrc k x).stagingLow = s.stagingLow := rfl
@[simp] theorem State.setSrc_unbuilt (k : Nat) (x : Src) : (s.setSrc k x).unbuilt = s.unbuilt := rfl
@[simp] theorem State.setSrc_gated (k : Nat) (x : Src) : (s.setSrc k x).gated = s.gated := rfl
@[simp] theorem State.setSrc_gapWaits (k : Nat) (x : Src) : (s.setSrc k x).gapWaits = s.gapWaits := rfl
@[simp] theorem State.setSrc_msgs (k : Nat) (x : Src) : (s.setSrc k x).msgs = s.msgs := rfl
@[simp] theorem State.setSrc_flushes (k : Nat) (x : Src) : (s.setSrc k x).flushes = s.flushes := rfl
@[simp] theorem State.setSrc_flushAt (k : Nat) (x : Src) : (s.setSrc k x).flushAt = s.flushAt := rfl
@[simp] theorem State.setSrc_flushDue (k : Nat) (x : Src) : (s.setSrc k x).flushDue = s.flushDue := rfl
@[simp] theorem State.setSrc_bulkAt (k : Nat) (x : Src) : (s.setSrc k x).bulkAt = s.bulkAt := rfl
@[simp] theorem State.setSrc_segments (k : Nat) (x : Src) : (s.setSrc k x).segments = s.segments := rfl
@[simp] theorem State.setSrc_upHead (k : Nat) (x : Src) : (s.setSrc k x).upHead = s.upHead := rfl
@[simp] theorem State.setSrc_extents (k : Nat) (x : Src) : (s.setSrc k x).extents = s.extents := rfl
@[simp] theorem State.setSrc_nextUid (k : Nat) (x : Src) : (s.setSrc k x).nextUid = s.nextUid := rfl
@[simp] theorem State.setSrc_nextOrder (k : Nat) (x : Src) : (s.setSrc k x).nextOrder = s.nextOrder := rfl
@[simp] theorem State.setSrc_free (k : Nat) (x : Src) : (s.setSrc k x).free = s.free := rfl
@[simp] theorem State.setSrc_out (k : Nat) (x : Src) : (s.setSrc k x).out = s.out := rfl

/-! ### setTgt -/

@[simp] theorem State.setTgt_pending (k : Nat) (x : Tgt) : (s.setTgt k x).pending = s.pending := rfl
@[simp] theorem State.setTgt_now (k : Nat) (x : Tgt) : (s.setTgt k x).now = s.now := rfl
@[simp] theorem State.setTgt_c (k : Nat) (x : Tgt) : (s.setTgt k x).c = s.c := rfl
@[simp] theorem State.setTgt_strap (k : Nat) (x : Tgt) : (s.setTgt k x).strap = s.strap := rfl
@[simp] theorem State.setTgt_regs (k : Nat) (x : Tgt) : (s.setTgt k x).regs = s.regs := rfl
@[simp] theorem State.setTgt_clk (k : Nat) (x : Tgt) : (s.setTgt k x).clk = s.clk := rfl
@[simp] theorem State.setTgt_boot (k : Nat) (x : Tgt) : (s.setTgt k x).boot = s.boot := rfl
@[simp] theorem State.setTgt_chain (k : Nat) (x : Tgt) : (s.setTgt k x).chain = s.chain := rfl
@[simp] theorem State.setTgt_tb (k : Nat) (x : Tgt) : (s.setTgt k x).tb = s.tb := rfl
@[simp] theorem State.setTgt_hinge (k : Nat) (x : Tgt) : (s.setTgt k x).hinge = s.hinge := rfl
@[simp] theorem State.setTgt_link (k : Nat) (x : Tgt) : (s.setTgt k x).link = s.link := rfl
@[simp] theorem State.setTgt_power (k : Nat) (x : Tgt) : (s.setTgt k x).power = s.power := rfl
@[simp] theorem State.setTgt_flash (k : Nat) (x : Tgt) : (s.setTgt k x).flash = s.flash := rfl
@[simp] theorem State.setTgt_almanac (k : Nat) (x : Tgt) : (s.setTgt k x).almanac = s.almanac := rfl
@[simp] theorem State.setTgt_pins (k : Nat) (x : Tgt) : (s.setTgt k x).pins = s.pins := rfl
@[simp] theorem State.setTgt_ports (k : Nat) (x : Tgt) : (s.setTgt k x).ports = s.ports := rfl
@[simp] theorem State.setTgt_rings (k : Nat) (x : Tgt) : (s.setTgt k x).rings = s.rings := rfl
@[simp] theorem State.setTgt_groups (k : Nat) (x : Tgt) : (s.setTgt k x).groups = s.groups := rfl
@[simp] theorem State.setTgt_mons (k : Nat) (x : Tgt) : (s.setTgt k x).mons = s.mons := rfl
@[simp] theorem State.setTgt_cus (k : Nat) (x : Tgt) : (s.setTgt k x).cus = s.cus := rfl
@[simp] theorem State.setTgt_auxs (k : Nat) (x : Tgt) : (s.setTgt k x).auxs = s.auxs := rfl
@[simp] theorem State.setTgt_octs (k : Nat) (x : Tgt) : (s.setTgt k x).octs = s.octs := rfl
@[simp] theorem State.setTgt_srcs (k : Nat) (x : Tgt) : (s.setTgt k x).srcs = s.srcs := rfl
@[simp] theorem State.setTgt_staging (k : Nat) (x : Tgt) : (s.setTgt k x).staging = s.staging := rfl
@[simp] theorem State.setTgt_stagingLow (k : Nat) (x : Tgt) : (s.setTgt k x).stagingLow = s.stagingLow := rfl
@[simp] theorem State.setTgt_unbuilt (k : Nat) (x : Tgt) : (s.setTgt k x).unbuilt = s.unbuilt := rfl
@[simp] theorem State.setTgt_gated (k : Nat) (x : Tgt) : (s.setTgt k x).gated = s.gated := rfl
@[simp] theorem State.setTgt_gapWaits (k : Nat) (x : Tgt) : (s.setTgt k x).gapWaits = s.gapWaits := rfl
@[simp] theorem State.setTgt_msgs (k : Nat) (x : Tgt) : (s.setTgt k x).msgs = s.msgs := rfl
@[simp] theorem State.setTgt_flushes (k : Nat) (x : Tgt) : (s.setTgt k x).flushes = s.flushes := rfl
@[simp] theorem State.setTgt_flushAt (k : Nat) (x : Tgt) : (s.setTgt k x).flushAt = s.flushAt := rfl
@[simp] theorem State.setTgt_flushDue (k : Nat) (x : Tgt) : (s.setTgt k x).flushDue = s.flushDue := rfl
@[simp] theorem State.setTgt_bulkAt (k : Nat) (x : Tgt) : (s.setTgt k x).bulkAt = s.bulkAt := rfl
@[simp] theorem State.setTgt_segments (k : Nat) (x : Tgt) : (s.setTgt k x).segments = s.segments := rfl
@[simp] theorem State.setTgt_upHead (k : Nat) (x : Tgt) : (s.setTgt k x).upHead = s.upHead := rfl
@[simp] theorem State.setTgt_extents (k : Nat) (x : Tgt) : (s.setTgt k x).extents = s.extents := rfl
@[simp] theorem State.setTgt_nextUid (k : Nat) (x : Tgt) : (s.setTgt k x).nextUid = s.nextUid := rfl
@[simp] theorem State.setTgt_nextOrder (k : Nat) (x : Tgt) : (s.setTgt k x).nextOrder = s.nextOrder := rfl
@[simp] theorem State.setTgt_free (k : Nat) (x : Tgt) : (s.setTgt k x).free = s.free := rfl
@[simp] theorem State.setTgt_out (k : Nat) (x : Tgt) : (s.setTgt k x).out = s.out := rfl

/-! ### Updates said through the ones above -/

@[simp] theorem State.modPin_eq (k : Nat) (f : Pin → Pin) : s.modPin k f = s.setPin k (f (s.pin k)) := rfl
@[simp] theorem State.modPort_eq (k : Nat) (f : Port → Port) : s.modPort k f = s.setPort k (f (s.port k)) := rfl
@[simp] theorem State.modRing_eq (k : Nat) (f : Ring → Ring) : s.modRing k f = s.setRing k (f (s.ring k)) := rfl
@[simp] theorem State.modGroup_eq (k : Nat) (f : Group → Group) : s.modGroup k f = s.setGroup k (f (s.group k)) := rfl
@[simp] theorem State.modMon_eq (k : Nat) (f : Monitor → Monitor) : s.modMon k f = s.setMon k (f (s.mon k)) := rfl
@[simp] theorem State.modCu_eq (k : Nat) (f : Cu → Cu) : s.modCu k f = s.setCu k (f (s.cu k)) := rfl
@[simp] theorem State.modAux_eq (k : Nat) (f : Aux → Aux) : s.modAux k f = s.setAux k (f (s.aux k)) := rfl
@[simp] theorem State.modOct_eq (k : Nat) (f : Octant → Octant) : s.modOct k f = s.setOct k (f (s.oct k)) := rfl
@[simp] theorem State.modSrc_eq (k : Nat) (f : Src → Src) : s.modSrc k f = s.setSrc k (f (s.src k)) := rfl
@[simp] theorem State.modTgt_eq (k : Nat) (f : Tgt → Tgt) : s.modTgt k f = s.setTgt k (f (s.tgt k)) := rfl
@[simp] theorem State.wrBit_eq (f : Fld) (b : Bool) (i : Nat) : s.wrBit f b i = s.wr f (if b then 1 else 0) i := rfl
@[simp] theorem State.incSat_eq (f : Fld) (i n : Nat) :
    s.incSat f i n = s.wr f (min (s.rd f i + n) (2 ^ f.width - 1)) i := rfl
@[simp] theorem State.incWrap_eq (f : Fld) (i n : Nat) : s.incWrap f i n = s.wr f (s.rd f i + n) i := rfl
@[simp] theorem State.emit_out (o : Out) : (s.emit o).out = s.out ++ [o] := rfl

/-! ### Parts read what was stored to them -/

@[simp] theorem State.pin_setPin_self (k : Nat) (x : Pin) : (s.setPin k x).pin k = x :=
  Sparse.get_put_self _ _ _ _
theorem State.pin_setPin_other (k j : Nat) (x : Pin) (h : j ≠ k) : (s.setPin k x).pin j = s.pin j :=
  Sparse.get_put_other _ _ _ _ _ h
@[simp] theorem State.port_setPort_self (k : Nat) (x : Port) : (s.setPort k x).port k = x :=
  Sparse.get_put_self _ _ _ _
theorem State.port_setPort_other (k j : Nat) (x : Port) (h : j ≠ k) : (s.setPort k x).port j = s.port j :=
  Sparse.get_put_other _ _ _ _ _ h
@[simp] theorem State.ring_setRing_self (k : Nat) (x : Ring) : (s.setRing k x).ring k = x :=
  Sparse.get_put_self _ _ _ _
theorem State.ring_setRing_other (k j : Nat) (x : Ring) (h : j ≠ k) : (s.setRing k x).ring j = s.ring j :=
  Sparse.get_put_other _ _ _ _ _ h
@[simp] theorem State.group_setGroup_self (k : Nat) (x : Group) : (s.setGroup k x).group k = x :=
  Sparse.get_put_self _ _ _ _
theorem State.group_setGroup_other (k j : Nat) (x : Group) (h : j ≠ k) : (s.setGroup k x).group j = s.group j :=
  Sparse.get_put_other _ _ _ _ _ h
@[simp] theorem State.mon_setMon_self (k : Nat) (x : Monitor) : (s.setMon k x).mon k = x :=
  Sparse.get_put_self _ _ _ _
theorem State.mon_setMon_other (k j : Nat) (x : Monitor) (h : j ≠ k) : (s.setMon k x).mon j = s.mon j :=
  Sparse.get_put_other _ _ _ _ _ h
@[simp] theorem State.cu_setCu_self (k : Nat) (x : Cu) : (s.setCu k x).cu k = x :=
  Sparse.get_put_self _ _ _ _
theorem State.cu_setCu_other (k j : Nat) (x : Cu) (h : j ≠ k) : (s.setCu k x).cu j = s.cu j :=
  Sparse.get_put_other _ _ _ _ _ h
@[simp] theorem State.aux_setAux_self (k : Nat) (x : Aux) : (s.setAux k x).aux k = x :=
  Sparse.get_put_self _ _ _ _
theorem State.aux_setAux_other (k j : Nat) (x : Aux) (h : j ≠ k) : (s.setAux k x).aux j = s.aux j :=
  Sparse.get_put_other _ _ _ _ _ h
@[simp] theorem State.oct_setOct_self (k : Nat) (x : Octant) : (s.setOct k x).oct k = x :=
  Sparse.get_put_self _ _ _ _
theorem State.oct_setOct_other (k j : Nat) (x : Octant) (h : j ≠ k) : (s.setOct k x).oct j = s.oct j :=
  Sparse.get_put_other _ _ _ _ _ h
@[simp] theorem State.src_setSrc_self (k : Nat) (x : Src) : (s.setSrc k x).src k = x :=
  Sparse.get_put_self _ _ _ _
theorem State.src_setSrc_other (k j : Nat) (x : Src) (h : j ≠ k) : (s.setSrc k x).src j = s.src j :=
  Sparse.get_put_other _ _ _ _ _ h
@[simp] theorem State.tgt_setTgt_self (k : Nat) (x : Tgt) : (s.setTgt k x).tgt k = x :=
  Sparse.get_put_self _ _ _ _
theorem State.tgt_setTgt_other (k j : Nat) (x : Tgt) (h : j ≠ k) : (s.setTgt k x).tgt j = s.tgt j :=
  Sparse.get_put_other _ _ _ _ _ h

/-! ### Registers -/

@[simp] theorem State.reg_setReg_self (i w : Nat) (v : Word) : (s.setReg i w v).reg i w = v :=
  Sparse.get_put_self _ _ _ _

theorem State.reg_setReg_other (i w j u : Nat) (v : Word) (h : j * 4096 + u ≠ i * 4096 + w) :
    (s.setReg i w v).reg j u = s.reg j u :=
  Sparse.get_put_other _ _ _ _ _ h

/-- A store to another word of the map leaves a word of any instance alone. -/
theorem State.reg_setReg_word (i w j u : Nat) (v : Word) (hw : w < 4096) (hu : u < 4096) (h : u ≠ w) :
    (s.setReg i w v).reg j u = s.reg j u :=
  s.reg_setReg_other i w j u v (by omega)

/-- A store to another place of the same word leaves it alone. -/
theorem State.reg_setReg_inst (i w j : Nat) (v : Word) (h : j ≠ i) : (s.setReg i w v).reg j w = s.reg j w :=
  s.reg_setReg_other i w j w v (by omega)

theorem State.reg_wr_self (f : Fld) (x i : Nat) : (s.wr f x i).reg i f.word = f.set (s.reg i f.word) x :=
  s.reg_setReg_self _ _ _

theorem State.reg_wr_word (f : Fld) (x i j u : Nat) (hw : f.word < 4096) (hu : u < 4096) (h : u ≠ f.word) :
    (s.wr f x i).reg j u = s.reg j u :=
  s.reg_setReg_word _ _ _ _ _ hw hu h

/-- Reading a register depends on the register file alone. -/
theorem State.reg_congr (t : State) (h : t.regs = s.regs) (i w : Nat) : t.reg i w = s.reg i w := by
  simp [State.reg, h]

theorem State.rd_congr (t : State) (h : t.regs = s.regs) (f : Fld) (i : Nat) : t.rd f i = s.rd f i := by
  simp [State.rd, State.reg, h]

end Sys2Proof.Machine
end

