-- ==== Sys2Proof/Laws/Fields.lean ====
section
/-!
SUPPORT. Laws of register fields: a field reads what was last stored to it, cut to its width; a store to one field leaves the
disjoint fields of its word, every other word and every other place of it alone; the register file stays in canonical form.
-/
namespace Sys2Proof.Machine

/-- A field lies inside its word. -/
abbrev Fld.fits (f : Fld) : Prop := f.lo + f.width ≤ 32

/-- Two fields of one word share no bit. -/
abbrev Fld.apart (f g : Fld) : Prop := f.lo + f.width ≤ g.lo ∨ g.lo + g.width ≤ f.lo

theorem Fld.mask_getLsbD (f : Fld) (h : f.fits) (k : Nat) :
    f.mask.getLsbD k = (decide (f.lo ≤ k) && decide (k < f.lo + f.width)) := by
  unfold Fld.fits at h
  simp only [Fld.mask, BitVec.getLsbD_ofNat, Nat.testBit_mul_two_pow, Nat.testBit_two_pow_sub_one]
  by_cases h1 : f.lo ≤ k <;> by_cases h2 : k < f.lo + f.width <;> simp [h1, h2] <;> omega

theorem Fld.set_getLsbD (f : Fld) (v : Word) (x k : Nat) (h : f.fits) :
    (f.set v x).getLsbD k = if f.lo ≤ k ∧ k < f.lo + f.width then x.testBit (k - f.lo) else v.getLsbD k := by
  have hm := f.mask_getLsbD h k
  unfold Fld.fits at h
  simp only [Fld.set, BitVec.getLsbD_or, BitVec.getLsbD_and, BitVec.getLsbD_not, hm, BitVec.getLsbD_ofNat,
    Nat.testBit_mul_two_pow, Nat.testBit_mod_two_pow]
  by_cases h1 : f.lo ≤ k <;> by_cases h2 : k < f.lo + f.width
  · have : k < 32 := by omega
    have : k - f.lo < f.width := by omega
    simp [*]
  · have : ¬ (k - f.lo < f.width) := by omega
    by_cases h3 : k < 32
    · simp [*]
    · have : v.getLsbD k = false := BitVec.getLsbD_of_ge _ _ (by omega)
      simp [*]
  · have : k < 32 := by omega
    simp [*]
  · have : False := by omega
    exact this.elim

theorem Fld.get_testBit (f : Fld) (v : Word) (k : Nat) :
    (f.get v).testBit k = (decide (k < f.width) && v.getLsbD (f.lo + k)) := by
  simp only [Fld.get, Nat.testBit_mod_two_pow, Nat.testBit_div_two_pow, BitVec.getLsbD, Nat.add_comm k f.lo]

/-- A field reads what was stored to it, cut to its width. -/
theorem Fld.get_set_self (f : Fld) (v : Word) (x : Nat) (h : f.fits) : f.get (f.set v x) = x % 2 ^ f.width := by
  apply Nat.eq_of_testBit_eq
  intro k
  rw [Fld.get_testBit, Fld.set_getLsbD f v x _ h, Nat.testBit_mod_two_pow]
  by_cases hk : k < f.width
  · simp [hk]
  · simp [hk]

/-- A store to one field leaves a disjoint field alone. -/
theorem Fld.get_set_apart (f g : Fld) (v : Word) (x : Nat) (h : g.fits) (a : f.apart g) :
    f.get (g.set v x) = f.get v := by
  apply Nat.eq_of_testBit_eq
  intro k
  rw [Fld.get_testBit, Fld.get_testBit, Fld.set_getLsbD g v x _ h]
  unfold Fld.apart at a
  by_cases hk : k < f.width
  · have : ¬ (g.lo ≤ f.lo + k ∧ f.lo + k < g.lo + g.width) := by omega
    simp [this]
  · simp [hk]

theorem Fld.get_lt (f : Fld) (v : Word) : f.get v < 2 ^ f.width := Nat.mod_lt _ (Nat.two_pow_pos _)

variable (s : State)

/-- A field of an instance reads what was stored to it, cut to its width. -/
theorem State.rd_wr_self (f : Fld) (x i : Nat) (h : f.fits) : (s.wr f x i).rd f i = x % 2 ^ f.width := by
  simp only [State.rd, State.reg_wr_self, Fld.get_set_self f _ x h]

/-- A store to a field of another word leaves a field alone. -/
theorem State.rd_wr_word (f g : Fld) (x i j : Nat) (hg : g.word < 4096) (hf : f.word < 4096) (h : f.word ≠ g.word) :
    (s.wr g x i).rd f j = s.rd f j := by
  simp only [State.rd, s.reg_wr_word g x i j f.word hg hf h]

/-- A store to a disjoint field of the same word leaves a field alone. -/
theorem State.rd_wr_apart (f g : Fld) (x i j : Nat) (hw : f.word = g.word) (h : g.fits) (a : f.apart g) :
    (s.wr g x i).rd f j = s.rd f j := by
  by_cases e : j = i
  · subst e
    simp only [State.rd, hw, State.reg_wr_self, Fld.get_set_apart f g _ x h a]
  · simp only [State.rd, State.wr, hw, s.reg_setReg_inst i g.word j _ e]

/-- A store to one instance leaves a field of another alone. -/
theorem State.rd_wr_inst (f g : Fld) (x i j : Nat) (hg : g.word < 4096) (hf : f.word < 4096) (h : j ≠ i) :
    (s.wr g x i).rd f j = s.rd f j := by
  simp only [State.rd, State.wr]
  rw [s.reg_setReg_other]
  omega

/-! ### The canonical form of the register file -/

theorem State.setReg_wf (i w : Nat) (v : Word) (h : Sparse.wf resetWord s.regs = true) :
    Sparse.wf resetWord (s.setReg i w v).regs = true := Sparse.wf_put _ _ _ _ h

theorem State.wr_wf (f : Fld) (x i : Nat) (h : Sparse.wf resetWord s.regs = true) :
    Sparse.wf resetWord (s.wr f x i).regs = true := s.setReg_wf _ _ _ h

/-- Folding updates that keep the canonical form keeps it. -/
theorem foldl_regs_wf {β : Type} (f : State → β → State)
    (h : ∀ s b, Sparse.wf resetWord s.regs = true → Sparse.wf resetWord (f s b).regs = true) (l : List β) (s : State)
    (w : Sparse.wf resetWord s.regs = true) : Sparse.wf resetWord (l.foldl f s).regs = true := by
  induction l generalizing s with
  | nil => exact w
  | cons a t ih => exact ih (f s a) (h s a w)

end Sys2Proof.Machine
end

