-- ==== Sys2Proof/Laws/Access.lean ====
section
/-!
SUPPORT. What a single chain access does, said once: a response touches the chain part and CH_LASTST alone; an accepted single
write of one instance stores its word, does what follows it and answers OK; a refused one only answers; a read that is not
refused has its effect and answers its value.
-/
namespace Sys2Proof.Machine

/-! ### Responses -/

theorem State.chainDue_eq (s : State) (h : s.chain.lenNext = none) : s.chainDue = s := by
  simp [State.chainDue, h]

theorem State.chainDue_regs (s : State) : s.chainDue.regs = s.regs := by
  unfold State.chainDue
  split
  · split <;> rfl
  · rfl

/-- The chain part after the settings that are due take effect. -/
theorem State.chainDue_chain (s : State) : ∃ c, s.chainDue = { s with chain := c } := by
  unfold State.chainDue
  split
  · split
    · exact ⟨_, rfl⟩
    · exact ⟨s.chain, rfl⟩
  · exact ⟨s.chain, rfl⟩

theorem State.setReg_eq (s : State) (i w : Nat) (v : Word) : ∃ r, s.setReg i w v = { s with regs := r } := ⟨_, rfl⟩

/-- A response touches the chain part and the registers alone. -/
theorem State.respond_eq (s : State) (head : BitVec 64) (c : Code) (data : Word) (more : List Word) (delay : Nat) :
    ∃ x r, s.respond head c data more delay = { s with chain := x, regs := r } := by
  unfold State.respond
  obtain ⟨r, k⟩ := s.setReg_eq 0 0x047 (s.lastWord head c)
  rw [k]
  obtain ⟨x, e⟩ := State.chainDue_chain { s with regs := r }
  dsimp only
  rw [e]
  exact ⟨_, r, rfl⟩

/-- Of the registers, it writes CH_LASTST alone. -/
theorem State.respond_regs (s : State) (head : BitVec 64) (c : Code) (data : Word) (more : List Word) (delay : Nat) :
    (s.respond head c data more delay).regs = (s.setReg 0 0x047 (s.lastWord head c)).regs := by
  unfold State.respond
  generalize s.setReg 0 0x047 (s.lastWord head c) = y
  dsimp only
  exact y.chainDue_regs

theorem State.respond_reg (s : State) (head : BitVec 64) (c : Code) (data : Word) (more : List Word) (delay i w : Nat)
    (h : i * 4096 + w ≠ 0x047) : (s.respond head c data more delay).reg i w = s.reg i w := by
  rw [State.reg_congr _ _ (s.respond_regs head c data more delay)]
  exact s.reg_setReg_other 0 0x047 i w _ (by omega)

theorem State.respond_resp (s : State) (head : BitVec 64) (c : Code) (data : Word) (more : List Word) (delay : Nat) :
    ∃ r, (s.respond head c data more delay).chain.resp = some r ∧ r.status = s.statusByte c ∧ r.data = data ∧
      r.more = more ∧ r.readyAt = s.now + delay := by
  refine ⟨_, rfl, ?_, ?_, ?_, ?_⟩ <;> rfl

/-- The code of a response stands in the low bits of its status. -/
theorem State.statusByte_code (s : State) (c : Code) : (s.statusByte c).truncate 4 = c := by
  unfold State.statusByte
  split <;> (revert c; decide)

theorem State.respond_answers (s : State) (head : BitVec 64) (c : Code) (data : Word) (more : List Word) (delay : Nat) :
    (s.respond head c data more delay).answers c data := by
  obtain ⟨r, h1, h2, h3, _, _⟩ := s.respond_resp head c data more delay
  exact ⟨r, h1, by rw [h2]; exact s.statusByte_code c, h3⟩


/-! ### Single writes -/

theorem writeWords_one (w : Nat) (d : Word) : writeWords w [d] = [(w, d)] := by
  simp [writeWords]

theorem State.slotReady_iff (s : State) : s.slotReady = true ↔
    s.chainOn = true ∧ s.hinge.mirror = none ∧ s.chain.len = 0 ∧ s.chain.lenNext = none := by
  simp [State.slotReady, and_assoc]

theorem Code.andThen_eq_ok (a b : Code) : a.andThen b = Code.ok ↔ a = Code.ok ∧ b = Code.ok := by
  unfold Code.andThen
  split
  · simp [*]
  · simp [*]

theorem Code.unless_eq_ok (b : Bool) (c : Code) (h : c ≠ Code.ok) : Code.unless b c = Code.ok ↔ b = true := by
  unfold Code.unless
  cases b <;> simp [h]

/-- What a single write that passes its checks says of its word (R318). -/
theorem State.checkWrite_one (s : State) (w : Nat) (d : Word) (h : s.checkWrite w [d] true = none) :
    s.notReady w d = false ∧ w < 0x1000 ∧ implemented w = true ∧ s.writable w ≠ [] ∧ d &&& ~~~ fieldMask w = 0 ∧
    (∀ i ∈ s.writable w, valueOk s (s.selAll w) i w d = true) ∧
    (s.storeWord 0 w d).1.crossFault (s.storeWord 0 w d).2 = none ∧ s.wordState w d = Code.ok := by
  unfold State.checkWrite at h
  rw [writeWords_one] at h
  simp only [List.findIdx?_cons, List.findIdx?_nil] at h
  by_cases hn : s.notReady w d = true
  · simp [hn] at h
  simp only [hn, Bool.false_eq_true, if_false, Option.map_none, List.length_singleton] at h
  by_cases hr : 0x1000 < w + 1
  · simp [hr] at h
  simp only [hr, if_false, State.validate, State.checkFrom] at h
  split at h
  · cases h
  rename_i he
  split at he
  · rename_i hc
    rw [Code.andThen_eq_ok, Code.andThen_eq_ok, Code.unless_eq_ok _ _ (by decide)] at hc
    obtain ⟨h1, h2, h3⟩ := hc
    unfold State.valueCode at h1
    by_cases hi : implemented w = true
    · simp only [hi, Bool.not_true, Bool.false_eq_true, if_false] at h1
      split at h1
      · exact absurd h1 (by decide)
      · rename_i ha
        rw [Code.unless_eq_ok _ _ (by decide), Bool.and_eq_true, beq_iff_eq, List.all_eq_true] at h1
        refine ⟨by simpa using hn, by omega, hi, ?_, h1.1, h1.2, by simpa using h2, h3⟩
        intro e
        apply ha
        rw [List.all_eq_true]
        intro i m
        by_cases k : s.readOnly i w = true
        · exact k
        · have : i ∈ s.writable w := by
            simp only [State.writable, hi, if_true, List.mem_filter]
            exact ⟨m, by simp [k]⟩
          rw [e] at this
          cases this
    · simp only [hi, Bool.not_false, if_true] at h1
      exact absurd h1 (by decide)
  · cases he

/-- A slot that a row names is executed when the chain executes one of one word now. -/
theorem State.slotAlone_runs (s : State) (h : s.slotReady = true) (run : State → State) : s.slotAlone run = run s := by
  rw [State.slotReady_iff] at h
  obtain ⟨h1, h2, h3, h4⟩ := h
  simp [State.slotAlone, h1, State.chainBusy, h2, State.ownFrame, h4]

/-- An accepted single write is applied and answered OK (R318, R320, R322). -/
theorem State.writeBits_takes (s : State) (w : BitVec 12) (d : Word) (bits : List Bool) (h : s.takesWrite w.toNat d = true) :
    s.writeBits w d bits = (s.applyWrite [(w.toNat, d)] bits).answerWrite (slotHead 2 w d) true w.toNat
      (accessTime true w.toNat 1 true) := by
  unfold State.takesWrite at h
  rw [Bool.and_eq_true, Bool.and_eq_true, State.slotReady_iff] at h
  obtain ⟨⟨⟨h1, h2, h3, h4⟩, h5⟩, h6⟩ := h
  have h5 : s.checkWrite w.toNat [d] true = none := by simpa using h5
  unfold State.writeBits
  rw [s.slotAlone_runs (s.slotReady_iff.mpr ⟨h1, h2, h3, h4⟩)]
  unfold State.runWrite
  simp only [h3, State.chainDue_eq s h4, writeWords_one, h5, List.findIdx?_cons,
    List.findIdx?_nil, List.length_singleton, beq_self_eq_true, Bool.and_self]
  by_cases hm : mirroredWrite w.toNat d = true
  · have h6 : s.hinge.state ≠ .engaged ∧ s.hinge.state ≠ .degraded := by simpa [hm] using h6
    simp [hm, h6.1, h6.2]
  · simp [hm]

theorem State.writeWord_takes (s : State) (w : BitVec 12) (d : Word) (h : s.takesWrite w.toNat d = true) :
    s.writeWord w d = (s.applyWrite [(w.toNat, d)] []).answerWrite (slotHead 2 w d) true w.toNat
      (accessTime true w.toNat 1 true) := s.writeBits_takes w d [] h

/-- An accepted single write of one instance: the word is stored, what follows it happens, then its actions. -/
theorem State.applyWrite_one (s : State) (w : Nat) (d : Word) (h : s.checkWrite w [d] true = none)
    (hs : s.selAll w = false) (bits : List Bool) :
    s.applyWrite [(w, d)] bits = (s.setReg (s.selOf w) w (mergeWord s (s.selOf w) w d)).takeEffect
      [⟨0, s.selOf w, w, d, s.reg (s.selOf w) w⟩] bits := by
  obtain ⟨_, _, hi, hw, _⟩ := s.checkWrite_one w d h
  have hv : s.writable w = [s.selOf w] := by
    simp only [State.writable, hi, if_true, State.instances, hs, Bool.false_eq_true, if_false] at hw ⊢
    simp only [List.filter_cons, List.filter_nil] at hw ⊢
    split
    · rfl
    · rename_i k
      simp [k] at hw
  simp only [State.applyWrite, State.storeAll, State.storeFrom, State.storeWord, hv, List.foldl_cons, List.foldl_nil,
    List.nil_append, List.append_nil]

/-- What follows the store of one word that is neither a palette entry nor PT_RXCFG. -/
theorem State.takeEffect_one (s : State) (o : WordOp) (bits : List Bool) (h1 : ¬ (0x301 ≤ o.word ∧ o.word ≤ 0x304))
    (h2 : o.word ≠ 0x401) :
    s.takeEffect [o] bits = (actWord bits (applyWord s o.inst o.word o.old) o.inst o.word o.data).notePermits := by
  simp [State.takeEffect, h1, h2]

/-- A refused single write only answers (R318). -/
theorem State.writeWord_refuses (s : State) (w : BitVec 12) (d : Word) (c : Code)
    (h : s.refusesWrite w.toNat d c = true) :
    s.writeWord w d = s.respond (slotHead 2 w d) c 0 [] (accessTime true w.toNat 1 true) := by
  unfold State.refusesWrite at h
  rw [Bool.and_eq_true, State.slotReady_iff, Option.any_eq_true] at h
  obtain ⟨⟨h1, h2, h3, h4⟩, ⟨c', k⟩, h5, h6⟩ := h
  have h6 : c' = c := by simpa using h6
  subst h6
  unfold State.writeWord State.writeBits
  rw [s.slotAlone_runs (s.slotReady_iff.mpr ⟨h1, h2, h3, h4⟩)]
  unfold State.runWrite
  simp only [h3, State.chainDue_eq s h4, h5, List.length_singleton, beq_self_eq_true, Bool.and_self, if_true]

/-- A single read that nothing refuses has its effect and answers its value (R320, R321). -/
theorem State.readWord_takes (s : State) (w : BitVec 12) (h : s.takesRead w.toNat = true) :
    s.readWord w = (s.readEffect false (s.selOf w.toNat) w.toNat).respond (slotHead 1 w 0) Code.ok
      (s.readValue false (s.selOf w.toNat) w.toNat) [] 48 := by
  unfold State.takesRead at h
  simp only [Bool.and_eq_true, State.slotReady_iff, beq_iff_eq, bne_iff_ne, Bool.not_eq_true'] at h
  obtain ⟨⟨⟨⟨⟨h1, h2, h3, h4⟩, h5⟩, h6⟩, h7⟩, h8⟩ := h
  unfold State.readWord
  rw [s.slotAlone_runs (s.slotReady_iff.mpr ⟨h1, h2, h3, h4⟩)]
  unfold State.runRead State.readSingle
  simp only [h3, State.chainDue_eq s h4, h5, h6, h7, h8, Bool.not_true,
    Bool.false_eq_true, if_false, beq_self_eq_true, Bool.and_self, if_true]

/-! ### What follows every accepted write -/

theorem State.wakeOct_eq (s : State) (o cause : Nat) : ∃ x, s.wakeOct o cause = { s with octs := x } := by
  unfold State.wakeOct
  dsimp only
  split
  · exact ⟨s.octs, rfl⟩
  · split
    · exact ⟨s.octs, rfl⟩
    · exact ⟨_, rfl⟩

theorem foldl_octs (f : State → Nat → State) (h : ∀ s o, ∃ x, f s o = { s with octs := x }) (l : List Nat) (s : State) :
    ∃ x, l.foldl f s = { s with octs := x } := by
  induction l generalizing s with
  | nil => exact ⟨s.octs, rfl⟩
  | cons a t ih =>
    obtain ⟨x, e⟩ := h s a
    obtain ⟨y, k⟩ := ih (f s a)
    exact ⟨y, by rw [List.foldl_cons, k, e]⟩

/-- Requests for RUN that a change of permission makes touch the octants alone (R434). -/
theorem State.notePermits_eq (s : State) : ∃ x, s.notePermits = { s with octs := x } := by
  unfold State.notePermits
  refine foldl_octs _ (fun s o => ?_) _ s
  dsimp only
  split
  · exact s.wakeOct_eq o 8
  · exact ⟨s.octs, rfl⟩

/-! ### Answers -/

/-- The answer of an accepted write touches the chain part and CH_LASTST alone. -/
theorem State.answerWrite_frame (s : State) (head : BitVec 64) (single : Bool) (addr delay : Nat) :
    ∃ x r, s.answerWrite head single addr delay = { s with chain := x, regs := r } ∧
      ∀ i w, i * 4096 + w ≠ 0x047 → (s.answerWrite head single addr delay).reg i w = s.reg i w := by
  unfold State.answerWrite
  split
  · obtain ⟨x, r, e⟩ := s.respond_eq head Code.ok (if single = true then s.afterWrite addr else 0) [] delay
    exact ⟨x, r, e, fun i w h => s.respond_reg _ _ _ _ _ i w h⟩
  · exact ⟨s.chain, s.regs, rfl, fun _ _ _ => rfl⟩

/-- It is the response OK when the device still has its position. -/
theorem State.answerWrite_answers (s : State) (head : BitVec 64) (addr delay : Nat) (h : s.chain.assigned = true) :
    (s.answerWrite head true addr delay).answers Code.ok (s.afterWrite addr) := by
  unfold State.answerWrite
  rw [if_pos h, if_pos rfl]
  exact s.respond_answers _ _ _ _ _

/-- An accepted single write of one instance, apart from palette entries and PT_RXCFG: the state its store and its actions
lead to, with only octants that ask for RUN, the chain part and CH_LASTST beside it. -/
theorem State.writeWord_one (s : State) (w : BitVec 12) (d : Word) (h : s.takesWrite w.toNat d = true)
    (hs : s.selAll w.toNat = false) (h1 : ¬ (0x301 ≤ w.toNat ∧ w.toNat ≤ 0x304)) (h2 : w.toNat ≠ 0x401) (u : State)
    (hu : u = actWord [] (applyWord (s.setReg (s.selOf w.toNat) w.toNat (mergeWord s (s.selOf w.toNat) w.toNat d))
      (s.selOf w.toNat) w.toNat (s.reg (s.selOf w.toNat) w.toNat)) (s.selOf w.toNat) w.toNat d) :
    ∃ x r o, s.writeWord w d = { u with chain := x, regs := r, octs := o } ∧
      ∀ i v, i * 4096 + v ≠ 0x047 → (s.writeWord w d).reg i v = u.reg i v := by
  have hc : s.checkWrite w.toNat [d] true = none := by
    unfold State.takesWrite at h
    rw [Bool.and_eq_true, Bool.and_eq_true] at h
    simpa using h.1.2
  rw [s.writeWord_takes w d h, s.applyWrite_one w.toNat d hc hs,
    State.takeEffect_one _ _ _ (by exact h1) (by exact h2)]
  dsimp only
  rw [← hu]
  obtain ⟨o, e⟩ := u.notePermits_eq
  obtain ⟨x, r, k, l⟩ := u.notePermits.answerWrite_frame (slotHead 2 w d) true w.toNat (accessTime true w.toNat 1 true)
  refine ⟨x, r, o, ?_, fun i v hv => ?_⟩
  · rw [k, e]
  · rw [l i v hv, e]
    rfl

end Sys2Proof.Machine
end

