-- ==== Sys2Proof/Laws/Keeps.lean ====
section
/-!
SUPPORT. What every operation keeps, one lemma for each operation that meanings call: from a state that `Keeps` relates to a
starting one, its result is related too. Power-on stands apart: it begins again. A meaning is shown to keep it by unfolding it
and citing these lemmas along its branches, as the proofs below do.
-/
set_option linter.unreachableTactic false
set_option linter.unusedTactic false
namespace Sys2Proof.Machine

/-- What no effect of a command undoes: the queue of waiting commands is as it was, the register file stays in canonical form,
time does not go back, and C has counted 16 ticks for each DCLK edge that passed (R35). -/
structure Keeps (r s : State) : Prop where
  pending : s.pending = r.pending
  wf : Sparse.wf resetWord r.regs = true → Sparse.wf resetWord s.regs = true
  mono : r.now ≤ s.now
  scale : s.c = r.c + BitVec.ofNat 64 (16 * (s.now - r.now))

/-! ### How it is built -/

theorem Keeps.refl (s : State) : Keeps s s := ⟨rfl, id, Nat.le_refl _, by simp⟩

theorem Keeps.trans {r s t : State} (a : Keeps r s) (b : Keeps s t) : Keeps r t := by
  refine ⟨b.pending.trans a.pending, fun w => b.wf (a.wf w), Nat.le_trans a.mono b.mono, ?_⟩
  have h1 := a.mono
  have h2 := b.mono
  rw [b.scale, a.scale, BitVec.add_assoc, ← BitVec.ofNat_add]
  congr 2
  omega

theorem Keeps.ite {c : Prop} [Decidable c] {r a b : State} (h : Keeps r a) (k : Keeps r b) :
    Keeps r (if c then a else b) := by
  split
  · exact h
  · exact k

/-- An update of any other field. -/
theorem Keeps.mk_iff {r s : State}
    {strap₁ clk₁ boot₁ chain₁ tb₁ hinge₁ link₁ power₁ flash₁ almanac₁ pins₁ ports₁ rings₁ groups₁ mons₁ cus₁ auxs₁
     octs₁ srcs₁ tgts₁ staging₁ stagingLow₁ unbuilt₁ gated₁ gapWaits₁ msgs₁ flushes₁ flushAt₁ flushDue₁ bulkAt₁ segments₁
     upHead₁ extents₁ nextUid₁ nextOrder₁ free₁ out₁} :
    Keeps r (State.mk s.pending s.now s.c strap₁ s.regs clk₁ boot₁ chain₁ tb₁ hinge₁ link₁ power₁ flash₁ almanac₁ pins₁ ports₁ rings₁
      groups₁ mons₁ cus₁ auxs₁ octs₁ srcs₁ tgts₁ staging₁ stagingLow₁ unbuilt₁ gated₁ gapWaits₁ msgs₁ flushes₁ flushAt₁
      flushDue₁ bulkAt₁ segments₁ upHead₁ extents₁ nextUid₁ nextOrder₁ free₁ out₁) ↔ Keeps r s :=
  ⟨fun h => ⟨h.1, h.2, h.3, h.4⟩, fun h => ⟨h.1, h.2, h.3, h.4⟩⟩

theorem foldl_keeps {β : Type} {r : State} (f : State → β → State) {l : List β} {s : State}
    (w : Keeps r s) (h : ∀ s b, Keeps r s → Keeps r (f s b)) : Keeps r (l.foldl f s) := by
  induction l generalizing s with
  | nil => exact w
  | cons a t ih => exact ih (h _ _ w)

theorem foldl_keeps_fst {β γ : Type} {r : State} (f : State × γ → β → State × γ) {l : List β} {a : State × γ}
    (w : Keeps r a.1) (h : ∀ s o b, Keeps r s → Keeps r (f (s, o) b).1) : Keeps r (l.foldl f a).1 := by
  induction l generalizing a with
  | nil => exact w
  | cons b t ih => exact ih (h a.1 a.2 b w)

theorem foldl_keeps_snd {β γ : Type} {r : State} (f : γ × State → β → γ × State) {l : List β} {a : γ × State}
    (w : Keeps r a.2) (h : ∀ s o b, Keeps r s → Keeps r (f (o, s) b).2) : Keeps r (l.foldl f a).2 := by
  induction l generalizing a with
  | nil => exact w
  | cons b t ih => exact ih (h a.2 a.1 b w)

/-- The register file after a SOFT or CORE reset is in canonical form, whatever it was. -/
theorem keepRegs_wf (mask : Nat → Word) (m : Sparse Word) : Sparse.wf resetWord (keepRegs mask m) = true := by
  have k : ∀ (l a : Sparse Word), Sparse.wf resetWord a = true →
      Sparse.wf resetWord (l.foldl (fun a x =>
        Sparse.put resetWord a x.1 ((x.2 &&& mask x.1) ||| (resetWord x.1 &&& ~~~ mask x.1))) a) = true := by
    intro l
    induction l with
    | nil => exact fun a h => h
    | cons b t ih => exact fun a h => ih _ (Sparse.wf_put _ _ _ _ h)
  exact k m [] rfl

/-! ### Registers and time -/

theorem State.setReg_keeps {r s₀ : State} (h₀ : Keeps r s₀) (i w : Nat) (v : Word) : Keeps r (s₀.setReg i w v) :=
  ⟨h₀.1, fun x => Sparse.wf_put _ _ _ _ (h₀.2 x), h₀.3, h₀.4⟩

theorem State.advance_keeps {r₀ s₀ : State} (h₀ : Keeps r₀ s₀) (n : Nat) : Keeps r₀ (s₀.advance n) := by
  refine h₀.trans ?_
  unfold State.advance
  split
  · exact ⟨rfl, id, by dsimp only; omega, rfl⟩
  · exact Keeps.refl _

/-! ### The operations -/

theorem State.setPin_keeps {r₀ s₀ : State} (h₀ : Keeps r₀ s₀) (q : Nat) (v : Pin) :
    Keeps r₀ (State.setPin (s := s₀) (q := q) (v := v)) := by
  unfold State.setPin
  repeat' first
    | with_reducible assumption | (with_reducible apply foldl_keeps <;> intros) | dsimp only
    | with_reducible apply Keeps.ite | split | simp only [Keeps.mk_iff]

theorem State.modPin_keeps {r₀ s₀ : State} (h₀ : Keeps r₀ s₀) (q : Nat) (f : Pin → Pin) :
    Keeps r₀ (State.modPin (s := s₀) (q := q) (f := f)) := by
  unfold State.modPin
  repeat' first
    | with_reducible assumption | with_reducible apply State.setPin_keeps
    | (with_reducible apply foldl_keeps <;> intros) | dsimp only | with_reducible apply Keeps.ite | split
    | simp only [Keeps.mk_iff]

theorem State.setPort_keeps {r₀ s₀ : State} (h₀ : Keeps r₀ s₀) (p : Nat) (v : Port) :
    Keeps r₀ (State.setPort (s := s₀) (p := p) (v := v)) := by
  unfold State.setPort
  repeat' first
    | with_reducible assumption | (with_reducible apply foldl_keeps <;> intros) | dsimp only
    | with_reducible apply Keeps.ite | split | simp only [Keeps.mk_iff]

theorem State.modPort_keeps {r₀ s₀ : State} (h₀ : Keeps r₀ s₀) (p : Nat) (f : Port → Port) :
    Keeps r₀ (State.modPort (s := s₀) (p := p) (f := f)) := by
  unfold State.modPort
  repeat' first
    | with_reducible assumption | with_reducible apply State.setPort_keeps
    | (with_reducible apply foldl_keeps <;> intros) | dsimp only | with_reducible apply Keeps.ite | split
    | simp only [Keeps.mk_iff]

theorem State.setRing_keeps {r₀ s₀ : State} (h₀ : Keeps r₀ s₀) (n : Nat) (v : Ring) :
    Keeps r₀ (State.setRing (s := s₀) (n := n) (v := v)) := by
  unfold State.setRing
  repeat' first
    | with_reducible assumption | (with_reducible apply foldl_keeps <;> intros) | dsimp only
    | with_reducible apply Keeps.ite | split | simp only [Keeps.mk_iff]

theorem State.modRing_keeps {r₀ s₀ : State} (h₀ : Keeps r₀ s₀) (n : Nat) (f : Ring → Ring) :
    Keeps r₀ (State.modRing (s := s₀) (n := n) (f := f)) := by
  unfold State.modRing
  repeat' first
    | with_reducible assumption | with_reducible apply State.setRing_keeps
    | (with_reducible apply foldl_keeps <;> intros) | dsimp only | with_reducible apply Keeps.ite | split
    | simp only [Keeps.mk_iff]

theorem State.setGroup_keeps {r₀ s₀ : State} (h₀ : Keeps r₀ s₀) (g : Nat) (v : Group) :
    Keeps r₀ (State.setGroup (s := s₀) (g := g) (v := v)) := by
  unfold State.setGroup
  repeat' first
    | with_reducible assumption | (with_reducible apply foldl_keeps <;> intros) | dsimp only
    | with_reducible apply Keeps.ite | split | simp only [Keeps.mk_iff]

theorem State.modGroup_keeps {r₀ s₀ : State} (h₀ : Keeps r₀ s₀) (g : Nat) (f : Group → Group) :
    Keeps r₀ (State.modGroup (s := s₀) (g := g) (f := f)) := by
  unfold State.modGroup
  repeat' first
    | with_reducible assumption | with_reducible apply State.setGroup_keeps
    | (with_reducible apply foldl_keeps <;> intros) | dsimp only | with_reducible apply Keeps.ite | split
    | simp only [Keeps.mk_iff]

theorem State.setMon_keeps {r₀ s₀ : State} (h₀ : Keeps r₀ s₀) (q : Nat) (v : Monitor) :
    Keeps r₀ (State.setMon (s := s₀) (q := q) (v := v)) := by
  unfold State.setMon
  repeat' first
    | with_reducible assumption | (with_reducible apply foldl_keeps <;> intros) | dsimp only
    | with_reducible apply Keeps.ite | split | simp only [Keeps.mk_iff]

theorem State.modMon_keeps {r₀ s₀ : State} (h₀ : Keeps r₀ s₀) (q : Nat) (f : Monitor → Monitor) :
    Keeps r₀ (State.modMon (s := s₀) (q := q) (f := f)) := by
  unfold State.modMon
  repeat' first
    | with_reducible assumption | with_reducible apply State.setMon_keeps
    | (with_reducible apply foldl_keeps <;> intros) | dsimp only | with_reducible apply Keeps.ite | split
    | simp only [Keeps.mk_iff]

theorem State.setCu_keeps {r₀ s₀ : State} (h₀ : Keeps r₀ s₀) (i : Nat) (v : Cu) :
    Keeps r₀ (State.setCu (s := s₀) (i := i) (v := v)) := by
  unfold State.setCu
  repeat' first
    | with_reducible assumption | (with_reducible apply foldl_keeps <;> intros) | dsimp only
    | with_reducible apply Keeps.ite | split | simp only [Keeps.mk_iff]

theorem State.modCu_keeps {r₀ s₀ : State} (h₀ : Keeps r₀ s₀) (i : Nat) (f : Cu → Cu) :
    Keeps r₀ (State.modCu (s := s₀) (i := i) (f := f)) := by
  unfold State.modCu
  repeat' first
    | with_reducible assumption | with_reducible apply State.setCu_keeps
    | (with_reducible apply foldl_keeps <;> intros) | dsimp only | with_reducible apply Keeps.ite | split
    | simp only [Keeps.mk_iff]

theorem State.setAux_keeps {r₀ s₀ : State} (h₀ : Keeps r₀ s₀) (m : Nat) (v : Aux) :
    Keeps r₀ (State.setAux (s := s₀) (m := m) (v := v)) := by
  unfold State.setAux
  repeat' first
    | with_reducible assumption | (with_reducible apply foldl_keeps <;> intros) | dsimp only
    | with_reducible apply Keeps.ite | split | simp only [Keeps.mk_iff]

theorem State.modAux_keeps {r₀ s₀ : State} (h₀ : Keeps r₀ s₀) (m : Nat) (f : Aux → Aux) :
    Keeps r₀ (State.modAux (s := s₀) (m := m) (f := f)) := by
  unfold State.modAux
  repeat' first
    | with_reducible assumption | with_reducible apply State.setAux_keeps
    | (with_reducible apply foldl_keeps <;> intros) | dsimp only | with_reducible apply Keeps.ite | split
    | simp only [Keeps.mk_iff]

theorem State.setOct_keeps {r₀ s₀ : State} (h₀ : Keeps r₀ s₀) (o : Nat) (v : Octant) :
    Keeps r₀ (State.setOct (s := s₀) (o := o) (v := v)) := by
  unfold State.setOct
  repeat' first
    | with_reducible assumption | (with_reducible apply foldl_keeps <;> intros) | dsimp only
    | with_reducible apply Keeps.ite | split | simp only [Keeps.mk_iff]

theorem State.modOct_keeps {r₀ s₀ : State} (h₀ : Keeps r₀ s₀) (o : Nat) (f : Octant → Octant) :
    Keeps r₀ (State.modOct (s := s₀) (o := o) (f := f)) := by
  unfold State.modOct
  repeat' first
    | with_reducible assumption | with_reducible apply State.setOct_keeps
    | (with_reducible apply foldl_keeps <;> intros) | dsimp only | with_reducible apply Keeps.ite | split
    | simp only [Keeps.mk_iff]

theorem State.setSrc_keeps {r₀ s₀ : State} (h₀ : Keeps r₀ s₀) (n : Nat) (v : Src) :
    Keeps r₀ (State.setSrc (s := s₀) (n := n) (v := v)) := by
  unfold State.setSrc
  repeat' first
    | with_reducible assumption | (with_reducible apply foldl_keeps <;> intros) | dsimp only
    | with_reducible apply Keeps.ite | split | simp only [Keeps.mk_iff]

theorem State.modSrc_keeps {r₀ s₀ : State} (h₀ : Keeps r₀ s₀) (n : Nat) (f : Src → Src) :
    Keeps r₀ (State.modSrc (s := s₀) (n := n) (f := f)) := by
  unfold State.modSrc
  repeat' first
    | with_reducible assumption | with_reducible apply State.setSrc_keeps
    | (with_reducible apply foldl_keeps <;> intros) | dsimp only | with_reducible apply Keeps.ite | split
    | simp only [Keeps.mk_iff]

theorem State.setTgt_keeps {r₀ s₀ : State} (h₀ : Keeps r₀ s₀) (t : Nat) (v : Tgt) :
    Keeps r₀ (State.setTgt (s := s₀) (t := t) (v := v)) := by
  unfold State.setTgt
  repeat' first
    | with_reducible assumption | (with_reducible apply foldl_keeps <;> intros) | dsimp only
    | with_reducible apply Keeps.ite | split | simp only [Keeps.mk_iff]

theorem State.modTgt_keeps {r₀ s₀ : State} (h₀ : Keeps r₀ s₀) (t : Nat) (f : Tgt → Tgt) :
    Keeps r₀ (State.modTgt (s := s₀) (t := t) (f := f)) := by
  unfold State.modTgt
  repeat' first
    | with_reducible assumption | with_reducible apply State.setTgt_keeps
    | (with_reducible apply foldl_keeps <;> intros) | dsimp only | with_reducible apply Keeps.ite | split
    | simp only [Keeps.mk_iff]

theorem State.wr_keeps {r₀ s₀ : State} (h₀ : Keeps r₀ s₀) (f : Fld) (x : Nat) (i : Nat) :
    Keeps r₀ (State.wr (s := s₀) (f := f) (x := x) (i := i)) := by
  unfold State.wr
  repeat' first
    | with_reducible assumption | with_reducible apply State.setReg_keeps
    | (with_reducible apply foldl_keeps <;> intros) | dsimp only | with_reducible apply Keeps.ite | split
    | simp only [Keeps.mk_iff]

theorem State.wrBit_keeps {r₀ s₀ : State} (h₀ : Keeps r₀ s₀) (f : Fld) (b : Bool) (i : Nat) :
    Keeps r₀ (State.wrBit (s := s₀) (f := f) (b := b) (i := i)) := by
  unfold State.wrBit
  repeat' first
    | with_reducible assumption | with_reducible apply State.wr_keeps | (with_reducible apply foldl_keeps <;> intros)
    | dsimp only | with_reducible apply Keeps.ite | split | simp only [Keeps.mk_iff]

theorem State.incSat_keeps {r₀ s₀ : State} (h₀ : Keeps r₀ s₀) (f : Fld) (i : Nat) (n : Nat) :
    Keeps r₀ (State.incSat (s := s₀) (f := f) (i := i) (n := n)) := by
  unfold State.incSat
  repeat' first
    | with_reducible assumption | with_reducible apply State.wr_keeps | (with_reducible apply foldl_keeps <;> intros)
    | dsimp only | with_reducible apply Keeps.ite | split | simp only [Keeps.mk_iff]

theorem State.incWrap_keeps {r₀ s₀ : State} (h₀ : Keeps r₀ s₀) (f : Fld) (i : Nat) (n : Nat) :
    Keeps r₀ (State.incWrap (s := s₀) (f := f) (i := i) (n := n)) := by
  unfold State.incWrap
  repeat' first
    | with_reducible assumption | with_reducible apply State.wr_keeps | (with_reducible apply foldl_keeps <;> intros)
    | dsimp only | with_reducible apply Keeps.ite | split | simp only [Keeps.mk_iff]

theorem State.advanceTo_keeps {r₀ s₀ : State} (h₀ : Keeps r₀ s₀) (t : Stamp) :
    Keeps r₀ (State.advanceTo (s := s₀) (t := t)) := by
  unfold State.advanceTo
  repeat' first
    | with_reducible assumption | with_reducible apply State.advance_keeps
    | (with_reducible apply foldl_keeps <;> intros) | dsimp only | with_reducible apply Keeps.ite | split
    | simp only [Keeps.mk_iff]

theorem State.fresh_keeps {r₀ s₀ : State} (h₀ : Keeps r₀ s₀) :
    Keeps r₀ (State.fresh (s := s₀)).2 := by
  unfold State.fresh
  repeat' first
    | with_reducible assumption | (with_reducible apply foldl_keeps <;> intros) | dsimp only
    | with_reducible apply Keeps.ite | split | simp only [Keeps.mk_iff]

theorem State.takeOrder_keeps {r₀ s₀ : State} (h₀ : Keeps r₀ s₀) :
    Keeps r₀ (State.takeOrder (s := s₀)).2 := by
  unfold State.takeOrder
  repeat' first
    | with_reducible assumption | (with_reducible apply foldl_keeps <;> intros) | dsimp only
    | with_reducible apply Keeps.ite | split | simp only [Keeps.mk_iff]

theorem State.takeFree_keeps {r₀ s₀ : State} (h₀ : Keeps r₀ s₀) :
    Keeps r₀ (State.takeFree (s := s₀)).2 := by
  unfold State.takeFree
  repeat' first
    | with_reducible assumption | (with_reducible apply foldl_keeps <;> intros) | dsimp only
    | with_reducible apply Keeps.ite | split | simp only [Keeps.mk_iff]

theorem State.emit_keeps {r₀ s₀ : State} (h₀ : Keeps r₀ s₀) (o : Out) :
    Keeps r₀ (State.emit (s := s₀) (o := o)) := by
  unfold State.emit
  repeat' first
    | with_reducible assumption | (with_reducible apply foldl_keeps <;> intros) | dsimp only
    | with_reducible apply Keeps.ite | split | simp only [Keeps.mk_iff]

theorem State.srcEvent_keeps {r₀ s₀ : State} (h₀ : Keeps r₀ s₀) (n : Nat) (stamp : Stamp) (rec : Option Nat) :
    Keeps r₀ (State.srcEvent (s := s₀) (n := n) (stamp := stamp) (rec := rec)) := by
  unfold State.srcEvent
  repeat' first
    | with_reducible assumption | with_reducible apply State.modSrc_keeps
    | (with_reducible apply foldl_keeps <;> intros) | dsimp only | with_reducible apply Keeps.ite | split
    | simp only [Keeps.mk_iff]

theorem State.move_keeps {r₀ s₀ : State} (h₀ : Keeps r₀ s₀) (g : Gated) :
    Keeps r₀ (State.move (s := s₀) (g := g)) := by
  unfold State.move
  repeat' first
    | with_reducible assumption | with_reducible apply State.wr_keeps | with_reducible apply State.incSat_keeps
    | with_reducible apply State.incWrap_keeps | (with_reducible apply foldl_keeps <;> intros) | dsimp only
    | with_reducible apply Keeps.ite | split | simp only [Keeps.mk_iff]

theorem State.settle_keeps {r₀ s₀ : State} (h₀ : Keeps r₀ s₀) :
    Keeps r₀ (State.settle (s := s₀)) := by
  unfold State.settle
  repeat' first
    | with_reducible assumption | with_reducible apply State.move_keeps
    | (with_reducible apply foldl_keeps <;> intros) | dsimp only | with_reducible apply Keeps.ite | split
    | simp only [Keeps.mk_iff]

theorem State.count_keeps {r₀ s₀ : State} (h₀ : Keeps r₀ s₀) (m : Move) (f : Fld) (i : Nat) (n : Nat) (waits : List
    Nat) (own : Bool) :
    Keeps r₀ (State.count (s := s₀) (m := m) (f := f) (i := i) (n := n) (waits := waits) (own := own)) := by
  unfold State.count
  repeat' first
    | with_reducible assumption | with_reducible apply State.settle_keeps
    | (with_reducible apply foldl_keeps <;> intros) | dsimp only | with_reducible apply Keeps.ite | split
    | simp only [Keeps.mk_iff]

theorem State.countPort_keeps {r₀ s₀ : State} (h₀ : Keeps r₀ s₀) (m : Move) (f : Fld) (p : Nat) (n : Nat) :
    Keeps r₀ (State.countPort (s := s₀) (m := m) (f := f) (p := p) (n := n)) := by
  unfold State.countPort
  repeat' first
    | with_reducible assumption | with_reducible apply State.count_keeps
    | (with_reducible apply foldl_keeps <;> intros) | dsimp only | with_reducible apply Keeps.ite | split
    | simp only [Keeps.mk_iff]

theorem State.rewait_keeps {r₀ s₀ : State} (h₀ : Keeps r₀ s₀) (u : Nat) (before : List Nat) :
    Keeps r₀ (State.rewait (s := s₀) (u := u) (before := before)) := by
  unfold State.rewait
  repeat' first
    | with_reducible assumption | with_reducible apply State.settle_keeps
    | (with_reducible apply foldl_keeps <;> intros) | dsimp only | with_reducible apply Keeps.ite | split
    | simp only [Keeps.mk_iff]

theorem State.forget_keeps {r₀ s₀ : State} (h₀ : Keeps r₀ s₀) (us : List Nat) :
    Keeps r₀ (State.forget (s := s₀) (us := us)) := by
  unfold State.forget
  repeat' first
    | with_reducible assumption | (with_reducible apply foldl_keeps <;> intros) | dsimp only
    | with_reducible apply Keeps.ite | split | simp only [Keeps.mk_iff]

theorem State.noteStaging_keeps {r₀ s₀ : State} (h₀ : Keeps r₀ s₀) :
    Keeps r₀ (State.noteStaging (s := s₀)) := by
  unfold State.noteStaging
  repeat' first
    | with_reducible assumption | (with_reducible apply foldl_keeps <;> intros) | dsimp only
    | with_reducible apply Keeps.ite | split | simp only [Keeps.mk_iff]

theorem State.stage_keeps {r₀ s₀ : State} (h₀ : Keeps r₀ s₀) (r : Rec) :
    Keeps r₀ (State.stage (s := s₀) (r := r)) := by
  unfold State.stage
  repeat' first
    | with_reducible assumption | with_reducible apply State.noteStaging_keeps
    | (with_reducible apply foldl_keeps <;> intros) | dsimp only | with_reducible apply Keeps.ite | split
    | simp only [Keeps.mk_iff]

theorem State.sendMark_keeps {r₀ s₀ : State} (h₀ : Keeps r₀ s₀) (r : Rec) :
    Keeps r₀ (State.sendMark (s := s₀) (r := r)) := by
  unfold State.sendMark
  repeat' first
    | with_reducible assumption | with_reducible apply State.emit_keeps | with_reducible apply State.count_keeps
    | (with_reducible apply foldl_keeps <;> intros) | dsimp only | with_reducible apply Keeps.ite | split
    | simp only [Keeps.mk_iff]

theorem State.freeHeld_keeps {r₀ s₀ : State} (h₀ : Keeps r₀ s₀) :
    Keeps r₀ (State.freeHeld (s := s₀)) := by
  unfold State.freeHeld
  repeat' first
    | with_reducible assumption | (with_reducible apply foldl_keeps <;> intros) | dsimp only
    | with_reducible apply Keeps.ite | split | simp only [Keeps.mk_iff]

theorem State.form_keeps {r₀ s₀ : State} (h₀ : Keeps r₀ s₀) (r : Rec) (since : Option Nat) :
    Keeps r₀ (State.form (s := s₀) (r := r) (since := since)).2 := by
  unfold State.form
  repeat' first
    | with_reducible assumption | with_reducible apply State.stage_keeps | with_reducible apply State.sendMark_keeps
    | (with_reducible apply foldl_keeps <;> intros) | dsimp only | with_reducible apply Keeps.ite | split
    | simp only [Keeps.mk_iff]

theorem State.raiseMute_keeps {r₀ s₀ : State} (h₀ : Keeps r₀ s₀) (r : Rec) :
    Keeps r₀ (State.raiseMute (s := s₀) (r := r)) := by
  unfold State.raiseMute
  repeat' first
    | with_reducible assumption | with_reducible apply State.srcEvent_keeps
    | (with_reducible apply foldl_keeps <;> intros) | dsimp only | with_reducible apply Keeps.ite | split
    | simp only [Keeps.mk_iff]

theorem State.formPlace_keeps {r₀ s₀ : State} (h₀ : Keeps r₀ s₀) (r : Rec) :
    Keeps r₀ (State.formPlace (s := s₀) (r := r)).2 := by
  unfold State.formPlace
  repeat' first
    | with_reducible assumption | with_reducible apply State.form_keeps | with_reducible apply State.raiseMute_keeps
    | (with_reducible apply foldl_keeps <;> intros) | dsimp only | with_reducible apply Keeps.ite | split
    | simp only [Keeps.mk_iff]

theorem State.unstage_keeps {r₀ s₀ : State} (h₀ : Keeps r₀ s₀) (p : Rec → Bool) :
    Keeps r₀ (State.unstage (s := s₀) (p := p)) := by
  unfold State.unstage
  repeat' first
    | with_reducible assumption | with_reducible apply State.settle_keeps
    | with_reducible apply State.noteStaging_keeps | (with_reducible apply foldl_keeps <;> intros) | dsimp only
    | with_reducible apply Keeps.ite | split | simp only [Keeps.mk_iff]

theorem State.formTx_keeps {r₀ s₀ : State} (h₀ : Keeps r₀ s₀) (r : Rec) :
    Keeps r₀ (State.formTx (s := s₀) (r := r)).2 := by
  unfold State.formTx
  repeat' first
    | with_reducible assumption | with_reducible apply State.form_keeps
    | (with_reducible apply foldl_keeps <;> intros) | dsimp only | with_reducible apply Keeps.ite | split
    | simp only [Keeps.mk_iff]

theorem State.buildTx_keeps {r₀ s₀ : State} (h₀ : Keeps r₀ s₀) (r : Rec) :
    Keeps r₀ (State.buildTx (s := s₀) (r := r)) := by
  unfold State.buildTx
  repeat' first
    | with_reducible assumption | with_reducible apply State.stage_keeps | with_reducible apply State.sendMark_keeps
    | (with_reducible apply foldl_keeps <;> intros) | dsimp only | with_reducible apply Keeps.ite | split
    | simp only [Keeps.mk_iff]

theorem State.noteHp_keeps {r₀ s₀ : State} (h₀ : Keeps r₀ s₀) (n : Nat) :
    Keeps r₀ (State.noteHp (s := s₀) (n := n)) := by
  unfold State.noteHp
  repeat' first
    | with_reducible assumption | with_reducible apply State.modRing_keeps
    | (with_reducible apply foldl_keeps <;> intros) | dsimp only | with_reducible apply Keeps.ite | split
    | simp only [Keeps.mk_iff]

theorem State.gapLoss_keeps {r₀ s₀ : State} (h₀ : Keeps r₀ s₀) (l : Loss) :
    Keeps r₀ (State.gapLoss (s := s₀) (l := l)).2 := by
  unfold State.gapLoss
  repeat' first
    | with_reducible assumption | with_reducible apply State.takeFree_keeps
    | (with_reducible apply foldl_keeps <;> intros) | dsimp only | with_reducible apply Keeps.ite | split
    | simp only [Keeps.mk_iff]

theorem State.formGap_keeps {r₀ s₀ : State} (h₀ : Keeps r₀ s₀) (w : GapWait) :
    Keeps r₀ (State.formGap (s := s₀) (w := w)) := by
  unfold State.formGap
  repeat' first
    | with_reducible assumption | with_reducible apply State.count_keeps | with_reducible apply State.formPlace_keeps
    | with_reducible apply State.noteHp_keeps | with_reducible apply State.gapLoss_keeps
    | (with_reducible apply foldl_keeps <;> intros) | dsimp only | with_reducible apply Keeps.ite | split
    | simp only [Keeps.mk_iff]

theorem State.dueGap_keeps {r₀ s₀ : State} (h₀ : Keeps r₀ s₀) (w : GapWait) :
    Keeps r₀ (State.dueGap (s := s₀) (w := w)) := by
  unfold State.dueGap
  repeat' first
    | with_reducible assumption | with_reducible apply State.formGap_keeps
    | (with_reducible apply foldl_keeps <;> intros) | dsimp only | with_reducible apply Keeps.ite | split
    | simp only [Keeps.mk_iff]

theorem State.closeLoss_keeps {r₀ s₀ : State} (h₀ : Keeps r₀ s₀) (p : Nat) (k : Nat) (order : Nat) :
    Keeps r₀ (State.closeLoss (s := s₀) (p := p) (k := k) (order := order)) := by
  unfold State.closeLoss
  repeat' first
    | with_reducible assumption | with_reducible apply State.modPort_keeps | with_reducible apply State.dueGap_keeps
    | (with_reducible apply foldl_keeps <;> intros) | dsimp only | with_reducible apply Keeps.ite | split
    | simp only [Keeps.mk_iff]

theorem State.loseEntry_keeps {r₀ s₀ : State} (h₀ : Keeps r₀ s₀) (p : Nat) (k : Nat) (isChar : Bool) (counts : Bool)
    (stamp : Stamp) (seq : Word) :
    Keeps r₀ (State.loseEntry (s := s₀) (p := p) (k := k) (isChar := isChar) (counts := counts) (stamp := stamp)
        (seq := seq)) := by
  unfold State.loseEntry
  repeat' first
    | with_reducible assumption | with_reducible apply State.modPort_keeps
    | (with_reducible apply foldl_keeps <;> intros) | dsimp only | with_reducible apply Keeps.ite | split
    | simp only [Keeps.mk_iff]

theorem State.leaveL1_keeps {r₀ s₀ : State} (h₀ : Keeps r₀ s₀) :
    Keeps r₀ (State.leaveL1 (s := s₀)) := by
  unfold State.leaveL1
  repeat' first
    | with_reducible assumption | with_reducible apply State.emit_keeps
    | (with_reducible apply foldl_keeps <;> intros) | dsimp only | with_reducible apply Keeps.ite | split
    | simp only [Keeps.mk_iff]

theorem State.request_keeps {r₀ s₀ : State} (h₀ : Keeps r₀ s₀) :
    Keeps r₀ (State.request (s := s₀)) := by
  unfold State.request
  repeat' first
    | with_reducible assumption | with_reducible apply State.leaveL1_keeps
    | (with_reducible apply foldl_keeps <;> intros) | dsimp only | with_reducible apply Keeps.ite | split
    | simp only [Keeps.mk_iff]

theorem State.readPieces_keeps {r₀ s₀ : State} (h₀ : Keeps r₀ s₀) (fuel : Nat) (a : BitVec 64) (n : Nat) :
    Keeps r₀ (State.readPieces fuel a n s₀) := by
  induction fuel generalizing s₀ a n with
  | zero => exact h₀
  | succ k ih =>
    unfold State.readPieces
    split
    · exact h₀
    · exact ih (State.emit_keeps h₀ _) _ _

theorem State.dataRead_keeps {r₀ s₀ : State} (h₀ : Keeps r₀ s₀) (a : BitVec 64) (n : Nat) :
    Keeps r₀ (State.dataRead (s := s₀) (a := a) (n := n)) := by
  unfold State.dataRead
  repeat' first
    | with_reducible assumption | with_reducible apply State.request_keeps
    | with_reducible apply State.readPieces_keeps | (with_reducible apply foldl_keeps <;> intros) | dsimp only
    | with_reducible apply Keeps.ite | split | simp only [Keeps.mk_iff]

theorem State.eventRecord_keeps {r₀ s₀ : State} (h₀ : Keeps r₀ s₀) (n : Nat) (detail : Nat) (port : Option Nat) :
    Keeps r₀ (State.eventRecord (s := s₀) (n := n) (detail := detail) (port := port)) := by
  unfold State.eventRecord
  repeat' first
    | with_reducible assumption | with_reducible apply State.modRing_keeps | with_reducible apply State.form_keeps
    | with_reducible apply State.dueGap_keeps | (with_reducible apply foldl_keeps <;> intros) | dsimp only
    | with_reducible apply Keeps.ite | split | simp only [Keeps.mk_iff]

theorem State.softSet_keeps {r₀ s₀ : State} (h₀ : Keeps r₀ s₀) (n : Nat) :
    Keeps r₀ (State.softSet (s := s₀) (n := n)) := by
  unfold State.softSet
  repeat' first
    | with_reducible assumption | with_reducible apply State.modSrc_keeps
    | (with_reducible apply foldl_keeps <;> intros) | dsimp only | with_reducible apply Keeps.ite | split
    | simp only [Keeps.mk_iff]

theorem State.refreshLevel_keeps {r₀ s₀ : State} (h₀ : Keeps r₀ s₀) (n : Nat) :
    Keeps r₀ (State.refreshLevel (s := s₀) (n := n)) := by
  unfold State.refreshLevel
  repeat' first
    | with_reducible assumption | with_reducible apply State.setSrc_keeps
    | (with_reducible apply foldl_keeps <;> intros) | dsimp only | with_reducible apply Keeps.ite | split
    | simp only [Keeps.mk_iff]

theorem State.srcLevel_keeps {r₀ s₀ : State} (h₀ : Keeps r₀ s₀) (n : Nat) (b : Bool) (stamp : Stamp) :
    Keeps r₀ (State.srcLevel (s := s₀) (n := n) (b := b) (stamp := stamp)) := by
  unfold State.srcLevel
  repeat' first
    | with_reducible assumption | with_reducible apply State.setSrc_keeps
    | with_reducible apply State.refreshLevel_keeps | (with_reducible apply foldl_keeps <;> intros) | dsimp only
    | with_reducible apply Keeps.ite | split | simp only [Keeps.mk_iff]

theorem State.raiseEvent_keeps {r₀ s₀ : State} (h₀ : Keeps r₀ s₀) (n : Nat) (detail : Nat) (port : Option Nat) :
    Keeps r₀ (State.raiseEvent (s := s₀) (n := n) (detail := detail) (port := port)) := by
  unfold State.raiseEvent
  repeat' first
    | with_reducible assumption | with_reducible apply State.srcEvent_keeps
    | with_reducible apply State.eventRecord_keeps | (with_reducible apply foldl_keeps <;> intros) | dsimp only
    | with_reducible apply Keeps.ite | split | simp only [Keeps.mk_iff]

theorem State.raiseLevel_keeps {r₀ s₀ : State} (h₀ : Keeps r₀ s₀) (n : Nat) (b : Bool) (detail : Nat) :
    Keeps r₀ (State.raiseLevel (s := s₀) (n := n) (b := b) (detail := detail)) := by
  unfold State.raiseLevel
  repeat' first
    | with_reducible assumption | with_reducible apply State.eventRecord_keeps
    | with_reducible apply State.srcLevel_keeps | (with_reducible apply foldl_keeps <;> intros) | dsimp only
    | with_reducible apply Keeps.ite | split | simp only [Keeps.mk_iff]

theorem State.srcDisable_keeps {r₀ s₀ : State} (h₀ : Keeps r₀ s₀) (n : Nat) :
    Keeps r₀ (State.srcDisable (s := s₀) (n := n)) := by
  unfold State.srcDisable
  repeat' first
    | with_reducible assumption | with_reducible apply State.modSrc_keeps | with_reducible apply State.cut_keeps
    | (with_reducible apply foldl_keeps <;> intros) | dsimp only | with_reducible apply Keeps.ite | split
    | simp only [Keeps.mk_iff]

theorem State.srcClear_keeps {r₀ s₀ : State} (h₀ : Keeps r₀ s₀) (n : Nat) :
    Keeps r₀ (State.srcClear (s := s₀) (n := n)) := by
  unfold State.srcClear
  repeat' first
    | with_reducible assumption | with_reducible apply State.modSrc_keeps
    | with_reducible apply State.refreshLevel_keeps | with_reducible apply State.cut_keeps
    | (with_reducible apply foldl_keeps <;> intros) | dsimp only | with_reducible apply Keeps.ite | split
    | simp only [Keeps.mk_iff]

theorem State.cutCoalescing_keeps {r₀ s₀ : State} (h₀ : Keeps r₀ s₀) :
    Keeps r₀ (State.cutCoalescing (s := s₀)) := by
  unfold State.cutCoalescing
  repeat' first
    | with_reducible assumption | with_reducible apply State.setSrc_keeps | with_reducible apply State.cut_keeps
    | (with_reducible apply foldl_keeps <;> intros) | dsimp only | with_reducible apply Keeps.ite | split
    | simp only [Keeps.mk_iff]

theorem State.activate_keeps {r₀ s₀ : State} (h₀ : Keeps r₀ s₀) (t : Nat) (n : Nat) (slot : Option Nat) :
    Keeps r₀ (State.activate (s := s₀) (t := t) (n := n) (slot := slot)) := by
  unfold State.activate
  repeat' first
    | with_reducible assumption | with_reducible apply State.modSrc_keeps | with_reducible apply State.modTgt_keeps
    | with_reducible apply State.incWrap_keeps | with_reducible apply State.cut_keeps
    | (with_reducible apply foldl_keeps <;> intros) | dsimp only | with_reducible apply Keeps.ite | split
    | simp only [Keeps.mk_iff]

theorem State.claim_keeps {r₀ s₀ : State} (h₀ : Keeps r₀ s₀) (t : Nat) :
    Keeps r₀ (State.claim (s := s₀) (t := t)).2 := by
  unfold State.claim
  repeat' first
    | with_reducible assumption | with_reducible apply State.activate_keeps
    | (with_reducible apply foldl_keeps <;> intros) | dsimp only | with_reducible apply Keeps.ite | split
    | simp only [Keeps.mk_iff]

theorem State.endOfInterrupt_keeps {r₀ s₀ : State} (h₀ : Keeps r₀ s₀) (t : Nat) (n : Nat) :
    Keeps r₀ (State.endOfInterrupt (s := s₀) (t := t) (n := n)) := by
  unfold State.endOfInterrupt
  repeat' first
    | with_reducible assumption | with_reducible apply State.modSrc_keeps | with_reducible apply State.modTgt_keeps
    | with_reducible apply State.incSat_keeps | (with_reducible apply foldl_keeps <;> intros) | dsimp only
    | with_reducible apply Keeps.ite | split | simp only [Keeps.mk_iff]

theorem State.markWindow_keeps {r₀ s₀ : State} (h₀ : Keeps r₀ s₀) (p : Msg → Bool) :
    Keeps r₀ (State.markWindow (s := s₀) (p := p)) := by
  unfold State.markWindow
  repeat' first
    | with_reducible assumption | (with_reducible apply foldl_keeps <;> intros) | dsimp only
    | with_reducible apply Keeps.ite | split | simp only [Keeps.mk_iff]

theorem caApply_keeps {r₀ s₀ : State} (h₀ : Keeps r₀ s₀) (i : Nat) (w : Nat) (old : Word) :
    Keeps r₀ (caApply (s := s₀) (i := i) (w := w) (old := old)) := by
  unfold caApply
  repeat' first
    | with_reducible assumption | with_reducible apply State.modSrc_keeps
    | with_reducible apply State.refreshLevel_keeps | with_reducible apply State.srcDisable_keeps
    | with_reducible apply State.markWindow_keeps | (with_reducible apply foldl_keeps <;> intros) | dsimp only
    | with_reducible apply Keeps.ite | split | simp only [Keeps.mk_iff]

theorem caAct_keeps {r₀ s₀ : State} (h₀ : Keeps r₀ s₀) (i : Nat) (w : Nat) (d : Word) :
    Keeps r₀ (caAct (s := s₀) (i := i) (w := w) (d := d)) := by
  unfold caAct
  repeat' first
    | with_reducible assumption | with_reducible apply State.softSet_keeps | with_reducible apply State.srcClear_keeps
    | with_reducible apply State.endOfInterrupt_keeps | (with_reducible apply foldl_keeps <;> intros) | dsimp only
    | with_reducible apply Keeps.ite | split | simp only [Keeps.mk_iff]

theorem State.stationInput_keeps {r₀ s₀ : State} (h₀ : Keeps r₀ s₀) (st : Nat) (level : Bool) (stamp : Stamp) :
    Keeps r₀ (State.stationInput (s := s₀) (st := st) (level := level) (stamp := stamp)) := by
  unfold State.stationInput
  repeat' first
    | with_reducible assumption | with_reducible apply State.modPin_keeps | with_reducible apply State.modSrc_keeps
    | with_reducible apply State.srcEvent_keeps | with_reducible apply State.srcLevel_keeps
    | (with_reducible apply foldl_keeps <;> intros) | dsimp only | with_reducible apply Keeps.ite | split
    | simp only [Keeps.mk_iff]

theorem State.replayInput_keeps {r₀ s₀ : State} (h₀ : Keeps r₀ s₀) (st : Nat) (left : Nat) :
    Keeps r₀ (State.replayInput (s := s₀) (st := st) (left := left)) := by
  unfold State.replayInput
  repeat' first
    | with_reducible assumption | with_reducible apply State.stationInput_keeps
    | (with_reducible apply foldl_keeps <;> intros) | dsimp only | with_reducible apply Keeps.ite | split
    | simp only [Keeps.mk_iff]

theorem State.hostSetpend_keeps {r₀ s₀ : State} (h₀ : Keeps r₀ s₀) (t : Nat) (n : Nat) :
    Keeps r₀ (State.hostSetpend (s := s₀) (t := t) (n := n)) := by
  unfold State.hostSetpend
  repeat' first
    | with_reducible assumption | with_reducible apply State.incSat_keeps | with_reducible apply State.softSet_keeps
    | (with_reducible apply foldl_keeps <;> intros) | dsimp only | with_reducible apply Keeps.ite | split
    | simp only [Keeps.mk_iff]

theorem State.formEntry_keeps {r₀ s₀ : State} (h₀ : Keeps r₀ s₀) (kind : Nat) (nrec : Nat) (port : Nat) (body : List
    Byte) :
    Keeps r₀ (State.formEntry (s := s₀) (kind := kind) (nrec := nrec) (port := port) (body := body)) := by
  unfold State.formEntry
  repeat' first
    | with_reducible assumption | with_reducible apply State.incSat_keeps | with_reducible apply State.resolve_keeps
    | (with_reducible apply foldl_keeps <;> intros) | dsimp only | with_reducible apply Keeps.ite | split
    | simp only [Keeps.mk_iff]

theorem State.element_keeps {r₀ s₀ : State} (h₀ : Keeps r₀ s₀) (p : Nat) (e : Element) :
    Keeps r₀ (State.element (s := s₀) (p := p) (e := e)) := by
  unfold State.element
  repeat' first
    | with_reducible assumption | with_reducible apply State.modPort_keeps
    | (with_reducible apply foldl_keeps <;> intros) | dsimp only | with_reducible apply Keeps.ite | split
    | simp only [Keeps.mk_iff]

theorem State.sessionEntry_keeps {r₀ s₀ : State} (h₀ : Keeps r₀ s₀) (p : Nat) (fin : Bool) :
    Keeps r₀ (State.sessionEntry (s := s₀) (p := p) (fin := fin)) := by
  unfold State.sessionEntry
  repeat' first
    | with_reducible assumption | with_reducible apply State.modPort_keeps
    | with_reducible apply State.formEntry_keeps | (with_reducible apply foldl_keeps <;> intros) | dsimp only
    | with_reducible apply Keeps.ite | split | simp only [Keeps.mk_iff]

theorem State.followSession_keeps {r₀ s₀ : State} (h₀ : Keeps r₀ s₀) (b : List Byte) :
    Keeps r₀ (State.followSession (s := s₀) (b := b)) := by
  unfold State.followSession
  repeat' first
    | with_reducible assumption | with_reducible apply State.modPort_keeps
    | (with_reducible apply foldl_keeps <;> intros) | dsimp only | with_reducible apply Keeps.ite | split
    | simp only [Keeps.mk_iff]

theorem State.sessionBegin_keeps {r₀ s₀ : State} (h₀ : Keeps r₀ s₀) (p : Nat) :
    Keeps r₀ (State.sessionBegin (s := s₀) (p := p)) := by
  unfold State.sessionBegin
  repeat' first
    | with_reducible assumption | with_reducible apply State.modPort_keeps
    | (with_reducible apply foldl_keeps <;> intros) | dsimp only | with_reducible apply Keeps.ite | split
    | simp only [Keeps.mk_iff]

theorem State.genesisEntry_keeps {r₀ s₀ : State} (h₀ : Keeps r₀ s₀) :
    Keeps r₀ (State.genesisEntry (s := s₀)) := by
  unfold State.genesisEntry
  repeat' first
    | with_reducible assumption | with_reducible apply State.formEntry_keeps
    | (with_reducible apply foldl_keeps <;> intros) | dsimp only | with_reducible apply Keeps.ite | split
    | simp only [Keeps.mk_iff]

theorem State.epochEntry_keeps {r₀ s₀ : State} (h₀ : Keeps r₀ s₀) (e : Stamp) :
    Keeps r₀ (State.epochEntry (s := s₀) (e := e)) := by
  unfold State.epochEntry
  repeat' first
    | with_reducible assumption | with_reducible apply State.formEntry_keeps
    | (with_reducible apply foldl_keeps <;> intros) | dsimp only | with_reducible apply Keeps.ite | split
    | simp only [Keeps.mk_iff]

theorem State.calibEntry_keeps {r₀ s₀ : State} (h₀ : Keeps r₀ s₀) (sub : Nat) (old : Nat) (new : Nat) :
    Keeps r₀ (State.calibEntry (s := s₀) (sub := sub) (old := old) (new := new)) := by
  unfold State.calibEntry
  repeat' first
    | with_reducible assumption | with_reducible apply State.formEntry_keeps
    | (with_reducible apply foldl_keeps <;> intros) | dsimp only | with_reducible apply Keeps.ite | split
    | simp only [Keeps.mk_iff]

theorem State.configEntry_keeps {r₀ s₀ : State} (h₀ : Keeps r₀ s₀) (source : Nat) (digest : List Byte) (imageId : Nat) :
    Keeps r₀ (State.configEntry (s := s₀) (source := source) (digest := digest) (imageId := imageId)) := by
  unfold State.configEntry
  repeat' first
    | with_reducible assumption | with_reducible apply State.formEntry_keeps
    | (with_reducible apply foldl_keeps <;> intros) | dsimp only | with_reducible apply Keeps.ite | split
    | simp only [Keeps.mk_iff]

theorem State.pairEntry_keeps {r₀ s₀ : State} (h₀ : Keeps r₀ s₀) (sub : Nat) (otherIdx : Nat) (otherHash : List Byte) :
    Keeps r₀ (State.pairEntry (s := s₀) (sub := sub) (otherIdx := otherIdx) (otherHash := otherHash)) := by
  unfold State.pairEntry
  repeat' first
    | with_reducible assumption | with_reducible apply State.formEntry_keeps
    | (with_reducible apply foldl_keeps <;> intros) | dsimp only | with_reducible apply Keeps.ite | split
    | simp only [Keeps.mk_iff]

theorem State.lapseEntry_keeps {r₀ s₀ : State} (h₀ : Keeps r₀ s₀) (cause : Nat) (notFormed : Nat) (fromIdx : Nat)
    (toIdx : Nat) (sessCut : Nat) (a : Stamp) (b : Stamp) :
    Keeps r₀ (State.lapseEntry (s := s₀) (cause := cause) (notFormed := notFormed) (fromIdx := fromIdx) (toIdx :=
        toIdx) (sessCut := sessCut) (a := a) (b := b)) := by
  unfold State.lapseEntry
  repeat' first
    | with_reducible assumption | with_reducible apply State.wr_keeps | with_reducible apply State.formEntry_keeps
    | (with_reducible apply foldl_keeps <;> intros) | dsimp only | with_reducible apply Keeps.ite | split
    | simp only [Keeps.mk_iff]

theorem State.cut_keeps {r₀ s₀ : State} (h₀ : Keeps r₀ s₀) :
    Keeps r₀ (State.cut (s := s₀)) := by
  unfold State.cut
  repeat' first
    | with_reducible assumption | with_reducible apply State.formEntry_keeps
    | with_reducible apply State.sessionEntry_keeps | (with_reducible apply foldl_keeps <;> intros) | dsimp only
    | with_reducible apply Keeps.ite | split | simp only [Keeps.mk_iff]

theorem State.buildEntry_keeps {r₀ s₀ : State} (h₀ : Keeps r₀ s₀) (e : AlEntry) :
    Keeps r₀ (State.buildEntry (s := s₀) (e := e)) := by
  unfold State.buildEntry
  repeat' first
    | with_reducible assumption | with_reducible apply State.form_keeps
    | (with_reducible apply foldl_keeps <;> intros) | dsimp only | with_reducible apply Keeps.ite | split
    | simp only [Keeps.mk_iff]

theorem State.buildAlmanac_keeps {r₀ s₀ : State} (h₀ : Keeps r₀ s₀) :
    Keeps r₀ (State.buildAlmanac (s := s₀)) := by
  unfold State.buildAlmanac
  repeat' first
    | with_reducible assumption | with_reducible apply State.buildEntry_keeps
    | (with_reducible apply foldl_keeps <;> intros) | dsimp only | with_reducible apply Keeps.ite | split
    | simp only [Keeps.mk_iff]

theorem State.commitEntries_keeps {r₀ s₀ : State} (h₀ : Keeps r₀ s₀) :
    Keeps r₀ (State.commitEntries (s := s₀)) := by
  unfold State.commitEntries
  repeat' first
    | with_reducible assumption | with_reducible apply State.wr_keeps | with_reducible apply State.raiseEvent_keeps
    | (with_reducible apply foldl_keeps <;> intros) | dsimp only | with_reducible apply Keeps.ite | split
    | simp only [Keeps.mk_iff]

theorem alAct_keeps {r₀ s₀ : State} (h₀ : Keeps r₀ s₀) (w : Nat) (d : Word) :
    Keeps r₀ (alAct (s := s₀) (w := w) (d := d)) := by
  unfold alAct
  repeat' first
    | with_reducible assumption | (with_reducible apply foldl_keeps <;> intros) | dsimp only
    | with_reducible apply Keeps.ite | split | simp only [Keeps.mk_iff]

theorem State.askMem0_keeps {r₀ s₀ : State} (h₀ : Keeps r₀ s₀) :
    Keeps r₀ (State.askMem0 (s := s₀)) := by
  unfold State.askMem0
  repeat' first
    | with_reducible assumption | (with_reducible apply foldl_keeps <;> intros) | dsimp only
    | with_reducible apply Keeps.ite | split | simp only [Keeps.mk_iff]

theorem State.touchMem0_keeps {r₀ s₀ : State} (h₀ : Keeps r₀ s₀) :
    Keeps r₀ (State.touchMem0 (s := s₀)) := by
  unfold State.touchMem0
  repeat' first
    | with_reducible assumption | with_reducible apply State.askMem0_keeps
    | (with_reducible apply foldl_keeps <;> intros) | dsimp only | with_reducible apply Keeps.ite | split
    | simp only [Keeps.mk_iff]

theorem State.drive_keeps {r₀ s₀ : State} (h₀ : Keeps r₀ s₀) (q : Nat) (b : Bool) :
    Keeps r₀ (State.drive (s := s₀) (q := q) (b := b)) := by
  unfold State.drive
  repeat' first
    | with_reducible assumption | with_reducible apply State.setPin_keeps | with_reducible apply State.emit_keeps
    | (with_reducible apply foldl_keeps <;> intros) | dsimp only | with_reducible apply Keeps.ite | split
    | simp only [Keeps.mk_iff]

theorem State.setRts_keeps {r₀ s₀ : State} (h₀ : Keeps r₀ s₀) (p : Nat) :
    Keeps r₀ (State.setRts (s := s₀) (p := p)) := by
  unfold State.setRts
  repeat' first
    | with_reducible assumption | with_reducible apply State.setPort_keeps | with_reducible apply State.drive_keeps
    | (with_reducible apply foldl_keeps <;> intros) | dsimp only | with_reducible apply Keeps.ite | split
    | simp only [Keeps.mk_iff]

theorem State.takeDecision_keeps {r₀ s₀ : State} (h₀ : Keeps r₀ s₀) (p : Nat) (stop : Bool) :
    Keeps r₀ (State.takeDecision (s := s₀) (p := p) (stop := stop)) := by
  unfold State.takeDecision
  repeat' first
    | with_reducible assumption | with_reducible apply State.modPort_keeps | with_reducible apply State.setRts_keeps
    | (with_reducible apply foldl_keeps <;> intros) | dsimp only | with_reducible apply Keeps.ite | split
    | simp only [Keeps.mk_iff]

theorem State.compareFlow_keeps {r₀ s₀ : State} (h₀ : Keeps r₀ s₀) (p : Nat) :
    Keeps r₀ (State.compareFlow (s := s₀) (p := p)) := by
  unfold State.compareFlow
  repeat' first
    | with_reducible assumption | with_reducible apply State.modPort_keeps | with_reducible apply State.setRts_keeps
    | (with_reducible apply foldl_keeps <;> intros) | dsimp only | with_reducible apply Keeps.ite | split
    | simp only [Keeps.mk_iff]

theorem State.notePressure_keeps {r₀ s₀ : State} (h₀ : Keeps r₀ s₀) (p : Nat) :
    Keeps r₀ (State.notePressure (s := s₀) (p := p)) := by
  unfold State.notePressure
  repeat' first
    | with_reducible assumption | with_reducible apply State.modPort_keeps
    | (with_reducible apply foldl_keeps <;> intros) | dsimp only | with_reducible apply Keeps.ite | split
    | simp only [Keeps.mk_iff]

theorem State.flowRelease_keeps {r₀ s₀ : State} (h₀ : Keeps r₀ s₀) (p : Nat) :
    Keeps r₀ (State.flowRelease (s := s₀) (p := p)) := by
  unfold State.flowRelease
  repeat' first
    | with_reducible assumption | with_reducible apply State.takeDecision_keeps
    | with_reducible apply State.notePressure_keeps | (with_reducible apply foldl_keeps <;> intros) | dsimp only
    | with_reducible apply Keeps.ite | split | simp only [Keeps.mk_iff]

theorem State.flowConfirm_keeps {r₀ s₀ : State} (h₀ : Keeps r₀ s₀) (p : Nat) :
    Keeps r₀ (State.flowConfirm (s := s₀) (p := p)) := by
  unfold State.flowConfirm
  repeat' first
    | with_reducible assumption | with_reducible apply State.modPort_keeps
    | with_reducible apply State.takeDecision_keeps | with_reducible apply State.notePressure_keeps
    | with_reducible apply State.flowRelease_keeps | (with_reducible apply foldl_keeps <;> intros) | dsimp only
    | with_reducible apply Keeps.ite | split | simp only [Keeps.mk_iff]

theorem State.noteBlock_keeps {r₀ s₀ : State} (h₀ : Keeps r₀ s₀) (p : Nat) (e : BlockEntry) :
    Keeps r₀ (State.noteBlock (s := s₀) (p := p) (e := e)) := by
  unfold State.noteBlock
  repeat' first
    | with_reducible assumption | with_reducible apply State.modPort_keeps
    | (with_reducible apply foldl_keeps <;> intros) | dsimp only | with_reducible apply Keeps.ite | split
    | simp only [Keeps.mk_iff]

theorem State.noteOwn_keeps {r₀ s₀ : State} (h₀ : Keeps r₀ s₀) (p : Nat) (o : Own) :
    Keeps r₀ (State.noteOwn (s := s₀) (p := p) (o := o)) := by
  unfold State.noteOwn
  repeat' first
    | with_reducible assumption | with_reducible apply State.modPort_keeps
    | (with_reducible apply foldl_keeps <;> intros) | dsimp only | with_reducible apply Keeps.ite | split
    | simp only [Keeps.mk_iff]

theorem State.noteMatch_keeps {r₀ s₀ : State} (h₀ : Keeps r₀ s₀) (p : Nat) (e : BlockEntry) :
    Keeps r₀ (State.noteMatch (s := s₀) (p := p) (e := e)) := by
  unfold State.noteMatch
  repeat' first
    | with_reducible assumption | with_reducible apply State.modPort_keeps
    | with_reducible apply State.noteBlock_keeps | (with_reducible apply foldl_keeps <;> intros) | dsimp only
    | with_reducible apply Keeps.ite | split | simp only [Keeps.mk_iff]

theorem State.store_keeps {r₀ s₀ : State} (h₀ : Keeps r₀ s₀) (p : Nat) (kind : EntryKind) (base : Stamp) (space : Nat)
    (isChar : Bool) (streams : List (Nat × Word)) (event : Option Nat) :
    Keeps r₀ (s₀.store p kind base space isChar streams event).2 := by
  unfold State.store
  split
  · exact foldl_keeps_snd _ h₀ (fun s o i h => State.loseEntry_keeps h _ _ _ _ _ _)
  repeat' first
    | with_reducible assumption | with_reducible apply State.modPort_keeps
    | with_reducible apply State.touchMem0_keeps | with_reducible apply State.fresh_keeps
    | with_reducible apply State.takeOrder_keeps | with_reducible apply State.closeLoss_keeps
    | (with_reducible apply foldl_keeps <;> intros) | dsimp only | split

theorem State.storeVarnished_keeps {r₀ s₀ : State} (h₀ : Keeps r₀ s₀) (p : Nat) (k : Nat) (u : Nat) (base : Stamp) :
    Keeps r₀ (State.storeVarnished (s := s₀) (p := p) (k := k) (u := u) (base := base)) := by
  unfold State.storeVarnished
  repeat' first
    | with_reducible assumption | with_reducible apply State.modPort_keeps
    | with_reducible apply State.takeOrder_keeps | (with_reducible apply foldl_keeps <;> intros) | dsimp only
    | with_reducible apply Keeps.ite | split | simp only [Keeps.mk_iff]

theorem State.portEntryNow_keeps {r₀ s₀ : State} (h₀ : Keeps r₀ s₀) (p : Nat) (type : RecType) (base : Stamp) (body
    : List Byte) :
    Keeps r₀ (State.portEntryNow (s := s₀) (p := p) (type := type) (base := base) (body := body)).2 := by
  unfold State.portEntryNow
  repeat' first
    | with_reducible assumption | with_reducible apply State.flowConfirm_keeps
    | with_reducible apply State.noteBlock_keeps | with_reducible apply State.store_keeps
    | (with_reducible apply foldl_keeps <;> intros) | dsimp only | with_reducible apply Keeps.ite | split
    | simp only [Keeps.mk_iff]

theorem State.portEntry_keeps {r₀ s₀ : State} (h₀ : Keeps r₀ s₀) (p : Nat) (type : RecType) (base : Stamp) (body :
    List Byte) :
    Keeps r₀ (State.portEntry (s := s₀) (p := p) (type := type) (base := base) (body := body)).2 := by
  unfold State.portEntry
  repeat' first
    | with_reducible assumption | with_reducible apply State.noteOwn_keeps
    | with_reducible apply State.portEntryNow_keeps | (with_reducible apply foldl_keeps <;> intros) | dsimp only
    | with_reducible apply Keeps.ite | split | simp only [Keeps.mk_iff]

theorem State.rxProfile_keeps {r₀ s₀ : State} (h₀ : Keeps r₀ s₀) (p : Nat) (stamp : Stamp) :
    Keeps r₀ (State.rxProfile (s := s₀) (p := p) (stamp := stamp)) := by
  unfold State.rxProfile
  repeat' first
    | with_reducible assumption | with_reducible apply State.portEntry_keeps
    | (with_reducible apply foldl_keeps <;> intros) | dsimp only | with_reducible apply Keeps.ite | split
    | simp only [Keeps.mk_iff]

theorem State.freeEntries_keeps {r₀ s₀ : State} (h₀ : Keeps r₀ s₀) :
    Keeps r₀ (State.freeEntries (s := s₀)) := by
  unfold State.freeEntries
  repeat' first
    | with_reducible assumption | with_reducible apply State.modPort_keeps
    | with_reducible apply State.touchMem0_keeps | with_reducible apply State.notePressure_keeps
    | with_reducible apply State.flowRelease_keeps | (with_reducible apply foldl_keeps <;> intros) | dsimp only
    | with_reducible apply Keeps.ite | split | simp only [Keeps.mk_iff]

theorem State.formProv_keeps {r₀ s₀ : State} (h₀ : Keeps r₀ s₀) (p : Nat) (lane : Nat) (xs : List Shown) :
    Keeps r₀ (State.formProv (s := s₀) (p := p) (lane := lane) (xs := xs)) := by
  unfold State.formProv
  repeat' first
    | with_reducible assumption | with_reducible apply State.fresh_keeps | with_reducible apply State.takeOrder_keeps
    | (with_reducible apply foldl_keeps <;> intros) | dsimp only | with_reducible apply Keeps.ite | split
    | simp only [Keeps.mk_iff]

theorem State.dropProv_keeps {r₀ s₀ : State} (h₀ : Keeps r₀ s₀) (p : Nat) :
    Keeps r₀ (State.dropProv (s := s₀) (p := p)) := by
  unfold State.dropProv
  repeat' first
    | with_reducible assumption | (with_reducible apply foldl_keeps <;> intros) | dsimp only
    | with_reducible apply Keeps.ite | split | simp only [Keeps.mk_iff]

theorem State.settleEntry_keeps {r₀ s₀ : State} (h₀ : Keeps r₀ s₀) (p : Nat) (type : RecType) (seq : Word) (base :
    Stamp) (bodies : List (Nat × List Byte)) :
    Keeps r₀ (State.settleEntry (s := s₀) (p := p) (type := type) (seq := seq) (base := base) (bodies := bodies)).2
        := by
  unfold State.settleEntry
  repeat' first
    | with_reducible assumption | with_reducible apply State.flowConfirm_keeps
    | with_reducible apply State.store_keeps | (with_reducible apply foldl_keeps <;> intros) | dsimp only
    | with_reducible apply Keeps.ite | split | simp only [Keeps.mk_iff]

theorem State.countEvent_keeps {r₀ s₀ : State} (h₀ : Keeps r₀ s₀) (m : Move) (f : Fld) (p : Nat) (n : Nat) (u :
    Option Nat) :
    Keeps r₀ (State.countEvent (s := s₀) (m := m) (f := f) (p := p) (n := n) (u := u)) := by
  unfold State.countEvent
  repeat' first
    | with_reducible assumption | with_reducible apply State.count_keeps | with_reducible apply State.countPort_keeps
    | (with_reducible apply foldl_keeps <;> intros) | dsimp only | with_reducible apply Keeps.ite | split
    | simp only [Keeps.mk_iff]

theorem State.settleEnd_keeps {r₀ s₀ : State} (h₀ : Keeps r₀ s₀) (p : Nat) (reason : Nat) (base : Stamp) (stamp :
    Stamp) (shown : List Shown) :
    Keeps r₀ (State.settleEnd (s := s₀) (p := p) (reason := reason) (base := base) (stamp := stamp) (shown :=
        shown)) := by
  unfold State.settleEnd
  repeat' first
    | with_reducible assumption | with_reducible apply State.settleEntry_keeps
    | with_reducible apply State.countEvent_keeps | (with_reducible apply foldl_keeps <;> intros) | dsimp only
    | with_reducible apply Keeps.ite | split | simp only [Keeps.mk_iff]

theorem State.endAcquisition_keeps {r₀ s₀ : State} (h₀ : Keeps r₀ s₀) (p : Nat) (reason : Nat) (base : Stamp) :
    Keeps r₀ (State.endAcquisition (s := s₀) (p := p) (reason := reason) (base := base)) := by
  unfold State.endAcquisition
  repeat' first
    | with_reducible assumption | with_reducible apply State.modPort_keeps | with_reducible apply State.emit_keeps
    | with_reducible apply State.dropProv_keeps | with_reducible apply State.settleEnd_keeps
    | (with_reducible apply foldl_keeps <;> intros) | dsimp only | with_reducible apply Keeps.ite | split
    | simp only [Keeps.mk_iff]

theorem State.abandon_keeps {r₀ s₀ : State} (h₀ : Keeps r₀ s₀) (p : Nat) :
    Keeps r₀ (State.abandon (s := s₀) (p := p)) := by
  unfold State.abandon
  repeat' first
    | with_reducible assumption | with_reducible apply State.endAcquisition_keeps
    | (with_reducible apply foldl_keeps <;> intros) | dsimp only | with_reducible apply Keeps.ite | split
    | simp only [Keeps.mk_iff]

theorem State.txDone_keeps {r₀ s₀ : State} (h₀ : Keeps r₀ s₀) (p : Nat) (d : Desc) (status : Nat) (cause : Nat) (sd
    : Option Sending) :
    Keeps r₀ (State.txDone (s := s₀) (p := p) (d := d) (status := status) (cause := cause) (sd := sd)) := by
  unfold State.txDone
  repeat' first
    | with_reducible assumption | with_reducible apply State.count_keeps | with_reducible apply State.formTx_keeps
    | with_reducible apply State.launch_keeps | (with_reducible apply foldl_keeps <;> intros) | dsimp only
    | with_reducible apply Keeps.ite | split | simp only [Keeps.mk_iff]

theorem State.echo_keeps {r₀ s₀ : State} (h₀ : Keeps r₀ s₀) (p : Nat) (d : Desc) (c : BitVec 9) (addr : Bool) (stamp
    : Stamp) :
    Keeps r₀ (State.echo (s := s₀) (p := p) (d := d) (c := c) (addr := addr) (stamp := stamp)).2 := by
  unfold State.echo
  repeat' first
    | with_reducible assumption | with_reducible apply State.formTx_keeps
    | (with_reducible apply foldl_keeps <;> intros) | dsimp only | with_reducible apply Keeps.ite | split
    | simp only [Keeps.mk_iff]

theorem State.cueRecord_keeps {r₀ s₀ : State} (h₀ : Keeps r₀ s₀) (p : Nat) (rule : Nat) (kind : Nat) (late : Bool)
    (held : Bool) (code : Nat) (rlen : Nat) (rstamp : Stamp) (m : Chr) (partner : Nat) (seq : Word) (uid : Option Nat) :
    Keeps r₀ (State.cueRecord (s := s₀) (p := p) (rule := rule) (kind := kind) (late := late) (held := held) (code
        := code) (rlen := rlen) (rstamp := rstamp) (m := m) (partner := partner) (seq := seq) (uid := uid)).2 := by
  unfold State.cueRecord
  repeat' first
    | with_reducible assumption | with_reducible apply State.flowConfirm_keeps
    | with_reducible apply State.store_keeps | (with_reducible apply foldl_keeps <;> intros) | dsimp only
    | with_reducible apply Keeps.ite | split | simp only [Keeps.mk_iff]

theorem State.countDropped_keeps {r₀ s₀ : State} (h₀ : Keeps r₀ s₀) (p : Nat) (n : Nat) :
    Keeps r₀ (State.countDropped (s := s₀) (p := p) (n := n)) := by
  unfold State.countDropped
  repeat' first
    | with_reducible assumption | with_reducible apply State.countPort_keeps
    | (with_reducible apply foldl_keeps <;> intros) | dsimp only | with_reducible apply Keeps.ite | split
    | simp only [Keeps.mk_iff]

theorem State.dropReplies_keeps {r₀ s₀ : State} (h₀ : Keeps r₀ s₀) (p : Nat) :
    Keeps r₀ (State.dropReplies (s := s₀) (p := p)) := by
  unfold State.dropReplies
  repeat' first
    | with_reducible assumption | with_reducible apply State.modPort_keeps | with_reducible apply State.rewait_keeps
    | with_reducible apply State.countDropped_keeps | (with_reducible apply foldl_keeps <;> intros) | dsimp only
    | with_reducible apply Keeps.ite | split | simp only [Keeps.mk_iff]

theorem State.emitFrame_keeps {r₀ s₀ : State} (h₀ : Keeps r₀ s₀) (p : Nat) (cut : Option Stamp) :
    Keeps r₀ (State.emitFrame (s := s₀) (p := p) (cut := cut)) := by
  unfold State.emitFrame
  repeat' first
    | with_reducible assumption | with_reducible apply State.emit_keeps | with_reducible apply State.cut_keeps
    | (with_reducible apply foldl_keeps <;> intros) | dsimp only | with_reducible apply Keeps.ite | split
    | simp only [Keeps.mk_iff]

theorem State.endJob_keeps {r₀ s₀ : State} (h₀ : Keeps r₀ s₀) (p : Nat) (status : Nat) (cause : Nat) :
    Keeps r₀ (State.endJob (s := s₀) (p := p) (status := status) (cause := cause)) := by
  unfold State.endJob
  repeat' first
    | with_reducible assumption | with_reducible apply State.modPort_keeps | with_reducible apply State.settle_keeps
    | with_reducible apply State.rewait_keeps | with_reducible apply State.txDone_keeps
    | with_reducible apply State.cueRecord_keeps | (with_reducible apply foldl_keeps <;> intros) | dsimp only
    | with_reducible apply Keeps.ite | split | simp only [Keeps.mk_iff]

theorem State.endQueue_keeps {r₀ s₀ : State} (h₀ : Keeps r₀ s₀) (p : Nat) (status : Nat) :
    Keeps r₀ (State.endQueue (s := s₀) (p := p) (status := status)) := by
  unfold State.endQueue
  repeat' first
    | with_reducible assumption | with_reducible apply State.modPort_keeps | with_reducible apply State.txDone_keeps
    | (with_reducible apply foldl_keeps <;> intros) | dsimp only | with_reducible apply Keeps.ite | split
    | simp only [Keeps.mk_iff]

theorem State.stopTx_keeps {r₀ s₀ : State} (h₀ : Keeps r₀ s₀) (p : Nat) (status : Nat) (into : TxState) :
    Keeps r₀ (State.stopTx (s := s₀) (p := p) (status := status) (into := into)) := by
  unfold State.stopTx
  repeat' first
    | with_reducible assumption | with_reducible apply State.modPort_keeps
    | with_reducible apply State.dropReplies_keeps | with_reducible apply State.emitFrame_keeps
    | with_reducible apply State.endJob_keeps | with_reducible apply State.endQueue_keeps
    | (with_reducible apply foldl_keeps <;> intros) | dsimp only | with_reducible apply Keeps.ite | split
    | simp only [Keeps.mk_iff]

theorem State.startTx_keeps {r₀ s₀ : State} (h₀ : Keeps r₀ s₀) (p : Nat) :
    Keeps r₀ (State.startTx (s := s₀) (p := p)) := by
  unfold State.startTx
  repeat' first
    | with_reducible assumption | with_reducible apply State.modPort_keeps
    | (with_reducible apply foldl_keeps <;> intros) | dsimp only | with_reducible apply Keeps.ite | split
    | simp only [Keeps.mk_iff]

theorem State.startRx_keeps {r₀ s₀ : State} (h₀ : Keeps r₀ s₀) (p : Nat) :
    Keeps r₀ (State.startRx (s := s₀) (p := p)) := by
  unfold State.startRx
  repeat' first
    | with_reducible assumption | with_reducible apply State.modPin_keeps | with_reducible apply State.modPort_keeps
    | with_reducible apply State.fresh_keeps | with_reducible apply State.setRts_keeps
    | (with_reducible apply foldl_keeps <;> intros) | dsimp only | with_reducible apply Keeps.ite | split
    | simp only [Keeps.mk_iff]

theorem State.stopRx_keeps {r₀ s₀ : State} (h₀ : Keeps r₀ s₀) (p : Nat) (into : RxState) :
    Keeps r₀ (State.stopRx (s := s₀) (p := p) (into := into)) := by
  unfold State.stopRx
  repeat' first
    | with_reducible assumption | with_reducible apply State.modPort_keeps | with_reducible apply State.setRts_keeps
    | with_reducible apply State.abandon_keeps | (with_reducible apply foldl_keeps <;> intros) | dsimp only
    | with_reducible apply Keeps.ite | split | simp only [Keeps.mk_iff]

theorem State.wakeOct_keeps {r₀ s₀ : State} (h₀ : Keeps r₀ s₀) (o : Nat) (cause : Nat) :
    Keeps r₀ (State.wakeOct (s := s₀) (o := o) (cause := cause)) := by
  unfold State.wakeOct
  repeat' first
    | with_reducible assumption | with_reducible apply State.setOct_keeps
    | (with_reducible apply foldl_keeps <;> intros) | dsimp only | with_reducible apply Keeps.ite | split
    | simp only [Keeps.mk_iff]

theorem State.octActive_keeps {r₀ s₀ : State} (h₀ : Keeps r₀ s₀) (o : Nat) :
    Keeps r₀ (State.octActive (s := s₀) (o := o)) := by
  unfold State.octActive
  repeat' first
    | with_reducible assumption | with_reducible apply State.modOct_keeps
    | (with_reducible apply foldl_keeps <;> intros) | dsimp only | with_reducible apply Keeps.ite | split
    | simp only [Keeps.mk_iff]

theorem State.gainInput_keeps {r₀ s₀ : State} (h₀ : Keeps r₀ s₀) (q : Nat) :
    Keeps r₀ (State.gainInput (s := s₀) (q := q)) := by
  unfold State.gainInput
  repeat' first
    | with_reducible assumption | with_reducible apply State.stationInput_keeps
    | (with_reducible apply foldl_keeps <;> intros) | dsimp only | with_reducible apply Keeps.ite | split
    | simp only [Keeps.mk_iff]

theorem State.loseFunction_keeps {r₀ s₀ : State} (h₀ : Keeps r₀ s₀) (q : Nat) :
    Keeps r₀ (State.loseFunction (s := s₀) (q := q)) := by
  unfold State.loseFunction
  repeat' first
    | with_reducible assumption | with_reducible apply State.stopTx_keeps | with_reducible apply State.stopRx_keeps
    | (with_reducible apply foldl_keeps <;> intros) | dsimp only | with_reducible apply Keeps.ite | split
    | simp only [Keeps.mk_iff]

theorem State.cuGains_keeps {r₀ s₀ : State} (h₀ : Keeps r₀ s₀) (q : Nat) :
    Keeps r₀ (State.cuGains (s := s₀) (q := q)) := by
  unfold State.cuGains
  repeat' first
    | with_reducible assumption | with_reducible apply State.modCu_keeps
    | (with_reducible apply foldl_keeps <;> intros) | dsimp only | with_reducible apply Keeps.ite | split
    | simp only [Keeps.mk_iff]

theorem State.gainFunction_keeps {r₀ s₀ : State} (h₀ : Keeps r₀ s₀) (q : Nat) :
    Keeps r₀ (State.gainFunction (s := s₀) (q := q)) := by
  unfold State.gainFunction
  repeat' first
    | with_reducible assumption | with_reducible apply State.startTx_keeps | with_reducible apply State.startRx_keeps
    | with_reducible apply State.gainInput_keeps | with_reducible apply State.cuGains_keeps
    | (with_reducible apply foldl_keeps <;> intros) | dsimp only | with_reducible apply Keeps.ite | split
    | simp only [Keeps.mk_iff]

theorem State.switchPin_keeps {r₀ s₀ : State} (h₀ : Keeps r₀ s₀) (q : Nat) (new : Owner) :
    Keeps r₀ (State.switchPin (s := s₀) (q := q) (new := new)) := by
  unfold State.switchPin
  repeat' first
    | with_reducible assumption | with_reducible apply State.modPin_keeps
    | with_reducible apply State.loseFunction_keeps | with_reducible apply State.gainFunction_keeps
    | (with_reducible apply foldl_keeps <;> intros) | dsimp only | with_reducible apply Keeps.ite | split
    | simp only [Keeps.mk_iff]

theorem State.resolvePin_keeps {r₀ s₀ : State} (h₀ : Keeps r₀ s₀) (q : Nat) :
    Keeps r₀ (State.resolvePin (s := s₀) (q := q)) := by
  unfold State.resolvePin
  repeat' first
    | with_reducible assumption | with_reducible apply State.setPin_keeps | with_reducible apply State.modPort_keeps
    | with_reducible apply State.switchPin_keeps | (with_reducible apply foldl_keeps <;> intros) | dsimp only
    | with_reducible apply Keeps.ite | split | simp only [Keeps.mk_iff]

theorem State.resolve_keeps {r₀ s₀ : State} (h₀ : Keeps r₀ s₀) (st : Nat) :
    Keeps r₀ (State.resolve (s := s₀) (st := st)) := by
  unfold State.resolve
  repeat' first
    | with_reducible assumption | with_reducible apply State.resolvePin_keeps
    | (with_reducible apply foldl_keeps <;> intros) | dsimp only | with_reducible apply Keeps.ite | split
    | simp only [Keeps.mk_iff]

theorem State.landPin_keeps {r₀ s₀ : State} (h₀ : Keeps r₀ s₀) (q : Nat) :
    Keeps r₀ (State.landPin (s := s₀) (q := q)) := by
  unfold State.landPin
  repeat' first
    | with_reducible assumption | with_reducible apply State.modPin_keeps | with_reducible apply State.emit_keeps
    | with_reducible apply State.drive_keeps | (with_reducible apply foldl_keeps <;> intros) | dsimp only
    | with_reducible apply Keeps.ite | split | simp only [Keeps.mk_iff]

theorem State.holdOct_keeps {r₀ s₀ : State} (h₀ : Keeps r₀ s₀) (o : Nat) :
    Keeps r₀ (State.holdOct (s := s₀) (o := o)) := by
  unfold State.holdOct
  repeat' first
    | with_reducible assumption | (with_reducible apply foldl_keeps <;> intros) | dsimp only
    | with_reducible apply Keeps.ite | split | simp only [Keeps.mk_iff]

theorem State.unholdOct_keeps {r₀ s₀ : State} (h₀ : Keeps r₀ s₀) (o : Nat) :
    Keeps r₀ (State.unholdOct (s := s₀) (o := o)) := by
  unfold State.unholdOct
  repeat' first
    | with_reducible assumption | (with_reducible apply foldl_keeps <;> intros) | dsimp only
    | with_reducible apply Keeps.ite | split | simp only [Keeps.mk_iff]

theorem State.applyPinCfg_keeps {r₀ s₀ : State} (h₀ : Keeps r₀ s₀) (q : Nat) (v : Word) :
    Keeps r₀ (State.applyPinCfg (s := s₀) (q := q) (v := v)) := by
  unfold State.applyPinCfg
  repeat' first
    | with_reducible assumption | with_reducible apply State.modPin_keeps | with_reducible apply State.emit_keeps
    | with_reducible apply State.drive_keeps | (with_reducible apply foldl_keeps <;> intros) | dsimp only
    | with_reducible apply Keeps.ite | split | simp only [Keeps.mk_iff]

theorem State.afterFlight_keeps {r₀ s₀ : State} (h₀ : Keeps r₀ s₀) (p : Nat) :
    Keeps r₀ (State.afterFlight (s := s₀) (p := p)) := by
  unfold State.afterFlight
  repeat' first
    | with_reducible assumption | with_reducible apply State.resolve_keeps
    | with_reducible apply State.applyPinCfg_keeps | (with_reducible apply foldl_keeps <;> intros) | dsimp only
    | with_reducible apply Keeps.ite | split | simp only [Keeps.mk_iff]

theorem State.gpioOut_keeps {r₀ s₀ : State} (h₀ : Keeps r₀ s₀) (q : Nat) (b : Bool) :
    Keeps r₀ (State.gpioOut (s := s₀) (q := q) (b := b)) := by
  unfold State.gpioOut
  repeat' first
    | with_reducible assumption | with_reducible apply State.wr_keeps | with_reducible apply State.drive_keeps
    | (with_reducible apply foldl_keeps <;> intros) | dsimp only | with_reducible apply Keeps.ite | split
    | simp only [Keeps.mk_iff]

theorem State.loadCodes_keeps {r₀ s₀ : State} (h₀ : Keeps r₀ s₀) (g : Nat) :
    Keeps r₀ (State.loadCodes (s := s₀) (g := g)) := by
  unfold State.loadCodes
  repeat' first
    | with_reducible assumption | with_reducible apply State.modGroup_keeps
    | (with_reducible apply foldl_keeps <;> intros) | dsimp only | with_reducible apply Keeps.ite | split
    | simp only [Keeps.mk_iff]

theorem State.startSpan_keeps {r₀ s₀ : State} (h₀ : Keeps r₀ s₀) (g : Nat) :
    Keeps r₀ (State.startSpan (s := s₀) (g := g)) := by
  unfold State.startSpan
  repeat' first
    | with_reducible assumption | with_reducible apply State.modGroup_keeps | with_reducible apply State.wakeOct_keeps
    | (with_reducible apply foldl_keeps <;> intros) | dsimp only | with_reducible apply Keeps.ite | split
    | simp only [Keeps.mk_iff]

theorem State.safeLevels_keeps {r₀ s₀ : State} (h₀ : Keeps r₀ s₀) (o : Nat) :
    Keeps r₀ (State.safeLevels (s := s₀) (o := o)) := by
  unfold State.safeLevels
  repeat' first
    | with_reducible assumption | with_reducible apply State.modGroup_keeps
    | (with_reducible apply foldl_keeps <;> intros) | dsimp only | with_reducible apply Keeps.ite | split
    | simp only [Keeps.mk_iff]

theorem State.restoreLevels_keeps {r₀ s₀ : State} (h₀ : Keeps r₀ s₀) (o : Nat) :
    Keeps r₀ (State.restoreLevels (s := s₀) (o := o)) := by
  unfold State.restoreLevels
  repeat' first
    | with_reducible assumption | with_reducible apply State.modGroup_keeps
    | with_reducible apply State.loadCodes_keeps | (with_reducible apply foldl_keeps <;> intros) | dsimp only
    | with_reducible apply Keeps.ite | split | simp only [Keeps.mk_iff]

theorem stApply_keeps {r₀ s₀ : State} (h₀ : Keeps r₀ s₀) (i : Nat) (w : Nat) (old : Word) :
    Keeps r₀ (stApply (s := s₀) (i := i) (w := w) (old := old)) := by
  unfold stApply
  repeat' first
    | with_reducible assumption | with_reducible apply State.modPin_keeps | with_reducible apply State.drive_keeps
    | with_reducible apply State.wakeOct_keeps | with_reducible apply State.resolve_keeps
    | with_reducible apply State.applyPinCfg_keeps | with_reducible apply State.gpioOut_keeps
    | with_reducible apply State.loadCodes_keeps | with_reducible apply State.startSpan_keeps
    | (with_reducible apply foldl_keeps <;> intros) | dsimp only | with_reducible apply Keeps.ite | split
    | simp only [Keeps.mk_iff]

theorem State.unhold_keeps {r₀ s₀ : State} (h₀ : Keeps r₀ s₀) (q : Nat) :
    Keeps r₀ (State.unhold (s := s₀) (q := q)) := by
  unfold State.unhold
  repeat' first
    | with_reducible assumption | with_reducible apply State.modPin_keeps
    | (with_reducible apply foldl_keeps <;> intros) | dsimp only | with_reducible apply Keeps.ite | split
    | simp only [Keeps.mk_iff]

theorem stAct_keeps {r₀ s₀ : State} (h₀ : Keeps r₀ s₀) (i : Nat) (w : Nat) (d : Word) :
    Keeps r₀ (stAct (s := s₀) (i := i) (w := w) (d := d)) := by
  unfold stAct
  repeat' first
    | with_reducible assumption | with_reducible apply State.wakeOct_keeps | with_reducible apply State.unhold_keeps
    | (with_reducible apply foldl_keeps <;> intros) | dsimp only | with_reducible apply Keeps.ite | split
    | simp only [Keeps.mk_iff]

theorem State.spanStep_keeps {r₀ s₀ : State} (h₀ : Keeps r₀ s₀) (g n at_ : Nat) (f : State → State)
    (hf : ∀ s, Keeps r₀ s → Keeps r₀ (f s)) : Keeps r₀ (s₀.spanStep g n at_ f) := by
  unfold State.spanStep
  repeat' first
    | with_reducible assumption | with_reducible apply State.modGroup_keeps | with_reducible apply State.advance_keeps
    | dsimp only | split | (with_reducible apply hf)

theorem State.trigger_keeps {r₀ s₀ : State} (h₀ : Keeps r₀ s₀) (q : Nat) (edge : Nat) (met : List Met) :
    Keeps r₀ (State.trigger (s := s₀) (q := q) (edge := edge) (met := met)) := by
  unfold State.trigger
  repeat' first
    | with_reducible assumption | with_reducible apply State.setMon_keeps | with_reducible apply State.incSat_keeps
    | (with_reducible apply foldl_keeps <;> intros) | dsimp only | with_reducible apply Keeps.ite | split
    | simp only [Keeps.mk_iff]

theorem State.askMem1_keeps {r₀ s₀ : State} (h₀ : Keeps r₀ s₀) :
    Keeps r₀ (State.askMem1 (s := s₀)) := by
  unfold State.askMem1
  repeat' first
    | with_reducible assumption | (with_reducible apply foldl_keeps <;> intros) | dsimp only
    | with_reducible apply Keeps.ite | split | simp only [Keeps.mk_iff]

theorem State.touchMem1_keeps {r₀ s₀ : State} (h₀ : Keeps r₀ s₀) :
    Keeps r₀ (State.touchMem1 (s := s₀)) := by
  unfold State.touchMem1
  repeat' first
    | with_reducible assumption | with_reducible apply State.askMem1_keeps
    | (with_reducible apply foldl_keeps <;> intros) | dsimp only | with_reducible apply Keeps.ite | split
    | simp only [Keeps.mk_iff]

theorem State.arm_keeps {r₀ s₀ : State} (h₀ : Keeps r₀ s₀) (q : Nat) :
    Keeps r₀ (State.arm (s := s₀) (q := q)) := by
  unfold State.arm
  repeat' first
    | with_reducible assumption | with_reducible apply State.modMon_keeps | with_reducible apply State.wakeOct_keeps
    | with_reducible apply State.touchMem1_keeps | (with_reducible apply foldl_keeps <;> intros) | dsimp only
    | with_reducible apply Keeps.ite | split | simp only [Keeps.mk_iff]

theorem State.monRests_keeps {r₀ s₀ : State} (h₀ : Keeps r₀ s₀) (before : State) (q : Nat) :
    Keeps r₀ (State.monRests before s₀ q) := by
  unfold State.monRests
  repeat' first
    | with_reducible assumption | with_reducible apply State.touchMem1_keeps
    | with_reducible apply State.octActive_keeps | split

theorem State.disarm_keeps {r₀ s₀ : State} (h₀ : Keeps r₀ s₀) (q : Nat) :
    Keeps r₀ (State.disarm (s := s₀) (q := q)) := by
  unfold State.disarm
  repeat' first
    | with_reducible assumption | with_reducible apply State.modMon_keeps | with_reducible apply State.monRests_keeps
    | (with_reducible apply foldl_keeps <;> intros) | dsimp only | with_reducible apply Keeps.ite | split
    | simp only [Keeps.mk_iff]

theorem State.force_keeps {r₀ s₀ : State} (h₀ : Keeps r₀ s₀) (q : Nat) :
    Keeps r₀ (State.force (s := s₀) (q := q)) := by
  unfold State.force
  repeat' first
    | with_reducible assumption | with_reducible apply State.trigger_keeps
    | (with_reducible apply foldl_keeps <;> intros) | dsimp only | with_reducible apply Keeps.ite | split
    | simp only [Keeps.mk_iff]

theorem State.captureRecord_keeps {r₀ s₀ : State} (h₀ : Keeps r₀ s₀) (base : Stamp) (q : Nat) (status : Nat) (cause
    : Nat) (mask : Nat) (rate : Nat) (segidx : Nat) (aofs : Nat) (len : Nat) (skip : Nat) (pseq : Word) (lostseg : Nat)
    (detail : Nat) :
    Keeps r₀ (State.captureRecord (s := s₀) (base := base) (q := q) (status := status) (cause := cause) (mask :=
        mask) (rate := rate) (segidx := segidx) (aofs := aofs) (len := len) (skip := skip) (pseq := pseq) (lostseg :=
        lostseg) (detail := detail)).2 := by
  unfold State.captureRecord
  repeat' first
    | with_reducible assumption | with_reducible apply State.form_keeps
    | (with_reducible apply foldl_keeps <;> intros) | dsimp only | with_reducible apply Keeps.ite | split
    | simp only [Keeps.mk_iff]

theorem State.extentFor_keeps {r₀ s₀ t : State} (h₀ : Keeps r₀ s₀) (g : Segment) (e : s₀.extentFor g = some t) :
    Keeps r₀ t := by
  unfold State.extentFor at e
  dsimp only at e
  rw [Option.ite_none_right_eq_some] at e
  rw [← Option.some.inj e.2]
  simp only [Keeps.mk_iff]
  exact h₀

theorem State.giveExtents_keeps {r₀ s₀ : State} (h₀ : Keeps r₀ s₀) : Keeps r₀ s₀.giveExtents := by
  unfold State.giveExtents
  refine foldl_keeps_snd _ h₀ (fun s o g h => ?_)
  dsimp only
  split
  · split
    · rename_i e
      exact State.extentFor_keeps h g e
    · exact h
  · exact h

theorem State.afterCapture_keeps {r₀ s₀ : State} (h₀ : Keeps r₀ s₀) (q : Nat) :
    Keeps r₀ (State.afterCapture (s := s₀) (q := q)) := by
  unfold State.afterCapture
  repeat' first
    | with_reducible assumption | with_reducible apply State.modMon_keeps | with_reducible apply State.monRests_keeps
    | (with_reducible apply foldl_keeps <;> intros) | dsimp only | with_reducible apply Keeps.ite | split
    | simp only [Keeps.mk_iff]

theorem State.completeSegment_keeps {r₀ s₀ : State} (h₀ : Keeps r₀ s₀) (g : Segment) :
    Keeps r₀ (State.completeSegment (s := s₀) (g := g)) := by
  unfold State.completeSegment
  repeat' first
    | with_reducible assumption | with_reducible apply State.touchMem1_keeps
    | (with_reducible apply foldl_keeps <;> intros) | dsimp only | with_reducible apply Keeps.ite | split
    | simp only [Keeps.mk_iff]

theorem State.reportArm_keeps {r₀ s₀ : State} (h₀ : Keeps r₀ s₀) (q : Nat) :
    Keeps r₀ (State.reportArm (s := s₀) (q := q)) := by
  unfold State.reportArm
  repeat' first
    | with_reducible assumption | with_reducible apply State.emit_keeps
    | (with_reducible apply foldl_keeps <;> intros) | dsimp only | with_reducible apply Keeps.ite | split
    | simp only [Keeps.mk_iff]

theorem State.cutCaptures_keeps {r₀ s₀ : State} (h₀ : Keeps r₀ s₀) (p : Nat → Bool) :
    Keeps r₀ (State.cutCaptures (s := s₀) (p := p)) := by
  unfold State.cutCaptures
  repeat' first
    | with_reducible assumption | with_reducible apply State.modMon_keeps
    | with_reducible apply State.completeSegment_keeps | with_reducible apply State.reportArm_keeps
    | (with_reducible apply foldl_keeps <;> intros) | dsimp only | with_reducible apply Keeps.ite | split
    | simp only [Keeps.mk_iff]

theorem State.decline_keeps {r₀ s₀ : State} (h₀ : Keeps r₀ s₀) (q : Nat) (t : Trigger) (cause : Nat) :
    Keeps r₀ (State.decline (s := s₀) (q := q) (t := t) (cause := cause)) := by
  unfold State.decline
  repeat' first
    | with_reducible assumption | with_reducible apply State.modMon_keeps | with_reducible apply State.wr_keeps
    | with_reducible apply State.count_keeps | with_reducible apply State.raiseEvent_keeps
    | with_reducible apply State.captureRecord_keeps | with_reducible apply State.reportArm_keeps
    | (with_reducible apply foldl_keeps <;> intros) | dsimp only | with_reducible apply Keeps.ite | split
    | simp only [Keeps.mk_iff]

theorem State.admitTrigger_keeps {r₀ s₀ : State} (h₀ : Keeps r₀ s₀) (q : Nat) (t : Trigger) :
    Keeps r₀ (State.admitTrigger (s := s₀) (q := q) (t := t)) := by
  unfold State.admitTrigger
  repeat' first
    | with_reducible assumption | with_reducible apply State.setMon_keeps
    | with_reducible apply State.giveExtents_keeps | with_reducible apply State.reportArm_keeps
    | (with_reducible apply foldl_keeps <;> intros) | dsimp only | with_reducible apply Keeps.ite | split
    | simp only [Keeps.mk_iff]

theorem State.upload_keeps {r₀ s₀ : State} (h₀ : Keeps r₀ s₀) (g : Segment) :
    Keeps r₀ (State.upload (s := s₀) (g := g)) := by
  unfold State.upload
  repeat' first
    | with_reducible assumption | with_reducible apply State.fresh_keeps | with_reducible apply State.touchMem1_keeps
    | (with_reducible apply foldl_keeps <;> intros) | dsimp only | with_reducible apply Keeps.ite | split
    | simp only [Keeps.mk_iff]

theorem State.commitSegment_keeps {r₀ s₀ : State} (h₀ : Keeps r₀ s₀) (g : Segment) :
    Keeps r₀ (State.commitSegment (s := s₀) (g := g)) := by
  unfold State.commitSegment
  repeat' first
    | with_reducible assumption | with_reducible apply State.count_keeps
    | with_reducible apply State.captureRecord_keeps | (with_reducible apply foldl_keeps <;> intros) | dsimp only
    | with_reducible apply Keeps.ite | split | simp only [Keeps.mk_iff]

theorem State.freeExtents_keeps {r₀ s₀ : State} (h₀ : Keeps r₀ s₀) (n : Nat) :
    Keeps r₀ (State.freeExtents (s := s₀) (n := n)) := by
  unfold State.freeExtents
  repeat' first
    | with_reducible assumption | with_reducible apply State.giveExtents_keeps
    | (with_reducible apply foldl_keeps <;> intros) | dsimp only | with_reducible apply Keeps.ite | split
    | simp only [Keeps.mk_iff]

theorem lmAct_keeps {r₀ s₀ : State} (h₀ : Keeps r₀ s₀) (q : Nat) (w : Nat) (d : Word) :
    Keeps r₀ (lmAct (s := s₀) (q := q) (w := w) (d := d)) := by
  unfold lmAct
  repeat' first
    | with_reducible assumption | with_reducible apply State.arm_keeps | with_reducible apply State.disarm_keeps
    | with_reducible apply State.force_keeps | (with_reducible apply foldl_keeps <;> intros) | dsimp only
    | with_reducible apply Keeps.ite | split | simp only [Keeps.mk_iff]

theorem State.setAlert_keeps {r₀ s₀ : State} (h₀ : Keeps r₀ s₀) (p : Nat) (f : Fld) (source : Nat) :
    Keeps r₀ (State.setAlert (s := s₀) (p := p) (f := f) (source := source)) := by
  unfold State.setAlert
  repeat' first
    | with_reducible assumption | with_reducible apply State.wr_keeps | with_reducible apply State.eventRecord_keeps
    | with_reducible apply State.srcLevel_keeps | (with_reducible apply foldl_keeps <;> intros) | dsimp only
    | with_reducible apply Keeps.ite | split | simp only [Keeps.mk_iff]

theorem State.refreshAlerts_keeps {r₀ s₀ : State} (h₀ : Keeps r₀ s₀) :
    Keeps r₀ (State.refreshAlerts (s := s₀)) := by
  unfold State.refreshAlerts
  repeat' first
    | with_reducible assumption | with_reducible apply State.srcLevel_keeps
    | (with_reducible apply foldl_keeps <;> intros) | dsimp only | with_reducible apply Keeps.ite | split
    | simp only [Keeps.mk_iff]

theorem State.wakeByPin_keeps {r₀ s₀ : State} (h₀ : Keeps r₀ s₀) (q : Nat) :
    Keeps r₀ (State.wakeByPin (s := s₀) (q := q)) := by
  unfold State.wakeByPin
  repeat' first
    | with_reducible assumption | with_reducible apply State.wakeOct_keeps
    | (with_reducible apply foldl_keeps <;> intros) | dsimp only | with_reducible apply Keeps.ite | split
    | simp only [Keeps.mk_iff]

theorem State.shadowStart_keeps {r₀ s₀ : State} (h₀ : Keeps r₀ s₀) (p : Nat) (e : PinEvent) :
    Keeps r₀ (State.shadowStart (s := s₀) (p := p) (e := e)) := by
  unfold State.shadowStart
  repeat' first
    | with_reducible assumption | with_reducible apply State.modPort_keeps | with_reducible apply State.noteOwn_keeps
    | (with_reducible apply foldl_keeps <;> intros) | dsimp only | with_reducible apply Keeps.ite | split
    | simp only [Keeps.mk_iff]

theorem State.ownStart_keeps {r₀ s₀ : State} (h₀ : Keeps r₀ s₀) (p : Nat) (e : PinEvent) :
    Keeps r₀ (State.ownStart (s := s₀) (p := p) (e := e)) := by
  unfold State.ownStart
  repeat' first
    | with_reducible assumption | with_reducible apply State.modPort_keeps
    | with_reducible apply State.noteBlock_keeps | (with_reducible apply foldl_keeps <;> intros) | dsimp only
    | with_reducible apply Keeps.ite | split | simp only [Keeps.mk_iff]

theorem State.observeEvent_keeps {r₀ s₀ : State} (h₀ : Keeps r₀ s₀) (q : Nat) (e : PinEvent) :
    Keeps r₀ (State.observeEvent (s := s₀) (q := q) (e := e)) := by
  unfold State.observeEvent
  repeat' first
    | with_reducible assumption | with_reducible apply State.shadowStart_keeps
    | with_reducible apply State.ownStart_keeps | (with_reducible apply foldl_keeps <;> intros) | dsimp only
    | with_reducible apply Keeps.ite | split | simp only [Keeps.mk_iff]

theorem State.edgeEvent_keeps {r₀ s₀ : State} (h₀ : Keeps r₀ s₀) (q : Nat) (high : Bool) (glitch : Bool) (x1 :
    Stamp) (x2 : Stamp) :
    Keeps r₀ (State.edgeEvent (s := s₀) (q := q) (high := high) (glitch := glitch) (x1 := x1) (x2 := x2)) := by
  unfold State.edgeEvent
  repeat' first
    | with_reducible assumption | with_reducible apply State.setPin_keeps | with_reducible apply State.modMon_keeps
    | with_reducible apply State.countPort_keeps | with_reducible apply State.octActive_keeps
    | with_reducible apply State.trigger_keeps | with_reducible apply State.setAlert_keeps
    | with_reducible apply State.wakeByPin_keeps | with_reducible apply State.observeEvent_keeps
    | (with_reducible apply foldl_keeps <;> intros) | dsimp only | with_reducible apply Keeps.ite | split
    | simp only [Keeps.mk_iff]

theorem State.firstLevel_keeps {r₀ s₀ : State} (h₀ : Keeps r₀ s₀) (q : Nat) (high : Bool) :
    Keeps r₀ (State.firstLevel (s := s₀) (q := q) (high := high)) := by
  unfold State.firstLevel
  repeat' first
    | with_reducible assumption | with_reducible apply State.modPin_keeps
    | (with_reducible apply foldl_keeps <;> intros) | dsimp only | with_reducible apply Keeps.ite | split
    | simp only [Keeps.mk_iff]

theorem State.pushWindow_keeps {r₀ s₀ : State} (h₀ : Keeps r₀ s₀) (p : Nat) (r : Nat) (d : BitVec 9) :
    Keeps r₀ (State.pushWindow (s := s₀) (p := p) (r := r) (d := d)) := by
  unfold State.pushWindow
  repeat' first
    | with_reducible assumption | with_reducible apply State.modPort_keeps
    | (with_reducible apply foldl_keeps <;> intros) | dsimp only | with_reducible apply Keeps.ite | split
    | simp only [Keeps.mk_iff]

theorem State.emptyWindows_keeps {r₀ s₀ : State} (h₀ : Keeps r₀ s₀) (p : Nat) :
    Keeps r₀ (State.emptyWindows (s := s₀) (p := p)) := by
  unfold State.emptyWindows
  repeat' first
    | with_reducible assumption | with_reducible apply State.modPort_keeps
    | (with_reducible apply foldl_keeps <;> intros) | dsimp only | with_reducible apply Keeps.ite | split
    | simp only [Keeps.mk_iff]

theorem State.trimWindows_keeps {r₀ s₀ : State} (h₀ : Keeps r₀ s₀) (p : Nat) :
    Keeps r₀ (State.trimWindows (s := s₀) (p := p)) := by
  unfold State.trimWindows
  repeat' first
    | with_reducible assumption | with_reducible apply State.modPort_keeps
    | (with_reducible apply foldl_keeps <;> intros) | dsimp only | with_reducible apply Keeps.ite | split
    | simp only [Keeps.mk_iff]

theorem State.ruleReply_keeps {r₀ s₀ : State} (h₀ : Keeps r₀ s₀) (p : Nat) (r : Nat) (k : Nat) (c : Chr) (seq :
    Word) (late : Bool) (u : Nat) :
    Keeps r₀ (State.ruleReply (s := s₀) (p := p) (r := r) (k := k) (c := c) (seq := seq) (late := late) (u := u)) := by
  unfold State.ruleReply
  repeat' first
    | with_reducible assumption | with_reducible apply State.modPort_keeps
    | (with_reducible apply foldl_keeps <;> intros) | dsimp only | with_reducible apply Keeps.ite | split
    | simp only [Keeps.mk_iff]

theorem State.ruleDrives_keeps {r₀ s₀ : State} (h₀ : Keeps r₀ s₀) (p : Nat) (r : Nat) (gpio : Bool) (arm : Bool) :
    Keeps r₀ (State.ruleDrives (s := s₀) (p := p) (r := r) (gpio := gpio) (arm := arm)) := by
  unfold State.ruleDrives
  repeat' first
    | with_reducible assumption | with_reducible apply State.softSet_keeps | with_reducible apply State.gpioOut_keeps
    | with_reducible apply State.arm_keeps | (with_reducible apply foldl_keeps <;> intros) | dsimp only
    | with_reducible apply Keeps.ite | split | simp only [Keeps.mk_iff]

theorem State.ruleRecord_keeps {r₀ s₀ : State} (h₀ : Keeps r₀ s₀) (p : Nat) (r : Nat) (k : Nat) (c : Chr) (seq :
    Word) (late : Bool) (u : Nat) :
    Keeps r₀ (State.ruleRecord (s := s₀) (p := p) (r := r) (k := k) (c := c) (seq := seq) (late := late) (u := u)).2
        := by
  unfold State.ruleRecord
  repeat' first
    | with_reducible assumption | with_reducible apply State.cueRecord_keeps
    | (with_reducible apply foldl_keeps <;> intros) | dsimp only | with_reducible apply Keeps.ite | split
    | simp only [Keeps.mk_iff]

theorem State.ruleCounts_keeps {r₀ s₀ : State} (h₀ : Keeps r₀ s₀) (p : Nat) (r : Nat) (late : Bool) (skips : Nat)
    (dropped : Bool) (w : Option Nat) :
    Keeps r₀ (State.ruleCounts (s := s₀) (p := p) (r := r) (late := late) (skips := skips) (dropped := dropped) (w
        := w)) := by
  unfold State.ruleCounts
  repeat' first
    | with_reducible assumption | with_reducible apply State.countEvent_keeps
    | (with_reducible apply foldl_keeps <;> intros) | dsimp only | with_reducible apply Keeps.ite | split
    | simp only [Keeps.mk_iff]

theorem State.ruleFires_keeps {r₀ s₀ : State} (h₀ : Keeps r₀ s₀) (p : Nat) (r : Nat) (k : Nat) (c : Chr) (seq :
    Word) (late : Bool) (first : Bool) :
    Keeps r₀ (State.ruleFires (s := s₀) (p := p) (r := r) (k := k) (c := c) (seq := seq) (late := late) (first :=
        first)) := by
  unfold State.ruleFires
  repeat' first
    | with_reducible assumption | with_reducible apply State.fresh_keeps | with_reducible apply State.noteMatch_keeps
    | with_reducible apply State.arm_keeps | with_reducible apply State.ruleReply_keeps
    | with_reducible apply State.ruleDrives_keeps | with_reducible apply State.ruleRecord_keeps
    | with_reducible apply State.ruleCounts_keeps | (with_reducible apply foldl_keeps <;> intros) | dsimp only
    | with_reducible apply Keeps.ite | split | simp only [Keeps.mk_iff]

theorem State.cueChar_keeps {r₀ s₀ : State} (h₀ : Keeps r₀ s₀) (p : Nat) (k : Nat) (c : Chr) (seq : Word) :
    Keeps r₀ (State.cueChar (s := s₀) (p := p) (k := k) (c := c) (seq := seq)) := by
  unfold State.cueChar
  repeat' first
    | with_reducible assumption | with_reducible apply State.pushWindow_keeps
    | with_reducible apply State.emptyWindows_keeps | with_reducible apply State.ruleFires_keeps
    | (with_reducible apply foldl_keeps <;> intros) | dsimp only | with_reducible apply Keeps.ite | split
    | simp only [Keeps.mk_iff]

theorem cqApply_keeps {r₀ s₀ : State} (h₀ : Keeps r₀ s₀) (p : Nat) (w : Nat) :
    Keeps r₀ (cqApply (s := s₀) (p := p) (w := w)) := by
  unfold cqApply
  repeat' first
    | with_reducible assumption | with_reducible apply State.trimWindows_keeps
    | (with_reducible apply foldl_keeps <;> intros) | dsimp only | with_reducible apply Keeps.ite | split
    | simp only [Keeps.mk_iff]

theorem cqAct_keeps {r₀ s₀ : State} (h₀ : Keeps r₀ s₀) (p : Nat) (w : Nat) (d : Word) :
    Keeps r₀ (cqAct (s := s₀) (p := p) (w := w) (d := d)) := by
  unfold cqAct
  repeat' first
    | with_reducible assumption | with_reducible apply State.emptyWindows_keeps
    | (with_reducible apply foldl_keeps <;> intros) | dsimp only | with_reducible apply Keeps.ite | split
    | simp only [Keeps.mk_iff]

theorem State.nextChar_keeps {r₀ s₀ : State} (h₀ : Keeps r₀ s₀) (p : Nat) (set : Settings) (sd : Sending) :
    Keeps r₀ (State.nextChar (s := s₀) (p := p) (set := set) (sd := sd)).2 := by
  unfold State.nextChar
  repeat' first
    | with_reducible assumption | with_reducible apply State.takeFree_keeps
    | (with_reducible apply foldl_keeps <;> intros) | dsimp only | with_reducible apply Keeps.ite | split
    | simp only [Keeps.mk_iff]

theorem State.startEdgeOut_keeps {r₀ s₀ : State} (h₀ : Keeps r₀ s₀) (p : Nat) (set : Settings) (t : Stamp) :
    Keeps r₀ (State.startEdgeOut (s := s₀) (p := p) (set := set) (t := t)) := by
  unfold State.startEdgeOut
  repeat' first
    | with_reducible assumption | with_reducible apply State.emit_keeps | with_reducible apply State.octActive_keeps
    | (with_reducible apply foldl_keeps <;> intros) | dsimp only | with_reducible apply Keeps.ite | split
    | simp only [Keeps.mk_iff]

theorem State.beginNext_keeps {r₀ s₀ : State} (h₀ : Keeps r₀ s₀) (p : Nat) (set : Settings) (t : Stamp) (bit : Nat) :
    Keeps r₀ (State.beginNext (s := s₀) (p := p) (set := set) (t := t) (bit := bit)) := by
  unfold State.beginNext
  repeat' first
    | with_reducible assumption | with_reducible apply State.modPort_keeps | with_reducible apply State.nextChar_keeps
    | with_reducible apply State.startEdgeOut_keeps | with_reducible apply State.frameEnd_keeps
    | (with_reducible apply foldl_keeps <;> intros) | dsimp only | with_reducible apply Keeps.ite | split
    | simp only [Keeps.mk_iff]

theorem State.beginFlow_keeps {r₀ s₀ : State} (h₀ : Keeps r₀ s₀) (p : Nat) (xoff : Bool) (set : Settings) (t :
    Stamp) (bit : Nat) :
    Keeps r₀ (State.beginFlow (s := s₀) (p := p) (xoff := xoff) (set := set) (t := t) (bit := bit)) := by
  unfold State.beginFlow
  repeat' first
    | with_reducible assumption | with_reducible apply State.modPort_keeps
    | with_reducible apply State.startEdgeOut_keeps | with_reducible apply State.frameEnd_keeps
    | (with_reducible apply foldl_keeps <;> intros) | dsimp only | with_reducible apply Keeps.ite | split
    | simp only [Keeps.mk_iff]

theorem State.noteHeld_keeps {r₀ s₀ : State} (h₀ : Keeps r₀ s₀) (p : Nat) :
    Keeps r₀ (State.noteHeld (s := s₀) (p := p)) := by
  unfold State.noteHeld
  repeat' first
    | with_reducible assumption | with_reducible apply State.modPort_keeps
    | (with_reducible apply foldl_keeps <;> intros) | dsimp only | with_reducible apply Keeps.ite | split
    | simp only [Keeps.mk_iff]

theorem State.start_keeps {r₀ s₀ : State} (h₀ : Keeps r₀ s₀) (p : Nat) (n : NextStart) (set : Settings) (t : Stamp)
    (bit : Nat) :
    Keeps r₀ (State.start (s := s₀) (p := p) (n := n) (set := set) (t := t) (bit := bit)) := by
  unfold State.start
  repeat' first
    | with_reducible assumption | with_reducible apply State.modPort_keeps
    | with_reducible apply State.beginNext_keeps | with_reducible apply State.beginFlow_keeps
    | (with_reducible apply foldl_keeps <;> intros) | dsimp only | with_reducible apply Keeps.ite | split
    | simp only [Keeps.mk_iff]

theorem State.launch_keeps {r₀ s₀ : State} (h₀ : Keeps r₀ s₀) (p : Nat) (n : NextStart) (t : Stamp) :
    Keeps r₀ (State.launch (s := s₀) (p := p) (n := n) (t := t)) := by
  unfold State.launch
  repeat' first
    | with_reducible assumption | with_reducible apply State.modPort_keeps | with_reducible apply State.noteHeld_keeps
    | with_reducible apply State.start_keeps | (with_reducible apply foldl_keeps <;> intros) | dsimp only
    | with_reducible apply Keeps.ite | split | simp only [Keeps.mk_iff]

theorem State.noteHeldAhead_keeps {r₀ s₀ : State} (h₀ : Keeps r₀ s₀) (p : Nat) (n : NextStart) :
    Keeps r₀ (State.noteHeldAhead (s := s₀) (p := p) (n := n)) := by
  unfold State.noteHeldAhead
  repeat' first
    | with_reducible assumption | with_reducible apply State.modPort_keeps
    | (with_reducible apply foldl_keeps <;> intros) | dsimp only | with_reducible apply Keeps.ite | split
    | simp only [Keeps.mk_iff]

theorem State.setAhead_keeps {r₀ s₀ : State} (h₀ : Keeps r₀ s₀) (p : Nat) (n : NextStart) (t : Stamp) :
    Keeps r₀ (State.setAhead (s := s₀) (p := p) (n := n) (t := t)) := by
  unfold State.setAhead
  repeat' first
    | with_reducible assumption | with_reducible apply State.modPort_keeps
    | (with_reducible apply foldl_keeps <;> intros) | dsimp only | with_reducible apply Keeps.ite | split
    | simp only [Keeps.mk_iff]

theorem State.commitAhead_keeps {r₀ s₀ : State} (h₀ : Keeps r₀ s₀) (p : Nat) :
    Keeps r₀ (State.commitAhead (s := s₀) (p := p)) := by
  unfold State.commitAhead
  repeat' first
    | with_reducible assumption | with_reducible apply State.advance_keeps
    | with_reducible apply State.noteHeldAhead_keeps | with_reducible apply State.setAhead_keeps
    | (with_reducible apply foldl_keeps <;> intros) | dsimp only | with_reducible apply Keeps.ite | split
    | simp only [Keeps.mk_iff]

theorem State.startDue_keeps {r₀ s₀ : State} (h₀ : Keeps r₀ s₀) (p : Nat) :
    Keeps r₀ (State.startDue (s := s₀) (p := p)) := by
  unfold State.startDue
  repeat' first
    | with_reducible assumption | with_reducible apply State.launch_keeps
    | (with_reducible apply foldl_keeps <;> intros) | dsimp only | with_reducible apply Keeps.ite | split
    | simp only [Keeps.mk_iff]

theorem State.lateHead_keeps {r₀ s₀ : State} (h₀ : Keeps r₀ s₀) (p : Nat) (d : Desc) :
    Keeps r₀ (State.lateHead (s := s₀) (p := p) (d := d)) := by
  unfold State.lateHead
  repeat' first
    | with_reducible assumption | with_reducible apply State.modPort_keeps | with_reducible apply State.txDone_keeps
    | (with_reducible apply foldl_keeps <;> intros) | dsimp only | with_reducible apply Keeps.ite | split
    | simp only [Keeps.mk_iff]

theorem State.headReached_keeps {r₀ s₀ : State} (h₀ : Keeps r₀ s₀) (p fuel : Nat) : Keeps r₀ (s₀.headReached p fuel)
    := by
  induction fuel generalizing s₀ with
  | zero => exact h₀
  | succ n ih =>
    unfold State.headReached
    repeat' first
      | with_reducible assumption | with_reducible apply State.modPort_keeps
      | with_reducible apply State.lateHead_keeps | with_reducible apply ih | dsimp only | split

theorem State.checkHead_keeps {r₀ s₀ : State} (h₀ : Keeps r₀ s₀) (p : Nat) :
    Keeps r₀ (State.checkHead (s := s₀) (p := p)) := by
  unfold State.checkHead
  repeat' first
    | with_reducible assumption | with_reducible apply State.headReached_keeps
    | (with_reducible apply foldl_keeps <;> intros) | dsimp only | with_reducible apply Keeps.ite | split
    | simp only [Keeps.mk_iff]

theorem State.restTx_keeps {r₀ s₀ : State} (h₀ : Keeps r₀ s₀) (p : Nat) :
    Keeps r₀ (State.restTx (s := s₀) (p := p)) := by
  unfold State.restTx
  repeat' first
    | with_reducible assumption | with_reducible apply State.modPort_keeps
    | with_reducible apply State.octActive_keeps | (with_reducible apply foldl_keeps <;> intros) | dsimp only
    | with_reducible apply Keeps.ite | split | simp only [Keeps.mk_iff]

theorem State.launchTimed_keeps {r₀ s₀ : State} (h₀ : Keeps r₀ s₀) (p : Nat) :
    Keeps r₀ (State.launchTimed (s := s₀) (p := p)) := by
  unfold State.launchTimed
  repeat' first
    | with_reducible assumption | with_reducible apply State.modPort_keeps
    | with_reducible apply State.beginNext_keeps | with_reducible apply State.launch_keeps
    | (with_reducible apply foldl_keeps <;> intros) | dsimp only | with_reducible apply Keeps.ite | split
    | simp only [Keeps.mk_iff]

theorem State.txProfileSeq_keeps {r₀ s₀ : State} (h₀ : Keeps r₀ s₀) (p : Nat) (n : Nat) :
    Keeps r₀ (State.txProfileSeq (s := s₀) (p := p) (n := n)).2 := by
  unfold State.txProfileSeq
  repeat' first
    | with_reducible assumption | with_reducible apply State.takeFree_keeps
    | (with_reducible apply foldl_keeps <;> intros) | dsimp only | with_reducible apply Keeps.ite | split
    | simp only [Keeps.mk_iff]

theorem State.txSwitch_keeps {r₀ s₀ : State} (h₀ : Keeps r₀ s₀) (p : Nat) :
    Keeps r₀ (State.txSwitch (s := s₀) (p := p)) := by
  unfold State.txSwitch
  repeat' first
    | with_reducible assumption | with_reducible apply State.modPort_keeps
    | (with_reducible apply foldl_keeps <;> intros) | dsimp only | with_reducible apply Keeps.ite | split
    | simp only [Keeps.mk_iff]

theorem State.txBoundary_keeps {r₀ s₀ : State} (h₀ : Keeps r₀ s₀) (p : Nat) (t : Stamp) :
    Keeps r₀ (State.txBoundary (s := s₀) (p := p) (t := t)) := by
  unfold State.txBoundary
  repeat' first
    | with_reducible assumption | with_reducible apply State.emit_keeps | with_reducible apply State.formTx_keeps
    | with_reducible apply State.txProfileSeq_keeps | with_reducible apply State.txSwitch_keeps
    | (with_reducible apply foldl_keeps <;> intros) | dsimp only | with_reducible apply Keeps.ite | split
    | simp only [Keeps.mk_iff]

theorem State.charSent_keeps {r₀ s₀ : State} (h₀ : Keeps r₀ s₀) (p : Nat) :
    Keeps r₀ (State.charSent (s := s₀) (p := p)) := by
  unfold State.charSent
  repeat' first
    | with_reducible assumption | with_reducible apply State.setPort_keeps | with_reducible apply State.count_keeps
    | with_reducible apply State.countPort_keeps | with_reducible apply State.echo_keeps
    | with_reducible apply State.start_keeps | (with_reducible apply foldl_keeps <;> intros) | dsimp only
    | with_reducible apply Keeps.ite | split | simp only [Keeps.mk_iff]

theorem State.finishJob_keeps {r₀ s₀ : State} (h₀ : Keeps r₀ s₀) (p : Nat) :
    Keeps r₀ (State.finishJob (s := s₀) (p := p)) := by
  unfold State.finishJob
  repeat' first
    | with_reducible assumption | with_reducible apply State.endJob_keeps
    | (with_reducible apply foldl_keeps <;> intros) | dsimp only | with_reducible apply Keeps.ite | split
    | simp only [Keeps.mk_iff]

theorem State.startAhead_keeps {r₀ s₀ : State} (h₀ : Keeps r₀ s₀) (p : Nat) (a : Ahead) (end_ : Stamp) :
    Keeps r₀ (State.startAhead (s := s₀) (p := p) (a := a) (end_ := end_)) := by
  unfold State.startAhead
  repeat' first
    | with_reducible assumption | with_reducible apply State.modPort_keeps | with_reducible apply State.endJob_keeps
    | with_reducible apply State.start_keeps | with_reducible apply State.checkHead_keeps
    | with_reducible apply State.txBoundary_keeps | with_reducible apply State.finishJob_keeps
    | (with_reducible apply foldl_keeps <;> intros) | dsimp only | with_reducible apply Keeps.ite | split
    | simp only [Keeps.mk_iff]

theorem State.stopDone_keeps {r₀ s₀ : State} (h₀ : Keeps r₀ s₀) (p : Nat) :
    Keeps r₀ (State.stopDone (s := s₀) (p := p)) := by
  unfold State.stopDone
  repeat' first
    | with_reducible assumption | with_reducible apply State.endJob_keeps | with_reducible apply State.stopTx_keeps
    | with_reducible apply State.startTx_keeps | (with_reducible apply foldl_keeps <;> intros) | dsimp only
    | with_reducible apply Keeps.ite | split | simp only [Keeps.mk_iff]

theorem State.charEnd_keeps {r₀ s₀ : State} (h₀ : Keeps r₀ s₀) (p : Nat) :
    Keeps r₀ (State.charEnd (s := s₀) (p := p)) := by
  unfold State.charEnd
  repeat' first
    | with_reducible assumption | with_reducible apply State.modPort_keeps
    | with_reducible apply State.emitFrame_keeps | with_reducible apply State.endJob_keeps
    | with_reducible apply State.startDue_keeps | with_reducible apply State.checkHead_keeps
    | with_reducible apply State.restTx_keeps | with_reducible apply State.launchTimed_keeps
    | with_reducible apply State.txBoundary_keeps | with_reducible apply State.charSent_keeps
    | with_reducible apply State.finishJob_keeps | with_reducible apply State.startAhead_keeps
    | with_reducible apply State.stopDone_keeps | (with_reducible apply foldl_keeps <;> intros) | dsimp only
    | with_reducible apply Keeps.ite | split | simp only [Keeps.mk_iff]

theorem State.queueDesc_keeps {r₀ s₀ : State} (h₀ : Keeps r₀ s₀) (d : Desc) :
    Keeps r₀ (State.queueDesc (s := s₀) (d := d)) := by
  unfold State.queueDesc
  repeat' first
    | with_reducible assumption | with_reducible apply State.modPort_keeps | with_reducible apply State.wakeOct_keeps
    | with_reducible apply State.octActive_keeps | with_reducible apply State.checkHead_keeps
    | (with_reducible apply foldl_keeps <;> intros) | dsimp only | with_reducible apply Keeps.ite | split
    | simp only [Keeps.mk_iff]

theorem State.countChar_keeps {r₀ s₀ : State} (h₀ : Keeps r₀ s₀) (p : Nat) (c : Chr) (u : Option Nat) :
    Keeps r₀ (State.countChar (s := s₀) (p := p) (c := c) (u := u)) := by
  unfold State.countChar
  repeat' first
    | with_reducible assumption | with_reducible apply State.countEvent_keeps
    | (with_reducible apply foldl_keeps <;> intros) | dsimp only | with_reducible apply Keeps.ite | split
    | simp only [Keeps.mk_iff]

theorem State.deliver_keeps {r₀ s₀ : State} (h₀ : Keeps r₀ s₀) (p k : Nat) (set : Settings) (c : Chr) (addr win : Bool)
    (varnish : Option (Option Nat)) : Keeps r₀ (s₀.deliver p k set c addr win varnish).2.2 := by
  unfold State.deliver
  repeat' first
    | with_reducible assumption | with_reducible apply State.element_keeps | with_reducible apply State.store_keeps
    | with_reducible apply State.storeVarnished_keeps | with_reducible apply State.setPort_keeps
    | with_reducible apply State.modPort_keeps | with_reducible apply State.fresh_keeps
    | with_reducible apply State.takeOrder_keeps | dsimp only | split

theorem State.takeFlow_keeps {r₀ s₀ : State} (h₀ : Keeps r₀ s₀) (p : Nat) (f : Option Bool) :
    Keeps r₀ (State.takeFlow (s := s₀) (p := p) (f := f)) := by
  unfold State.takeFlow
  repeat' first
    | with_reducible assumption | with_reducible apply State.modPort_keeps
    | with_reducible apply State.countPort_keeps | (with_reducible apply foldl_keeps <;> intros) | dsimp only
    | with_reducible apply Keeps.ite | split | simp only [Keeps.mk_iff]

theorem State.confirmChar_keeps {r₀ s₀ : State} (h₀ : Keeps r₀ s₀) (p : Nat) (set : Settings) (c : Chr) (period :
    Nat) (win : Bool) (varnish : Option (Option Nat)) :
    Keeps r₀ (State.confirmChar (s := s₀) (p := p) (set := set) (c := c) (period := period) (win := win) (varnish :=
        varnish)) := by
  unfold State.confirmChar
  repeat' first
    | with_reducible assumption | with_reducible apply State.setPort_keeps
    | with_reducible apply State.countPort_keeps | with_reducible apply State.flowConfirm_keeps
    | with_reducible apply State.noteBlock_keeps | with_reducible apply State.emptyWindows_keeps
    | with_reducible apply State.cueChar_keeps | with_reducible apply State.countChar_keeps
    | with_reducible apply State.takeFlow_keeps | with_reducible apply State.win_keeps
    | with_reducible apply State.deliver_keeps | (with_reducible apply foldl_keeps <;> intros) | dsimp only
    | with_reducible apply Keeps.ite | split | simp only [Keeps.mk_iff]

theorem State.offer_keeps {r₀ s₀ : State} (h₀ : Keeps r₀ s₀) (p : Nat) (closing : Option Stamp) :
    Keeps r₀ (State.offer (s := s₀) (p := p) (closing := closing)) := by
  unfold State.offer
  repeat' first
    | with_reducible assumption | with_reducible apply State.setPort_keeps | with_reducible apply State.formProv_keeps
    | (with_reducible apply foldl_keeps <;> intros) | dsimp only | with_reducible apply Keeps.ite | split
    | simp only [Keeps.mk_iff]

theorem State.settleWin_keeps {r₀ s₀ : State} (h₀ : Keeps r₀ s₀) (p : Nat) (w : Settlement) :
    Keeps r₀ (State.settleWin (s := s₀) (p := p) (w := w)) := by
  unfold State.settleWin
  repeat' first
    | with_reducible assumption | with_reducible apply State.modPort_keeps
    | with_reducible apply State.settleEntry_keeps | with_reducible apply State.countEvent_keeps
    | (with_reducible apply foldl_keeps <;> intros) | dsimp only | with_reducible apply Keeps.ite | split
    | simp only [Keeps.mk_iff]

theorem State.confirmWon_keeps {r₀ s₀ : State} (h₀ : Keeps r₀ s₀) (p : Nat) (set : Settings) (period : Nat) (c : Chr) :
    Keeps r₀ (State.confirmWon (s := s₀) (p := p) (set := set) (period := period) (c := c)) := by
  unfold State.confirmWon
  repeat' first
    | with_reducible assumption | with_reducible apply State.modPort_keeps
    | with_reducible apply State.confirmChar_keeps | (with_reducible apply foldl_keeps <;> intros) | dsimp only
    | with_reducible apply Keeps.ite | split | simp only [Keeps.mk_iff]

theorem State.win_keeps {r₀ s₀ : State} (h₀ : Keeps r₀ s₀) (p : Nat) (lane : Nat) :
    Keeps r₀ (State.win (s := s₀) (p := p) (lane := lane)) := by
  unfold State.win
  repeat' first
    | with_reducible assumption | with_reducible apply State.modPort_keeps | with_reducible apply State.emit_keeps
    | with_reducible apply State.dropProv_keeps | with_reducible apply State.settleWin_keeps
    | with_reducible apply State.confirmWon_keeps | (with_reducible apply foldl_keeps <;> intros) | dsimp only
    | with_reducible apply Keeps.ite | split | simp only [Keeps.mk_iff]

theorem State.afterChecks_keeps {r₀ s₀ : State} (h₀ : Keeps r₀ s₀) (p : Nat) (done : List Nat) :
    Keeps r₀ (State.afterChecks (s := s₀) (p := p) (done := done)) := by
  unfold State.afterChecks
  repeat' first
    | with_reducible assumption | with_reducible apply State.setPort_keeps | with_reducible apply State.modPort_keeps
    | with_reducible apply State.offer_keeps | with_reducible apply State.win_keeps
    | (with_reducible apply foldl_keeps <;> intros) | dsimp only | with_reducible apply Keeps.ite | split
    | simp only [Keeps.mk_iff]

theorem State.closeGate_keeps {r₀ s₀ : State} (h₀ : Keeps r₀ s₀) (p : Nat) :
    Keeps r₀ (State.closeGate (s := s₀) (p := p)) := by
  unfold State.closeGate
  repeat' first
    | with_reducible assumption | with_reducible apply State.setPort_keeps
    | with_reducible apply State.portEntry_keeps | with_reducible apply State.countEvent_keeps
    | (with_reducible apply foldl_keeps <;> intros) | dsimp only | with_reducible apply Keeps.ite | split
    | simp only [Keeps.mk_iff]

theorem State.edgeRecord_keeps {r₀ s₀ : State} (h₀ : Keeps r₀ s₀) (p : Nat) (e : PinEvent) :
    Keeps r₀ (State.edgeRecord (s := s₀) (p := p) (e := e)) := by
  unfold State.edgeRecord
  repeat' first
    | with_reducible assumption | with_reducible apply State.portEntry_keeps
    | (with_reducible apply foldl_keeps <;> intros) | dsimp only | with_reducible apply Keeps.ite | split
    | simp only [Keeps.mk_iff]

theorem State.goEdgeOnly_keeps {r₀ s₀ : State} (h₀ : Keeps r₀ s₀) (p : Nat) :
    Keeps r₀ (State.goEdgeOnly (s := s₀) (p := p)) := by
  unfold State.goEdgeOnly
  repeat' first
    | with_reducible assumption | with_reducible apply State.modPort_keeps
    | with_reducible apply State.countPort_keeps | with_reducible apply State.setAlert_keeps
    | with_reducible apply State.edgeRecord_keeps | (with_reducible apply foldl_keeps <;> intros) | dsimp only
    | with_reducible apply Keeps.ite | split | simp only [Keeps.mk_iff]

theorem State.fallBack_keeps {r₀ s₀ : State} (h₀ : Keeps r₀ s₀) (p : Nat) :
    Keeps r₀ (State.fallBack (s := s₀) (p := p)) := by
  unfold State.fallBack
  repeat' first
    | with_reducible assumption | with_reducible apply State.endAcquisition_keeps
    | with_reducible apply State.goEdgeOnly_keeps | (with_reducible apply foldl_keeps <;> intros) | dsimp only
    | with_reducible apply Keeps.ite | split | simp only [Keeps.mk_iff]

theorem State.ripen_keeps {r₀ s₀ : State} (h₀ : Keeps r₀ s₀) (p : Nat) :
    Keeps r₀ (State.ripen (s := s₀) (p := p)) := by
  unfold State.ripen
  repeat' first
    | with_reducible assumption | with_reducible apply State.closeGate_keeps
    | with_reducible apply State.fallBack_keeps | (with_reducible apply foldl_keeps <;> intros) | dsimp only
    | with_reducible apply Keeps.ite | split | simp only [Keeps.mk_iff]

theorem State.flowChanged_keeps {r₀ s₀ : State} (h₀ : Keeps r₀ s₀) (p : Nat) (new : Settings) (old : Settings) :
    Keeps r₀ (State.flowChanged (s := s₀) (p := p) (new := new) (old := old)) := by
  unfold State.flowChanged
  repeat' first
    | with_reducible assumption | with_reducible apply State.compareFlow_keeps
    | with_reducible apply State.resolve_keeps | (with_reducible apply foldl_keeps <;> intros) | dsimp only
    | with_reducible apply Keeps.ite | split | simp only [Keeps.mk_iff]

theorem State.applySettings_keeps {r₀ s₀ : State} (h₀ : Keeps r₀ s₀) (p : Nat) (afresh : Bool) :
    Keeps r₀ (State.applySettings (s := s₀) (p := p) (afresh := afresh)) := by
  unfold State.applySettings
  repeat' first
    | with_reducible assumption | with_reducible apply State.modPort_keeps | with_reducible apply State.emit_keeps
    | with_reducible apply State.rxProfile_keeps | with_reducible apply State.flowChanged_keeps
    | (with_reducible apply foldl_keeps <;> intros) | dsimp only | with_reducible apply Keeps.ite | split
    | simp only [Keeps.mk_iff]

theorem State.rxBoundary_keeps {r₀ s₀ : State} (h₀ : Keeps r₀ s₀) (p : Nat) :
    Keeps r₀ (State.rxBoundary (s := s₀) (p := p)) := by
  unfold State.rxBoundary
  repeat' first
    | with_reducible assumption | with_reducible apply State.applySettings_keeps
    | (with_reducible apply foldl_keeps <;> intros) | dsimp only | with_reducible apply Keeps.ite | split
    | simp only [Keeps.mk_iff]

theorem State.rxPalChange_keeps {r₀ s₀ : State} (h₀ : Keeps r₀ s₀) (p : Nat) :
    Keeps r₀ (State.rxPalChange (s := s₀) (p := p)) := by
  unfold State.rxPalChange
  repeat' first
    | with_reducible assumption | with_reducible apply State.modPort_keeps | with_reducible apply State.abandon_keeps
    | with_reducible apply State.applySettings_keeps | (with_reducible apply foldl_keeps <;> intros) | dsimp only
    | with_reducible apply Keeps.ite | split | simp only [Keeps.mk_iff]

theorem State.txPalChange_keeps {r₀ s₀ : State} (h₀ : Keeps r₀ s₀) (p : Nat) :
    Keeps r₀ (State.txPalChange (s := s₀) (p := p)) := by
  unfold State.txPalChange
  repeat' first
    | with_reducible assumption | with_reducible apply State.modPort_keeps
    | with_reducible apply State.txBoundary_keeps | (with_reducible apply foldl_keeps <;> intros) | dsimp only
    | with_reducible apply Keeps.ite | split | simp only [Keeps.mk_iff]

theorem State.reacq_keeps {r₀ s₀ : State} (h₀ : Keeps r₀ s₀) (p : Nat) :
    Keeps r₀ (State.reacq (s := s₀) (p := p)) := by
  unfold State.reacq
  repeat' first
    | with_reducible assumption | with_reducible apply State.modPort_keeps | with_reducible apply State.abandon_keeps
    | with_reducible apply State.applySettings_keeps | (with_reducible apply foldl_keeps <;> intros) | dsimp only
    | with_reducible apply Keeps.ite | split | simp only [Keeps.mk_iff]

theorem State.reacquire_keeps {r₀ s₀ : State} (h₀ : Keeps r₀ s₀) (p : Nat) (f : Frame) (sawAll : List PinEvent) :
    Keeps r₀ (State.reacquire (s := s₀) (p := p) (f := f) (sawAll := sawAll)) := by
  unfold State.reacquire
  repeat' first
    | with_reducible assumption | with_reducible apply State.modPort_keeps
    | with_reducible apply State.countPort_keeps | with_reducible apply State.setAlert_keeps
    | with_reducible apply State.reacq_keeps | (with_reducible apply foldl_keeps <;> intros) | dsimp only
    | with_reducible apply Keeps.ite | split | simp only [Keeps.mk_iff]

theorem State.trackConfirm_keeps {r₀ s₀ : State} (h₀ : Keeps r₀ s₀) (p : Nat) (f : Frame) (c : Chr) :
    Keeps r₀ (State.trackConfirm (s := s₀) (p := p) (f := f) (c := c)) := by
  unfold State.trackConfirm
  repeat' first
    | with_reducible assumption | with_reducible apply State.modPort_keeps | with_reducible apply State.noteOwn_keeps
    | with_reducible apply State.confirmChar_keeps | (with_reducible apply foldl_keeps <;> intros) | dsimp only
    | with_reducible apply Keeps.ite | split | simp only [Keeps.mk_iff]

theorem State.trackDone_keeps {r₀ s₀ : State} (h₀ : Keeps r₀ s₀) (p : Nat) (f : Frame) (after : List PinEvent) :
    Keeps r₀ (State.trackDone (s := s₀) (p := p) (f := f) (after := after)) := by
  unfold State.trackDone
  repeat' first
    | with_reducible assumption | with_reducible apply State.modPort_keeps
    | with_reducible apply State.rxBoundary_keeps | with_reducible apply State.reacquire_keeps
    | with_reducible apply State.trackConfirm_keeps | (with_reducible apply foldl_keeps <;> intros) | dsimp only
    | with_reducible apply Keeps.ite | split | simp only [Keeps.mk_iff]

theorem State.breakClears_keeps {r₀ s₀ : State} (h₀ : Keeps r₀ s₀) (p : Nat) :
    Keeps r₀ (State.breakClears (s := s₀) (p := p)) := by
  unfold State.breakClears
  repeat' first
    | with_reducible assumption | with_reducible apply State.modPort_keeps
    | with_reducible apply State.emptyWindows_keeps | (with_reducible apply foldl_keeps <;> intros) | dsimp only
    | with_reducible apply Keeps.ite | split | simp only [Keeps.mk_iff]

theorem State.breakDecided_keeps {r₀ s₀ : State} (h₀ : Keeps r₀ s₀) (p : Nat) (t0 : Stamp) (stamp : Stamp) :
    Keeps r₀ (State.breakDecided (s := s₀) (p := p) (t0 := t0) (stamp := stamp)) := by
  unfold State.breakDecided
  repeat' first
    | with_reducible assumption | with_reducible apply State.modPort_keeps
    | with_reducible apply State.breakClears_keeps | (with_reducible apply foldl_keeps <;> intros) | dsimp only
    | with_reducible apply Keeps.ite | split | simp only [Keeps.mk_iff]

theorem State.breakRecord_keeps {r₀ s₀ : State} (h₀ : Keeps r₀ s₀) (p : Nat) (stamp : Stamp) (ret : Stamp) :
    Keeps r₀ (State.breakRecord (s := s₀) (p := p) (stamp := stamp) (ret := ret)) := by
  unfold State.breakRecord
  repeat' first
    | with_reducible assumption | with_reducible apply State.modPort_keeps
    | with_reducible apply State.portEntry_keeps | with_reducible apply State.countEvent_keeps
    | (with_reducible apply foldl_keeps <;> intros) | dsimp only | with_reducible apply Keeps.ite | split
    | simp only [Keeps.mk_iff]

theorem State.trackEvent_keeps {r₀ s₀ : State} (h₀ : Keeps r₀ s₀) (p : Nat) (e : PinEvent) :
    Keeps r₀ (State.trackEvent (s := s₀) (p := p) (e := e)) := by
  unfold State.trackEvent
  repeat' first
    | with_reducible assumption | with_reducible apply State.modPort_keeps
    | with_reducible apply State.trackDone_keeps | with_reducible apply State.breakDecided_keeps
    | with_reducible apply State.breakRecord_keeps | (with_reducible apply foldl_keeps <;> intros) | dsimp only
    | with_reducible apply Keeps.ite | split | simp only [Keeps.mk_iff]

theorem State.laneEvent_keeps {r₀ s₀ : State} (h₀ : Keeps r₀ s₀) (p : Nat) (e : PinEvent) :
    Keeps r₀ (State.laneEvent (s := s₀) (p := p) (e := e)) := by
  unfold State.laneEvent
  repeat' first
    | with_reducible assumption | with_reducible apply State.modPort_keeps
    | with_reducible apply State.afterChecks_keeps | with_reducible apply State.breakDecided_keeps
    | with_reducible apply State.breakRecord_keeps | (with_reducible apply foldl_keeps <;> intros) | dsimp only
    | with_reducible apply Keeps.ite | split | simp only [Keeps.mk_iff]

theorem State.lostStamps_keeps {r₀ s₀ : State} (h₀ : Keeps r₀ s₀) (q : Pin) :
    Keeps r₀ (State.lostStamps (s := s₀) (q := q)).2.2 := by
  unfold State.lostStamps
  repeat' first
    | with_reducible assumption | with_reducible apply State.takeFree_keeps
    | (with_reducible apply foldl_keeps <;> intros) | dsimp only | with_reducible apply Keeps.ite | split
    | simp only [Keeps.mk_iff]

theorem State.overflow_keeps {r₀ s₀ : State} (h₀ : Keeps r₀ s₀) (p : Nat) :
    Keeps r₀ (State.overflow (s := s₀) (p := p)) := by
  unfold State.overflow
  repeat' first
    | with_reducible assumption | with_reducible apply State.setPin_keeps | with_reducible apply State.modPort_keeps
    | with_reducible apply State.portEntry_keeps | with_reducible apply State.abandon_keeps
    | with_reducible apply State.reacq_keeps | with_reducible apply State.lostStamps_keeps
    | (with_reducible apply foldl_keeps <;> intros) | dsimp only | with_reducible apply Keeps.ite | split
    | simp only [Keeps.mk_iff]

theorem State.joinLive_keeps {r₀ s₀ : State} (h₀ : Keeps r₀ s₀) (p : Nat) (n : Nat) :
    Keeps r₀ (State.joinLive (s := s₀) (p := p) (n := n)) := by
  unfold State.joinLive
  repeat' first
    | with_reducible assumption | with_reducible apply State.modPort_keeps
    | (with_reducible apply foldl_keeps <;> intros) | dsimp only | with_reducible apply Keeps.ite | split
    | simp only [Keeps.mk_iff]

theorem State.takeEntry_keeps {r₀ s₀ : State} (h₀ : Keeps r₀ s₀) (p : Nat) (e : PinEvent) :
    Keeps r₀ (State.takeEntry (s := s₀) (p := p) (e := e)) := by
  unfold State.takeEntry
  repeat' first
    | with_reducible assumption | with_reducible apply State.modPin_keeps | with_reducible apply State.modPort_keeps
    | with_reducible apply State.fresh_keeps | with_reducible apply State.edgeRecord_keeps
    | with_reducible apply State.reacq_keeps | with_reducible apply State.trackEvent_keeps
    | with_reducible apply State.laneEvent_keeps | (with_reducible apply foldl_keeps <;> intros) | dsimp only
    | with_reducible apply Keeps.ite | split | simp only [Keeps.mk_iff]

theorem State.checkAt_keeps {r₀ s₀ : State} (h₀ : Keeps r₀ s₀) (p : Nat) (n : Nat) :
    Keeps r₀ (State.checkAt (s := s₀) (p := p) (n := n)) := by
  unfold State.checkAt
  repeat' first
    | with_reducible assumption | with_reducible apply State.setPort_keeps | with_reducible apply State.modPort_keeps
    | with_reducible apply State.afterChecks_keeps | with_reducible apply State.reacq_keeps
    | with_reducible apply State.trackDone_keeps | with_reducible apply State.trackEvent_keeps
    | (with_reducible apply foldl_keeps <;> intros) | dsimp only | with_reducible apply Keeps.ite | split
    | simp only [Keeps.mk_iff]

theorem State.runCheck_keeps {r₀ s₀ : State} (h₀ : Keeps r₀ s₀) (p : Nat) :
    Keeps r₀ (State.runCheck (s := s₀) (p := p)) := by
  unfold State.runCheck
  repeat' first
    | with_reducible assumption | with_reducible apply State.advance_keeps | with_reducible apply State.joinLive_keeps
    | with_reducible apply State.checkAt_keeps | (with_reducible apply foldl_keeps <;> intros) | dsimp only
    | with_reducible apply Keeps.ite | split | simp only [Keeps.mk_iff]

theorem State.noteReady_keeps {r₀ s₀ : State} (h₀ : Keeps r₀ s₀) (n : Nat) :
    Keeps r₀ (State.noteReady (s := s₀) (n := n)) := by
  unfold State.noteReady
  repeat' first
    | with_reducible assumption | with_reducible apply State.modRing_keeps
    | (with_reducible apply foldl_keeps <;> intros) | dsimp only | with_reducible apply Keeps.ite | split
    | simp only [Keeps.mk_iff]

theorem State.noteReadyAll_keeps {r₀ s₀ : State} (h₀ : Keeps r₀ s₀) :
    Keeps r₀ (State.noteReadyAll (s := s₀)) := by
  unfold State.noteReadyAll
  repeat' first
    | with_reducible assumption | with_reducible apply State.noteReady_keeps
    | (with_reducible apply foldl_keeps <;> intros) | dsimp only | with_reducible apply Keeps.ite | split
    | simp only [Keeps.mk_iff]

theorem State.takeDoorbell_keeps {r₀ s₀ : State} (h₀ : Keeps r₀ s₀) (n : Nat) (v : Word) :
    Keeps r₀ (State.takeDoorbell (s := s₀) (n := n) (v := v)) := by
  unfold State.takeDoorbell
  repeat' first
    | with_reducible assumption | with_reducible apply State.modRing_keeps
    | with_reducible apply State.freeExtents_keeps | with_reducible apply State.noteReady_keeps
    | (with_reducible apply foldl_keeps <;> intros) | dsimp only | with_reducible apply Keeps.ite | split
    | simp only [Keeps.mk_iff]

theorem State.closeRecords_keeps {r₀ s₀ : State} (h₀ : Keeps r₀ s₀) (p : Nat) (n : Nat) (stream : Option Nat) :
    Keeps r₀ (State.closeRecords (s := s₀) (p := p) (n := n) (stream := stream)) := by
  unfold State.closeRecords
  repeat' first
    | with_reducible assumption | (with_reducible apply foldl_keeps <;> intros) | dsimp only
    | with_reducible apply Keeps.ite | split | simp only [Keeps.mk_iff]

theorem State.announce_keeps {r₀ s₀ : State} (h₀ : Keeps r₀ s₀) (e : Entry) (u : Nat) :
    Keeps r₀ (State.announce (s := s₀) (e := e) (u := u)) := by
  unfold State.announce
  repeat' first
    | with_reducible assumption | with_reducible apply State.emit_keeps | with_reducible apply State.sendMark_keeps
    | (with_reducible apply foldl_keeps <;> intros) | dsimp only | with_reducible apply Keeps.ite | split
    | simp only [Keeps.mk_iff]

theorem State.formOf_keeps {r₀ s₀ : State} (h₀ : Keeps r₀ s₀) (e : Entry) (r : Rec) :
    Keeps r₀ (State.formOf (s := s₀) (e := e) (r := r)) := by
  unfold State.formOf
  repeat' first
    | with_reducible assumption | with_reducible apply State.stage_keeps | with_reducible apply State.announce_keeps
    | (with_reducible apply foldl_keeps <;> intros) | dsimp only | with_reducible apply Keeps.ite | split
    | simp only [Keeps.mk_iff]

theorem State.buildEntry1_keeps {r₀ s₀ : State} (h₀ : Keeps r₀ s₀) (p : Nat) (e : Entry) :
    Keeps r₀ (State.buildEntry1 (s := s₀) (p := p) (e := e)) := by
  unfold State.buildEntry1
  repeat' first
    | with_reducible assumption | with_reducible apply State.closeRecords_keeps
    | with_reducible apply State.announce_keeps | with_reducible apply State.formOf_keeps
    | (with_reducible apply foldl_keeps <;> intros) | dsimp only | with_reducible apply Keeps.ite | split
    | simp only [Keeps.mk_iff]

theorem State.buildOldest_keeps {r₀ s₀ : State} (h₀ : Keeps r₀ s₀) (p : Nat) :
    Keeps r₀ (State.buildOldest (s := s₀) (p := p)) := by
  unfold State.buildOldest
  repeat' first
    | with_reducible assumption | with_reducible apply State.modPort_keeps | with_reducible apply State.settle_keeps
    | with_reducible apply State.buildEntry1_keeps | (with_reducible apply foldl_keeps <;> intros) | dsimp only
    | with_reducible apply Keeps.ite | split | simp only [Keeps.mk_iff]

theorem State.makeEligible_keeps {r₀ s₀ : State} (h₀ : Keeps r₀ s₀) (n : Nat) :
    Keeps r₀ (State.makeEligible (s := s₀) (n := n)) := by
  unfold State.makeEligible
  repeat' first
    | with_reducible assumption | with_reducible apply State.raiseMute_keeps | with_reducible apply State.noteHp_keeps
    | with_reducible apply State.noteReady_keeps | (with_reducible apply foldl_keeps <;> intros) | dsimp only
    | with_reducible apply Keeps.ite | split | simp only [Keeps.mk_iff]

theorem State.openBreach_keeps {r₀ s₀ : State} (h₀ : Keeps r₀ s₀) (n : Nat) :
    Keeps r₀ (State.openBreach (s := s₀) (n := n)) := by
  unfold State.openBreach
  repeat' first
    | with_reducible assumption | with_reducible apply State.modRing_keeps
    | (with_reducible apply foldl_keeps <;> intros) | dsimp only | with_reducible apply Keeps.ite | split
    | simp only [Keeps.mk_iff]

theorem State.formBreach_keeps {r₀ s₀ : State} (h₀ : Keeps r₀ s₀) (n : Nat) (b : Breach) (open_ : Bool) :
    Keeps r₀ (State.formBreach (s := s₀) (n := n) (b := b) (open_ := open_)) := by
  unfold State.formBreach
  repeat' first
    | with_reducible assumption | with_reducible apply State.count_keeps | with_reducible apply State.formPlace_keeps
    | with_reducible apply State.noteHp_keeps | (with_reducible apply foldl_keeps <;> intros) | dsimp only
    | with_reducible apply Keeps.ite | split | simp only [Keeps.mk_iff]

theorem State.closeBreach_keeps {r₀ s₀ : State} (h₀ : Keeps r₀ s₀) (n : Nat) :
    Keeps r₀ (State.closeBreach (s := s₀) (n := n)) := by
  unfold State.closeBreach
  repeat' first
    | with_reducible assumption | with_reducible apply State.modRing_keeps
    | with_reducible apply State.formBreach_keeps | (with_reducible apply foldl_keeps <;> intros) | dsimp only
    | with_reducible apply Keeps.ite | split | simp only [Keeps.mk_iff]

theorem State.issueRec_keeps {r₀ s₀ : State} (h₀ : Keeps r₀ s₀) (n : Nat) (r : Rec) :
    Keeps r₀ (State.issueRec (s := s₀) (n := n) (r := r)) := by
  unfold State.issueRec
  repeat' first
    | with_reducible assumption | with_reducible apply State.modPort_keeps | with_reducible apply State.modRing_keeps
    | with_reducible apply State.emit_keeps | with_reducible apply State.srcEvent_keeps
    | with_reducible apply State.openBreach_keeps | (with_reducible apply foldl_keeps <;> intros) | dsimp only
    | with_reducible apply Keeps.ite | split | simp only [Keeps.mk_iff]

theorem State.emitRun_keeps {r₀ s₀ : State} (h₀ : Keeps r₀ s₀) (n : Nat) (c : Word) (l : List Rec) :
    Keeps r₀ (State.emitRun (s := s₀) (n := n) (c := c) (l := l)) := by
  unfold State.emitRun
  repeat' first
    | with_reducible assumption | with_reducible apply State.emit_keeps
    | (with_reducible apply foldl_keeps <;> intros) | dsimp only | with_reducible apply Keeps.ite | split
    | simp only [Keeps.mk_iff]

theorem State.issueRun_keeps {r₀ s₀ : State} (h₀ : Keeps r₀ s₀) (n : Nat) (l : List Rec) :
    Keeps r₀ (State.issueRun (s := s₀) (n := n) (l := l)) := by
  unfold State.issueRun
  repeat' first
    | with_reducible assumption | with_reducible apply State.modRing_keeps
    | with_reducible apply State.freeEntries_keeps | with_reducible apply State.noteReady_keeps
    | with_reducible apply State.formBreach_keeps | with_reducible apply State.closeBreach_keeps
    | with_reducible apply State.issueRec_keeps | with_reducible apply State.emitRun_keeps
    | (with_reducible apply foldl_keeps <;> intros) | dsimp only | with_reducible apply Keeps.ite | split
    | simp only [Keeps.mk_iff]

theorem State.bulkTurn_keeps {r₀ s₀ t : State} (h₀ : Keeps r₀ s₀) (l : List Nat) (a b : Nat)
    (e : s₀.bulkTurn l = some (a, b, t)) : Keeps r₀ t := by
  unfold State.bulkTurn at e
  dsimp only at e
  rw [Option.map_eq_some_iff] at e
  obtain ⟨n, _, e⟩ := e
  cases e
  simp only [Keeps.mk_iff]
  repeat' first | with_reducible assumption | with_reducible apply State.modRing_keeps | split

theorem State.sendMsg_keeps {r₀ s₀ : State} (h₀ : Keeps r₀ s₀) (m : Msg) :
    Keeps r₀ (State.sendMsg (s := s₀) (m := m)) := by
  unfold State.sendMsg
  repeat' first
    | with_reducible assumption | with_reducible apply State.emit_keeps
    | (with_reducible apply foldl_keeps <;> intros) | dsimp only | with_reducible apply Keeps.ite | split
    | simp only [Keeps.mk_iff]

theorem State.commit_keeps {r₀ s₀ : State} (h₀ : Keeps r₀ s₀) (recs : List Nat) :
    Keeps r₀ (State.commit (s := s₀) (recs := recs)) := by
  unfold State.commit
  repeat' first
    | with_reducible assumption | with_reducible apply State.incWrap_keeps | with_reducible apply State.emit_keeps
    | with_reducible apply State.unstage_keeps | with_reducible apply State.commitEntries_keeps
    | with_reducible apply State.upload_keeps | with_reducible apply State.commitSegment_keeps
    | (with_reducible apply foldl_keeps <;> intros) | dsimp only | with_reducible apply Keeps.ite | split
    | simp only [Keeps.mk_iff]

theorem State.unwrite_keeps {r₀ s₀ : State} (h₀ : Keeps r₀ s₀) :
    Keeps r₀ (State.unwrite (s := s₀)) := by
  unfold State.unwrite
  repeat' first
    | with_reducible assumption | with_reducible apply State.upload_keeps
    | (with_reducible apply foldl_keeps <;> intros) | dsimp only | with_reducible apply Keeps.ite | split
    | simp only [Keeps.mk_iff]

theorem State.rewriteRuns_keeps {r₀ s₀ : State} (h₀ : Keeps r₀ s₀) (n fuel : Nat) (l : List Rec) :
    Keeps r₀ (State.rewriteRuns n fuel l s₀) := by
  induction fuel generalizing s₀ l with
  | zero => unfold State.rewriteRuns; exact h₀
  | succ k ih =>
    cases l with
    | nil => unfold State.rewriteRuns; exact h₀
    | cons r t => unfold State.rewriteRuns; exact ih (State.emitRun_keeps h₀ _ _ _) _

theorem State.rewriteRing_keeps {r₀ s₀ : State} (h₀ : Keeps r₀ s₀) (n : Nat) :
    Keeps r₀ (State.rewriteRing (s := s₀) (n := n)) := by
  unfold State.rewriteRing
  repeat' first
    | with_reducible assumption | with_reducible apply State.rewriteRuns_keeps
    | (with_reducible apply foldl_keeps <;> intros) | dsimp only | with_reducible apply Keeps.ite | split
    | simp only [Keeps.mk_iff]

theorem State.loseDescs_keeps {r₀ s₀ : State} (h₀ : Keeps r₀ s₀) (lost : Desc → Bool) (p : Nat) :
    Keeps r₀ (State.loseDescs (s := s₀) (lost := lost) (p := p)) := by
  unfold State.loseDescs
  repeat' first
    | with_reducible assumption | with_reducible apply State.modPort_keeps | with_reducible apply State.txDone_keeps
    | with_reducible apply State.endJob_keeps | with_reducible apply State.checkHead_keeps
    | with_reducible apply State.restTx_keeps | (with_reducible apply foldl_keeps <;> intros) | dsimp only
    | with_reducible apply Keeps.ite | split | simp only [Keeps.mk_iff]

theorem State.noteSleep_keeps {r₀ s₀ : State} (h₀ : Keeps r₀ s₀) :
    Keeps r₀ (State.noteSleep (s := s₀)) := by
  unfold State.noteSleep
  repeat' first
    | with_reducible assumption | with_reducible apply State.cutCoalescing_keeps
    | with_reducible apply State.noteReadyAll_keeps | (with_reducible apply foldl_keeps <;> intros) | dsimp only
    | with_reducible apply Keeps.ite | split | simp only [Keeps.mk_iff]

theorem State.hostPower_keeps {r₀ s₀ : State} (h₀ : Keeps r₀ s₀) :
    Keeps r₀ (State.hostPower (s := s₀)) := by
  unfold State.hostPower
  repeat' first
    | with_reducible assumption | (with_reducible apply foldl_keeps <;> intros) | dsimp only
    | with_reducible apply Keeps.ite | split | simp only [Keeps.mk_iff]

theorem State.syncGlitch_keeps {r₀ s₀ : State} (h₀ : Keeps r₀ s₀) :
    Keeps r₀ (State.syncGlitch (s := s₀)) := by
  unfold State.syncGlitch
  repeat' first
    | with_reducible assumption | with_reducible apply State.wr_keeps | with_reducible apply State.incSat_keeps
    | with_reducible apply State.advance_keeps | with_reducible apply State.raiseEvent_keeps
    | (with_reducible apply foldl_keeps <;> intros) | dsimp only | with_reducible apply Keeps.ite | split
    | simp only [Keeps.mk_iff]

theorem State.syncQualify_keeps {r₀ s₀ : State} (h₀ : Keeps r₀ s₀) (e : SyncEdge) :
    Keeps r₀ (State.syncQualify (s := s₀) (e := e)) := by
  unfold State.syncQualify
  repeat' first
    | with_reducible assumption | with_reducible apply State.incWrap_keeps | with_reducible apply State.commit_keeps
    | (with_reducible apply foldl_keeps <;> intros) | dsimp only | with_reducible apply Keeps.ite | split
    | simp only [Keeps.mk_iff]

theorem State.sendSync_keeps {r₀ s₀ : State} (h₀ : Keeps r₀ s₀) (level : Bool) :
    Keeps r₀ (State.sendSync (s := s₀) (level := level)) := by
  unfold State.sendSync
  repeat' first
    | with_reducible assumption | with_reducible apply State.emit_keeps
    | (with_reducible apply foldl_keeps <;> intros) | dsimp only | with_reducible apply Keeps.ite | split
    | simp only [Keeps.mk_iff]

theorem State.forwardSync_keeps {r₀ s₀ : State} (h₀ : Keeps r₀ s₀) (level : Bool) (at_ : Nat) :
    Keeps r₀ (State.forwardSync (s := s₀) (level := level) (at_ := at_)) := by
  unfold State.forwardSync
  repeat' first
    | with_reducible assumption | with_reducible apply State.sendSync_keeps
    | (with_reducible apply foldl_keeps <;> intros) | dsimp only | with_reducible apply Keeps.ite | split
    | simp only [Keeps.mk_iff]

theorem State.startSync_keeps {r₀ s₀ : State} (h₀ : Keeps r₀ s₀) :
    Keeps r₀ (State.startSync (s := s₀)) := by
  unfold State.startSync
  repeat' first
    | with_reducible assumption | with_reducible apply State.sendSync_keeps
    | (with_reducible apply foldl_keeps <;> intros) | dsimp only | with_reducible apply Keeps.ite | split
    | simp only [Keeps.mk_iff]

theorem State.cancelFresco_keeps {r₀ s₀ : State} (h₀ : Keeps r₀ s₀) :
    Keeps r₀ (State.cancelFresco (s := s₀)) := by
  unfold State.cancelFresco
  repeat' first
    | with_reducible assumption | with_reducible apply State.wr_keeps | (with_reducible apply foldl_keeps <;> intros)
    | dsimp only | with_reducible apply Keeps.ite | split | simp only [Keeps.mk_iff]

theorem State.cancelSolstice_keeps {r₀ s₀ : State} (h₀ : Keeps r₀ s₀) :
    Keeps r₀ (State.cancelSolstice (s := s₀)) := by
  unfold State.cancelSolstice
  repeat' first
    | with_reducible assumption | with_reducible apply State.commit_keeps
    | (with_reducible apply foldl_keeps <;> intros) | dsimp only | with_reducible apply Keeps.ite | split
    | simp only [Keeps.mk_iff]

theorem State.shareEdges_keeps {r₀ s₀ : State} (h₀ : Keeps r₀ s₀) (l : List (Stamp × Stamp)) :
    Keeps r₀ (State.shareEdges (s := s₀) (l := l)) := by
  unfold State.shareEdges
  repeat' first
    | with_reducible assumption | (with_reducible apply foldl_keeps <;> intros) | dsimp only
    | with_reducible apply Keeps.ite | split | simp only [Keeps.mk_iff]

theorem tbApply_keeps {r₀ s₀ : State} (h₀ : Keeps r₀ s₀) (w : Nat) (old : Word) :
    Keeps r₀ (tbApply (s := s₀) (w := w) (old := old)) := by
  unfold tbApply
  repeat' first
    | with_reducible assumption | with_reducible apply State.calibEntry_keeps
    | (with_reducible apply foldl_keeps <;> intros) | dsimp only | with_reducible apply Keeps.ite | split
    | simp only [Keeps.mk_iff]

theorem State.solCancelNow_keeps {r₀ s₀ : State} (h₀ : Keeps r₀ s₀) :
    Keeps r₀ (State.solCancelNow (s := s₀)) := by
  unfold State.solCancelNow
  repeat' first
    | with_reducible assumption | with_reducible apply State.commit_keeps
    | with_reducible apply State.cancelSolstice_keeps | (with_reducible apply foldl_keeps <;> intros) | dsimp only
    | with_reducible apply Keeps.ite | split | simp only [Keeps.mk_iff]

theorem tbAct_keeps {r₀ s₀ : State} (h₀ : Keeps r₀ s₀) (w : Nat) (d : Word) :
    Keeps r₀ (tbAct (s := s₀) (w := w) (d := d)) := by
  unfold tbAct
  repeat' first
    | with_reducible assumption | with_reducible apply State.wr_keeps | with_reducible apply State.cancelFresco_keeps
    | with_reducible apply State.solCancelNow_keeps | (with_reducible apply foldl_keeps <;> intros) | dsimp only
    | with_reducible apply Keeps.ite | split | simp only [Keeps.mk_iff]

theorem State.auxRelease_keeps {r₀ s₀ : State} (h₀ : Keeps r₀ s₀) (m : Nat) :
    Keeps r₀ (State.auxRelease (s := s₀) (m := m)) := by
  unfold State.auxRelease
  repeat' first
    | with_reducible assumption | with_reducible apply State.modAux_keeps
    | (with_reducible apply foldl_keeps <;> intros) | dsimp only | with_reducible apply Keeps.ite | split
    | simp only [Keeps.mk_iff]

theorem State.auxBegin_keeps {r₀ s₀ : State} (h₀ : Keeps r₀ s₀) (m : Nat) :
    Keeps r₀ (State.auxBegin (s := s₀) (m := m)) := by
  unfold State.auxBegin
  repeat' first
    | with_reducible assumption | with_reducible apply State.modAux_keeps | with_reducible apply State.emit_keeps
    | (with_reducible apply foldl_keeps <;> intros) | dsimp only | with_reducible apply Keeps.ite | split
    | simp only [Keeps.mk_iff]

theorem State.auxError_keeps {r₀ s₀ : State} (h₀ : Keeps r₀ s₀) (m : Nat) (f : Fld) (cause : Nat) :
    Keeps r₀ (State.auxError (s := s₀) (m := m) (f := f) (cause := cause)) := by
  unfold State.auxError
  repeat' first
    | with_reducible assumption | with_reducible apply State.wr_keeps | with_reducible apply State.raiseEvent_keeps
    | (with_reducible apply foldl_keeps <;> intros) | dsimp only | with_reducible apply Keeps.ite | split
    | simp only [Keeps.mk_iff]

theorem State.loadBlock_keeps {r₀ s₀ : State} (h₀ : Keeps r₀ s₀) (block : Nat) (resume : Bool) :
    Keeps r₀ (State.loadBlock (s := s₀) (block := block) (resume := resume)) := by
  unfold State.loadBlock
  repeat' first
    | with_reducible assumption | with_reducible apply State.emit_keeps
    | (with_reducible apply foldl_keeps <;> intros) | dsimp only | with_reducible apply Keeps.ite | split
    | simp only [Keeps.mk_iff]

theorem State.endHold_keeps {r₀ s₀ : State} (h₀ : Keeps r₀ s₀) :
    Keeps r₀ (State.endHold (s := s₀)) := by
  unfold State.endHold
  repeat' first
    | with_reducible assumption | with_reducible apply State.modAux_keeps | with_reducible apply State.emit_keeps
    | (with_reducible apply foldl_keeps <;> intros) | dsimp only | with_reducible apply Keeps.ite | split
    | simp only [Keeps.mk_iff]

theorem State.resumeLoad_keeps {r₀ s₀ : State} (h₀ : Keeps r₀ s₀) :
    Keeps r₀ (State.resumeLoad (s := s₀)) := by
  unfold State.resumeLoad
  repeat' first
    | with_reducible assumption | with_reducible apply State.loadBlock_keeps
    | (with_reducible apply foldl_keeps <;> intros) | dsimp only | with_reducible apply Keeps.ite | split
    | simp only [Keeps.mk_iff]

theorem State.cutLoad_keeps {r₀ s₀ : State} (h₀ : Keeps r₀ s₀) :
    Keeps r₀ (State.cutLoad (s := s₀)) := by
  unfold State.cutLoad
  repeat' first
    | with_reducible assumption | with_reducible apply State.modAux_keeps | with_reducible apply State.emit_keeps
    | with_reducible apply State.auxBegin_keeps | (with_reducible apply foldl_keeps <;> intros) | dsimp only
    | with_reducible apply Keeps.ite | split | simp only [Keeps.mk_iff]

theorem State.flashAddress_keeps {r₀ s₀ : State} (h₀ : Keeps r₀ s₀) :
    Keeps r₀ (State.flashAddress (s := s₀)) := by
  unfold State.flashAddress
  repeat' first
    | with_reducible assumption | with_reducible apply State.loadBlock_keeps
    | with_reducible apply State.endHold_keeps | with_reducible apply State.cutLoad_keeps
    | (with_reducible apply foldl_keeps <;> intros) | dsimp only | with_reducible apply Keeps.ite | split
    | simp only [Keeps.mk_iff]

theorem State.dropBlock_keeps {r₀ s₀ : State} (h₀ : Keeps r₀ s₀) :
    Keeps r₀ (State.dropBlock (s := s₀)) := by
  unfold State.dropBlock
  repeat' first
    | with_reducible assumption | with_reducible apply State.endHold_keeps | with_reducible apply State.cutLoad_keeps
    | (with_reducible apply foldl_keeps <;> intros) | dsimp only | with_reducible apply Keeps.ite | split
    | simp only [Keeps.mk_iff]

theorem State.auxStart_keeps {r₀ s₀ : State} (h₀ : Keeps r₀ s₀) (m : Nat) :
    Keeps r₀ (State.auxStart (s := s₀) (m := m)) := by
  unfold State.auxStart
  repeat' first
    | with_reducible assumption | with_reducible apply State.modAux_keeps | with_reducible apply State.auxBegin_keeps
    | with_reducible apply State.endHold_keeps | (with_reducible apply foldl_keeps <;> intros) | dsimp only
    | with_reducible apply Keeps.ite | split | simp only [Keeps.mk_iff]

theorem State.auxAbort_keeps {r₀ s₀ : State} (h₀ : Keeps r₀ s₀) (m : Nat) (bits : List Bool) :
    Keeps r₀ (State.auxAbort (s := s₀) (m := m) (bits := bits)) := by
  unfold State.auxAbort
  repeat' first
    | with_reducible assumption | with_reducible apply State.modAux_keeps | with_reducible apply State.wr_keeps
    | with_reducible apply State.takeFree_keeps | with_reducible apply State.auxRelease_keeps
    | with_reducible apply State.auxError_keeps | (with_reducible apply foldl_keeps <;> intros) | dsimp only
    | with_reducible apply Keeps.ite | split | simp only [Keeps.mk_iff]

theorem axApply_keeps {r₀ s₀ : State} (h₀ : Keeps r₀ s₀) (i : Nat) (w : Nat) (_old : Word) :
    Keeps r₀ (axApply (s := s₀) (i := i) (w := w) (_old := _old)) := by
  unfold axApply
  repeat' first
    | with_reducible assumption | with_reducible apply State.modAux_keeps | with_reducible apply State.setReg_keeps
    | with_reducible apply State.endHold_keeps | with_reducible apply State.resumeLoad_keeps
    | with_reducible apply State.flashAddress_keeps | (with_reducible apply foldl_keeps <;> intros) | dsimp only
    | with_reducible apply Keeps.ite | split | simp only [Keeps.mk_iff]

theorem axAct_keeps {r₀ s₀ : State} (h₀ : Keeps r₀ s₀) (i : Nat) (w : Nat) (d : Word) (bits : List Bool) :
    Keeps r₀ (axAct (s := s₀) (i := i) (w := w) (d := d) (bits := bits)) := by
  unfold axAct
  repeat' first
    | with_reducible assumption | with_reducible apply State.emit_keeps | with_reducible apply State.dropBlock_keeps
    | with_reducible apply State.auxStart_keeps | with_reducible apply State.auxAbort_keeps
    | (with_reducible apply foldl_keeps <;> intros) | dsimp only | with_reducible apply Keeps.ite | split
    | simp only [Keeps.mk_iff]

theorem State.cuFaultSource_keeps {r₀ s₀ : State} (h₀ : Keeps r₀ s₀) :
    Keeps r₀ (State.cuFaultSource (s := s₀)) := by
  unfold State.cuFaultSource
  repeat' first
    | with_reducible assumption | with_reducible apply State.raiseLevel_keeps
    | (with_reducible apply foldl_keeps <;> intros) | dsimp only | with_reducible apply Keeps.ite | split
    | simp only [Keeps.mk_iff]

theorem State.cuSafeRegs_keeps {r₀ s₀ : State} (h₀ : Keeps r₀ s₀) (i : Nat) :
    Keeps r₀ (State.cuSafeRegs (s := s₀) (i := i)) := by
  unfold State.cuSafeRegs
  repeat' first
    | with_reducible assumption | with_reducible apply State.wr_keeps | (with_reducible apply foldl_keeps <;> intros)
    | dsimp only | with_reducible apply Keeps.ite | split | simp only [Keeps.mk_iff]

theorem State.cuSafe_keeps {r₀ s₀ : State} (h₀ : Keeps r₀ s₀) (i : Nat) :
    Keeps r₀ (State.cuSafe (s := s₀) (i := i)) := by
  unfold State.cuSafe
  repeat' first
    | with_reducible assumption | with_reducible apply State.modCu_keeps | with_reducible apply State.wr_keeps
    | with_reducible apply State.cuSafeRegs_keeps | (with_reducible apply foldl_keeps <;> intros) | dsimp only
    | with_reducible apply Keeps.ite | split | simp only [Keeps.mk_iff]

theorem State.cuFault_keeps {r₀ s₀ : State} (h₀ : Keeps r₀ s₀) (i : Nat) (bit : Fld) :
    Keeps r₀ (State.cuFault (s := s₀) (i := i) (bit := bit)) := by
  unfold State.cuFault
  repeat' first
    | with_reducible assumption | with_reducible apply State.modCu_keeps | with_reducible apply State.wr_keeps
    | with_reducible apply State.cuFaultSource_keeps | with_reducible apply State.cuSafeRegs_keeps
    | (with_reducible apply foldl_keeps <;> intros) | dsimp only | with_reducible apply Keeps.ite | split
    | simp only [Keeps.mk_iff]

theorem State.cuStartRange_keeps {r₀ s₀ : State} (h₀ : Keeps r₀ s₀) (i : Nat) :
    Keeps r₀ (State.cuStartRange (s := s₀) (i := i)) := by
  unfold State.cuStartRange
  repeat' first
    | with_reducible assumption | with_reducible apply State.modCu_keeps
    | (with_reducible apply foldl_keeps <;> intros) | dsimp only | with_reducible apply Keeps.ite | split
    | simp only [Keeps.mk_iff]

theorem State.cuKeepRef_keeps {r₀ s₀ : State} (h₀ : Keeps r₀ s₀) (i : Nat) (r : CuRef) :
    Keeps r₀ (State.cuKeepRef (s := s₀) (i := i) (r := r)) := by
  unfold State.cuKeepRef
  repeat' first
    | with_reducible assumption | with_reducible apply State.modCu_keeps
    | (with_reducible apply foldl_keeps <;> intros) | dsimp only | with_reducible apply Keeps.ite | split
    | simp only [Keeps.mk_iff]

theorem State.cuStartSource_keeps {r₀ s₀ : State} (h₀ : Keeps r₀ s₀) (i : Nat) :
    Keeps r₀ (State.cuStartSource (s := s₀) (i := i)) := by
  unfold State.cuStartSource
  repeat' first
    | with_reducible assumption | with_reducible apply State.modCu_keeps | with_reducible apply State.cuKeepRef_keeps
    | (with_reducible apply foldl_keeps <;> intros) | dsimp only | with_reducible apply Keeps.ite | split
    | simp only [Keeps.mk_iff]

theorem State.cuNewFreq_keeps {r₀ s₀ : State} (h₀ : Keeps r₀ s₀) (i : Nat) :
    Keeps r₀ (State.cuNewFreq (s := s₀) (i := i)) := by
  unfold State.cuNewFreq
  repeat' first
    | with_reducible assumption | with_reducible apply State.setCu_keeps | with_reducible apply State.cuKeepRef_keeps
    | (with_reducible apply foldl_keeps <;> intros) | dsimp only | with_reducible apply Keeps.ite | split
    | simp only [Keeps.mk_iff]

theorem cuApply_keeps {r₀ s₀ : State} (h₀ : Keeps r₀ s₀) (i : Nat) (w : Nat) (old : Word) :
    Keeps r₀ (cuApply (s := s₀) (i := i) (w := w) (old := old)) := by
  unfold cuApply
  repeat' first
    | with_reducible assumption | with_reducible apply State.modCu_keeps | with_reducible apply State.wr_keeps
    | with_reducible apply State.store_keeps | with_reducible apply State.wakeOct_keeps
    | with_reducible apply State.resolve_keeps | with_reducible apply State.cuStartRange_keeps
    | with_reducible apply State.cuStartSource_keeps | with_reducible apply State.cuNewFreq_keeps
    | (with_reducible apply foldl_keeps <;> intros) | dsimp only | with_reducible apply Keeps.ite | split
    | simp only [Keeps.mk_iff]

theorem cuAct_keeps {r₀ s₀ : State} (h₀ : Keeps r₀ s₀) (i : Nat) (w : Nat) (d : Word) :
    Keeps r₀ (cuAct (s := s₀) (i := i) (w := w) (d := d)) := by
  unfold cuAct
  repeat' first
    | with_reducible assumption | with_reducible apply State.modCu_keeps
    | (with_reducible apply foldl_keeps <;> intros) | dsimp only | with_reducible apply Keeps.ite | split
    | simp only [Keeps.mk_iff]

theorem State.cuCleared_keeps {r₀ s₀ : State} (h₀ : Keeps r₀ s₀) (i : Nat) :
    Keeps r₀ (State.cuCleared (s := s₀) (i := i)) := by
  unfold State.cuCleared
  repeat' first
    | with_reducible assumption | with_reducible apply State.modCu_keeps
    | with_reducible apply State.cuFaultSource_keeps | (with_reducible apply foldl_keeps <;> intros) | dsimp only
    | with_reducible apply Keeps.ite | split | simp only [Keeps.mk_iff]

theorem State.rangeStepAt_keeps {r₀ s₀ : State} (h₀ : Keeps r₀ s₀) (i n at_ : Nat) (f : State → State)
    (hf : ∀ s, Keeps r₀ s → Keeps r₀ (f s)) : Keeps r₀ (s₀.rangeStepAt i n at_ f) := by
  unfold State.rangeStepAt
  repeat' first
    | with_reducible assumption | with_reducible apply State.modCu_keeps | with_reducible apply State.advance_keeps
    | dsimp only | split | (with_reducible apply hf)

theorem State.palettesWritten_keeps {r₀ s₀ : State} (h₀ : Keeps r₀ s₀) (entries : List Nat) (ports : List Nat)
    (begun : List Nat) :
    Keeps r₀ (State.palettesWritten (s := s₀) (entries := entries) (ports := ports) (begun := begun)) := by
  unfold State.palettesWritten
  repeat' first
    | with_reducible assumption | with_reducible apply State.incWrap_keeps | with_reducible apply State.resolve_keeps
    | with_reducible apply State.rxPalChange_keeps | with_reducible apply State.txPalChange_keeps
    | (with_reducible apply foldl_keeps <;> intros) | dsimp only | with_reducible apply Keeps.ite | split
    | simp only [Keeps.mk_iff]

theorem State.disableTx_keeps {r₀ s₀ : State} (h₀ : Keeps r₀ s₀) (p : Nat) :
    Keeps r₀ (State.disableTx (s := s₀) (p := p)) := by
  unfold State.disableTx
  repeat' first
    | with_reducible assumption | with_reducible apply State.modPort_keeps
    | with_reducible apply State.dropReplies_keeps | with_reducible apply State.endQueue_keeps
    | with_reducible apply State.stopTx_keeps | (with_reducible apply foldl_keeps <;> intros) | dsimp only
    | with_reducible apply Keeps.ite | split | simp only [Keeps.mk_iff]

theorem ptApply_keeps {r₀ s₀ : State} (h₀ : Keeps r₀ s₀) (p : Nat) (w : Nat) (old : Word) :
    Keeps r₀ (ptApply (s := s₀) (p := p) (w := w) (old := old)) := by
  unfold ptApply
  repeat' first
    | with_reducible assumption | with_reducible apply State.sessionEntry_keeps
    | with_reducible apply State.sessionBegin_keeps | with_reducible apply State.touchMem0_keeps
    | with_reducible apply State.setRts_keeps | with_reducible apply State.notePressure_keeps
    | with_reducible apply State.stopRx_keeps | with_reducible apply State.resolve_keeps
    | with_reducible apply State.disableTx_keeps | (with_reducible apply foldl_keeps <;> intros) | dsimp only
    | with_reducible apply Keeps.ite | split | simp only [Keeps.mk_iff]

theorem State.flushTx_keeps {r₀ s₀ : State} (h₀ : Keeps r₀ s₀) (p : Nat) :
    Keeps r₀ (State.flushTx (s := s₀) (p := p)) := by
  unfold State.flushTx
  repeat' first
    | with_reducible assumption | with_reducible apply State.modPort_keeps | with_reducible apply State.endJob_keeps
    | with_reducible apply State.endQueue_keeps | with_reducible apply State.restTx_keeps
    | (with_reducible apply foldl_keeps <;> intros) | dsimp only | with_reducible apply Keeps.ite | split
    | simp only [Keeps.mk_iff]

theorem ptAct_keeps {r₀ s₀ : State} (h₀ : Keeps r₀ s₀) (p : Nat) (w : Nat) (d : Word) :
    Keeps r₀ (ptAct (s := s₀) (p := p) (w := w) (d := d)) := by
  unfold ptAct
  repeat' first
    | with_reducible assumption | with_reducible apply State.modPort_keeps
    | with_reducible apply State.closeGate_keeps | with_reducible apply State.reacq_keeps
    | with_reducible apply State.flushTx_keeps | (with_reducible apply foldl_keeps <;> intros) | dsimp only
    | with_reducible apply Keeps.ite | split | simp only [Keeps.mk_iff]

theorem rgApply_keeps {r₀ s₀ : State} (h₀ : Keeps r₀ s₀) (n : Nat) (w : Nat) (_old : Word) :
    Keeps r₀ (rgApply (s := s₀) (n := n) (w := w) (_old := _old)) := by
  unfold rgApply
  repeat' first
    | with_reducible assumption | with_reducible apply State.setRing_keeps | with_reducible apply State.wr_keeps
    | (with_reducible apply foldl_keeps <;> intros) | dsimp only | with_reducible apply Keeps.ite | split
    | simp only [Keeps.mk_iff]

theorem State.notePermits_keeps {r₀ s₀ : State} (h₀ : Keeps r₀ s₀) :
    Keeps r₀ (State.notePermits (s := s₀)) := by
  unfold State.notePermits
  repeat' first
    | with_reducible assumption | with_reducible apply State.wakeOct_keeps
    | (with_reducible apply foldl_keeps <;> intros) | dsimp only | with_reducible apply Keeps.ite | split
    | simp only [Keeps.mk_iff]

theorem State.holdPorts_keeps {r₀ s₀ : State} (h₀ : Keeps r₀ s₀) (o : Nat) :
    Keeps r₀ (State.holdPorts (s := s₀) (o := o)) := by
  unfold State.holdPorts
  repeat' first
    | with_reducible assumption | (with_reducible apply foldl_keeps <;> intros) | dsimp only
    | with_reducible apply Keeps.ite | split | simp only [Keeps.mk_iff]

theorem State.safeUnits_keeps {r₀ s₀ : State} (h₀ : Keeps r₀ s₀) (o : Nat) :
    Keeps r₀ (State.safeUnits (s := s₀) (o := o)) := by
  unfold State.safeUnits
  repeat' first
    | with_reducible assumption | with_reducible apply State.cuSafe_keeps
    | (with_reducible apply foldl_keeps <;> intros) | dsimp only | with_reducible apply Keeps.ite | split
    | simp only [Keeps.mk_iff]

theorem State.releasePort_keeps {r₀ s₀ : State} (h₀ : Keeps r₀ s₀) (p : Nat) :
    Keeps r₀ (State.releasePort (s := s₀) (p := p)) := by
  unfold State.releasePort
  repeat' first
    | with_reducible assumption | with_reducible apply State.setPort_keeps | with_reducible apply State.modPort_keeps
    | with_reducible apply State.fresh_keeps | with_reducible apply State.checkHead_keeps
    | with_reducible apply State.reacq_keeps | (with_reducible apply foldl_keeps <;> intros) | dsimp only
    | with_reducible apply Keeps.ite | split | simp only [Keeps.mk_iff]

theorem State.replayInputs_keeps {r₀ s₀ : State} (h₀ : Keeps r₀ s₀) (o : Nat) (left : Nat) :
    Keeps r₀ (State.replayInputs (s := s₀) (o := o) (left := left)) := by
  unfold State.replayInputs
  repeat' first
    | with_reducible assumption | with_reducible apply State.replayInput_keeps
    | (with_reducible apply foldl_keeps <;> intros) | dsimp only | with_reducible apply Keeps.ite | split
    | simp only [Keeps.mk_iff]

theorem State.octRuns_keeps {r₀ s₀ : State} (h₀ : Keeps r₀ s₀) (o : Nat) :
    Keeps r₀ (State.octRuns (s := s₀) (o := o)) := by
  unfold State.octRuns
  repeat' first
    | with_reducible assumption | with_reducible apply State.modOct_keeps | with_reducible apply State.unholdOct_keeps
    | with_reducible apply State.applyPinCfg_keeps | with_reducible apply State.restoreLevels_keeps
    | with_reducible apply State.cuStartSource_keeps | with_reducible apply State.releasePort_keeps
    | with_reducible apply State.replayInputs_keeps | (with_reducible apply foldl_keeps <;> intros) | dsimp only
    | with_reducible apply Keeps.ite | split | simp only [Keeps.mk_iff]

theorem State.setMem0_keeps {r₀ s₀ : State} (h₀ : Keeps r₀ s₀) (x : DomState) :
    Keeps r₀ (State.setMem0 (s := s₀) (x := x)) := by
  unfold State.setMem0
  repeat' first
    | with_reducible assumption | with_reducible apply State.flowRelease_keeps
    | (with_reducible apply foldl_keeps <;> intros) | dsimp only | with_reducible apply Keeps.ite | split
    | simp only [Keeps.mk_iff]

theorem pwApply_keeps {r₀ s₀ : State} (h₀ : Keeps r₀ s₀) (w : Nat) :
    Keeps r₀ (pwApply (s := s₀) (w := w)) := by
  unfold pwApply
  repeat' first
    | with_reducible assumption | with_reducible apply State.askMem0_keeps | with_reducible apply State.askMem1_keeps
    | with_reducible apply State.notePermits_keeps | (with_reducible apply foldl_keeps <;> intros) | dsimp only
    | with_reducible apply Keeps.ite | split | simp only [Keeps.mk_iff]

theorem State.setTemps_keeps {r₀ s₀ : State} (h₀ : Keeps r₀ s₀) (core : BitVec 8) (sio : BitVec 8) (hbm : BitVec 8) :
    Keeps r₀ (State.setTemps (s := s₀) (core := core) (sio := sio) (hbm := hbm)) := by
  unfold State.setTemps
  repeat' first
    | with_reducible assumption | with_reducible apply State.wr_keeps | (with_reducible apply foldl_keeps <;> intros)
    | dsimp only | with_reducible apply Keeps.ite | split | simp only [Keeps.mk_iff]

theorem State.noteHeat_keeps {r₀ s₀ : State} (h₀ : Keeps r₀ s₀) (hot : Nat) :
    Keeps r₀ (State.noteHeat (s := s₀) (hot := hot)) := by
  unfold State.noteHeat
  repeat' first
    | with_reducible assumption | with_reducible apply State.raiseLevel_keeps
    | (with_reducible apply foldl_keeps <;> intros) | dsimp only | with_reducible apply Keeps.ite | split
    | simp only [Keeps.mk_iff]

theorem State.chainDue_keeps {r₀ s₀ : State} (h₀ : Keeps r₀ s₀) :
    Keeps r₀ (State.chainDue (s := s₀)) := by
  unfold State.chainDue
  repeat' first
    | with_reducible assumption | (with_reducible apply foldl_keeps <;> intros) | dsimp only
    | with_reducible apply Keeps.ite | split | simp only [Keeps.mk_iff]

theorem State.respond_keeps {r₀ s₀ : State} (h₀ : Keeps r₀ s₀) (head : BitVec 64) (code : Code) (data : Word) (more
    : List Word) (delay : Nat) :
    Keeps r₀ (State.respond (s := s₀) (head := head) (code := code) (data := data) (more := more) (delay := delay))
        := by
  unfold State.respond
  repeat' first
    | with_reducible assumption | with_reducible apply State.setReg_keeps | with_reducible apply State.chainDue_keeps
    | (with_reducible apply foldl_keeps <;> intros) | dsimp only | with_reducible apply Keeps.ite | split
    | simp only [Keeps.mk_iff]

theorem State.setPair_keeps {r₀ s₀ : State} (h₀ : Keeps r₀ s₀) (x : PairState) :
    Keeps r₀ (State.setPair (s := s₀) (x := x)) := by
  unfold State.setPair
  repeat' first
    | with_reducible assumption | (with_reducible apply foldl_keeps <;> intros) | dsimp only
    | with_reducible apply Keeps.ite | split | simp only [Keeps.mk_iff]

theorem State.frescoAlone_keeps {r₀ s₀ : State} (h₀ : Keeps r₀ s₀) :
    Keeps r₀ (State.frescoAlone (s := s₀)) := by
  unfold State.frescoAlone
  repeat' first
    | with_reducible assumption | with_reducible apply State.wr_keeps | (with_reducible apply foldl_keeps <;> intros)
    | dsimp only | with_reducible apply Keeps.ite | split | simp only [Keeps.mk_iff]

theorem State.pairEnds_keeps {r₀ s₀ : State} (h₀ : Keeps r₀ s₀) :
    Keeps r₀ (State.pairEnds (s := s₀)) := by
  unfold State.pairEnds
  repeat' first
    | with_reducible assumption | with_reducible apply State.wr_keeps | with_reducible apply State.frescoAlone_keeps
    | (with_reducible apply foldl_keeps <;> intros) | dsimp only | with_reducible apply Keeps.ite | split
    | simp only [Keeps.mk_iff]

theorem State.clearOffset_keeps {r₀ s₀ : State} (h₀ : Keeps r₀ s₀) :
    Keeps r₀ (State.clearOffset (s := s₀)) := by
  unfold State.clearOffset
  repeat' first
    | with_reducible assumption | with_reducible apply State.wr_keeps | with_reducible apply State.pairEnds_keeps
    | (with_reducible apply foldl_keeps <;> intros) | dsimp only | with_reducible apply Keeps.ite | split
    | simp only [Keeps.mk_iff]

theorem State.driversOff_keeps {r₀ s₀ : State} (h₀ : Keeps r₀ s₀) :
    Keeps r₀ (State.driversOff (s := s₀)) := by
  unfold State.driversOff
  repeat' first
    | with_reducible assumption | with_reducible apply State.claim_keeps | with_reducible apply State.drive_keeps
    | (with_reducible apply foldl_keeps <;> intros) | dsimp only | with_reducible apply Keeps.ite | split
    | simp only [Keeps.mk_iff]

theorem State.noteEligible_keeps {r₀ s₀ : State} (h₀ : Keeps r₀ s₀) :
    Keeps r₀ (State.noteEligible (s := s₀)) := by
  unfold State.noteEligible
  repeat' first
    | with_reducible assumption | with_reducible apply State.driversOff_keeps
    | (with_reducible apply foldl_keeps <;> intros) | dsimp only | with_reducible apply Keeps.ite | split
    | simp only [Keeps.mk_iff]

theorem State.unpair_keeps {r₀ s₀ : State} (h₀ : Keeps r₀ s₀) :
    Keeps r₀ (State.unpair (s := s₀)) := by
  unfold State.unpair
  repeat' first
    | with_reducible assumption | with_reducible apply State.freeHeld_keeps
    | (with_reducible apply foldl_keeps <;> intros) | dsimp only | with_reducible apply Keeps.ite | split
    | simp only [Keeps.mk_iff]

theorem State.release_keeps {r₀ s₀ : State} (h₀ : Keeps r₀ s₀) :
    Keeps r₀ (State.release (s := s₀)) := by
  unfold State.release
  repeat' first
    | with_reducible assumption | with_reducible apply State.driversOff_keeps
    | with_reducible apply State.unpair_keeps | (with_reducible apply foldl_keeps <;> intros) | dsimp only
    | with_reducible apply Keeps.ite | split | simp only [Keeps.mk_iff]

theorem State.enablePad_keeps {r₀ s₀ : State} (h₀ : Keeps r₀ s₀) (q : Nat) :
    Keeps r₀ (State.enablePad (s := s₀) (q := q)) := by
  unfold State.enablePad
  repeat' first
    | with_reducible assumption | with_reducible apply State.modPin_keeps | with_reducible apply State.emit_keeps
    | with_reducible apply State.drive_keeps | (with_reducible apply foldl_keeps <;> intros) | dsimp only
    | with_reducible apply Keeps.ite | split | simp only [Keeps.mk_iff]

theorem State.enableDrivers_keeps {r₀ s₀ : State} (h₀ : Keeps r₀ s₀) (o : Nat) :
    Keeps r₀ (State.enableDrivers (s := s₀) (o := o)) := by
  unfold State.enableDrivers
  repeat' first
    | with_reducible assumption | with_reducible apply State.modPin_keeps | with_reducible apply State.modCu_keeps
    | with_reducible apply State.wakeOct_keeps | with_reducible apply State.enablePad_keeps
    | (with_reducible apply foldl_keeps <;> intros) | dsimp only | with_reducible apply Keeps.ite | split
    | simp only [Keeps.mk_iff]

theorem State.ringsOff_keeps {r₀ s₀ : State} (h₀ : Keeps r₀ s₀) :
    Keeps r₀ (State.ringsOff (s := s₀)) := by
  unfold State.ringsOff
  repeat' first
    | with_reducible assumption | with_reducible apply State.setReg_keeps | with_reducible apply State.wr_keeps
    | with_reducible apply State.upload_keeps | (with_reducible apply foldl_keeps <;> intros) | dsimp only
    | with_reducible apply Keeps.ite | split | simp only [Keeps.mk_iff]

theorem State.monitorsOff_keeps {r₀ s₀ : State} (h₀ : Keeps r₀ s₀) :
    Keeps r₀ (State.monitorsOff (s := s₀)) := by
  unfold State.monitorsOff
  repeat' first
    | with_reducible assumption | (with_reducible apply foldl_keeps <;> intros) | dsimp only
    | with_reducible apply Keeps.ite | split | simp only [Keeps.mk_iff]

theorem State.yieldMember_keeps {r₀ s₀ : State} (h₀ : Keeps r₀ s₀) :
    Keeps r₀ (State.yieldMember (s := s₀)) := by
  unfold State.yieldMember
  repeat' first
    | with_reducible assumption | with_reducible apply State.wr_keeps | with_reducible apply State.settle_keeps
    | with_reducible apply State.forget_keeps | with_reducible apply State.sessionEntry_keeps
    | with_reducible apply State.resolve_keeps | with_reducible apply State.ringsOff_keeps
    | with_reducible apply State.monitorsOff_keeps | (with_reducible apply foldl_keeps <;> intros) | dsimp only
    | with_reducible apply Keeps.ite | split | simp only [Keeps.mk_iff]

theorem State.resumeAlmanac_keeps {r₀ s₀ : State} (h₀ : Keeps r₀ s₀) :
    Keeps r₀ (State.resumeAlmanac (s := s₀)) := by
  unfold State.resumeAlmanac
  repeat' first
    | with_reducible assumption | with_reducible apply State.pairEntry_keeps
    | (with_reducible apply foldl_keeps <;> intros) | dsimp only | with_reducible apply Keeps.ite | split
    | simp only [Keeps.mk_iff]

theorem State.disengage_keeps {r₀ s₀ : State} (h₀ : Keeps r₀ s₀) :
    Keeps r₀ (State.disengage (s := s₀)) := by
  unfold State.disengage
  repeat' first
    | with_reducible assumption | with_reducible apply State.wr_keeps | with_reducible apply State.setPair_keeps
    | with_reducible apply State.pairEnds_keeps | with_reducible apply State.clearOffset_keeps
    | with_reducible apply State.unpair_keeps | with_reducible apply State.yieldMember_keeps
    | with_reducible apply State.resumeAlmanac_keeps | (with_reducible apply foldl_keeps <;> intros) | dsimp only
    | with_reducible apply Keeps.ite | split | simp only [Keeps.mk_iff]

theorem State.engageFails_keeps {r₀ s₀ : State} (h₀ : Keeps r₀ s₀) (code : Nat) :
    Keeps r₀ (State.engageFails (s := s₀) (code := code)) := by
  unfold State.engageFails
  repeat' first
    | with_reducible assumption | with_reducible apply State.wr_keeps | with_reducible apply State.raiseEvent_keeps
    | (with_reducible apply foldl_keeps <;> intros) | dsimp only | with_reducible apply Keeps.ite | split
    | simp only [Keeps.mk_iff]

theorem State.abandonEngage_keeps {r₀ s₀ : State} (h₀ : Keeps r₀ s₀) (code : Nat) :
    Keeps r₀ (State.abandonEngage (s := s₀) (code := code)) := by
  unfold State.abandonEngage
  repeat' first
    | with_reducible assumption | with_reducible apply State.setPair_keeps | with_reducible apply State.unpair_keeps
    | with_reducible apply State.yieldMember_keeps | with_reducible apply State.engageFails_keeps
    | (with_reducible apply foldl_keeps <;> intros) | dsimp only | with_reducible apply Keeps.ite | split
    | simp only [Keeps.mk_iff]

theorem State.mirrorFails_keeps {r₀ s₀ : State} (h₀ : Keeps r₀ s₀) :
    Keeps r₀ (State.mirrorFails (s := s₀)) := by
  unfold State.mirrorFails
  repeat' first
    | with_reducible assumption | with_reducible apply State.respond_keeps
    | (with_reducible apply foldl_keeps <;> intros) | dsimp only | with_reducible apply Keeps.ite | split
    | simp only [Keeps.mk_iff]

theorem State.hingeDown_keeps {r₀ s₀ : State} (h₀ : Keeps r₀ s₀) :
    Keeps r₀ (State.hingeDown (s := s₀)) := by
  unfold State.hingeDown
  repeat' first
    | with_reducible assumption | with_reducible apply State.wr_keeps | with_reducible apply State.incSat_keeps
    | with_reducible apply State.raiseEvent_keeps | with_reducible apply State.setPair_keeps
    | with_reducible apply State.pairEnds_keeps | with_reducible apply State.unpair_keeps
    | with_reducible apply State.abandonEngage_keeps | with_reducible apply State.mirrorFails_keeps
    | (with_reducible apply foldl_keeps <;> intros) | dsimp only | with_reducible apply Keeps.ite | split
    | simp only [Keeps.mk_iff]

theorem State.engage_keeps {r₀ s₀ : State} (h₀ : Keeps r₀ s₀) :
    Keeps r₀ (State.engage (s := s₀)) := by
  unfold State.engage
  repeat' first
    | with_reducible assumption | with_reducible apply State.emit_keeps | with_reducible apply State.unpair_keeps
    | with_reducible apply State.engageFails_keeps | (with_reducible apply foldl_keeps <;> intros) | dsimp only
    | with_reducible apply Keeps.ite | split | simp only [Keeps.mk_iff]

theorem State.adoptRegs_keeps {r₀ s₀ : State} (h₀ : Keeps r₀ s₀) (m : Sparse Word) :
    Keeps r₀ (State.adoptRegs (s := s₀) (m := m)) := by
  unfold State.adoptRegs
  repeat' first
    | with_reducible assumption | with_reducible apply State.setReg_keeps
    | (with_reducible apply foldl_keeps <;> intros) | dsimp only | with_reducible apply Keeps.ite | split
    | simp only [Keeps.mk_iff]

theorem State.adopt_keeps {r₀ s₀ : State} (h₀ : Keeps r₀ s₀) (i : Image) :
    Keeps r₀ (State.adopt (s := s₀) (i := i)) := by
  unfold State.adopt
  repeat' first
    | with_reducible assumption | with_reducible apply State.modPort_keeps | with_reducible apply State.resolve_keeps
    | with_reducible apply State.notePermits_keeps | with_reducible apply State.adoptRegs_keeps
    | (with_reducible apply foldl_keeps <;> intros) | dsimp only | with_reducible apply Keeps.ite | split
    | simp only [Keeps.mk_iff]

theorem State.suspendAlmanac_keeps {r₀ s₀ : State} (h₀ : Keeps r₀ s₀) :
    Keeps r₀ (State.suspendAlmanac (s := s₀)) := by
  unfold State.suspendAlmanac
  repeat' first
    | with_reducible assumption | (with_reducible apply foldl_keeps <;> intros) | dsimp only
    | with_reducible apply Keeps.ite | split | simp only [Keeps.mk_iff]

theorem State.decided_keeps {r₀ s₀ : State} (h₀ : Keeps r₀ s₀) (p : Nat) (e : BlockEntry) :
    Keeps r₀ (State.decided (s := s₀) (p := p) (e := e)) := by
  unfold State.decided
  repeat' first
    | with_reducible assumption | with_reducible apply State.portEntryNow_keeps
    | with_reducible apply State.countEvent_keeps | with_reducible apply State.breakClears_keeps
    | with_reducible apply State.overflow_keeps | (with_reducible apply foldl_keeps <;> intros) | dsimp only
    | with_reducible apply Keeps.ite | split | simp only [Keeps.mk_iff]

theorem State.decideAs_keeps {r₀ s₀ : State} (h₀ : Keeps r₀ s₀) (p : Nat) (o : Option Own) (e : BlockEntry) :
    Keeps r₀ (State.decideAs (s := s₀) (p := p) (o := o) (e := e)) := by
  unfold State.decideAs
  repeat' first
    | with_reducible assumption | with_reducible apply State.confirmChar_keeps
    | with_reducible apply State.confirmWon_keeps | with_reducible apply State.win_keeps
    | with_reducible apply State.decided_keeps | (with_reducible apply foldl_keeps <;> intros) | dsimp only
    | with_reducible apply Keeps.ite | split | simp only [Keeps.mk_iff]

theorem State.settleList_keeps {r₀ s₀ : State} (h₀ : Keeps r₀ s₀) (p : Nat) (l : List Own) :
    Keeps r₀ (State.settleList p l s₀) := by
  induction l generalizing s₀ with
  | nil => unfold State.settleList; exact h₀
  | cons a t ih =>
    unfold State.settleList
    split <;> rename_i e <;> try (cases e)
    · exact ih (State.settleWin_keeps (State.modPort_keeps h₀ _ _) _ _)
    · exact ih (State.settleEnd_keeps (State.modPort_keeps h₀ _ _) _ _ _ _ _)
    · exact ih (State.portEntryNow_keeps (State.modPort_keeps h₀ _ _) _ _ _ _)
    · exact h₀

theorem State.settleOwn_keeps {r₀ s₀ : State} (h₀ : Keeps r₀ s₀) (p : Nat) :
    Keeps r₀ (State.settleOwn (s := s₀) (p := p)) := by
  unfold State.settleOwn
  repeat' first
    | with_reducible assumption | with_reducible apply State.settleList_keeps
    | (with_reducible apply foldl_keeps <;> intros) | dsimp only | with_reducible apply Keeps.ite | split
    | simp only [Keeps.mk_iff]

theorem State.rebuildOne_keeps {r₀ s₀ : State} (h₀ : Keeps r₀ s₀) (p : Nat) (es : List BlockEntry)
    (sh : List (Stamp × Stamp)) (code : List Stamp) (z : State × List BlockEntry × List (Stamp × Stamp))
    (e : State.rebuildOne p (some (s₀, es, sh)) code = some z) : Keeps r₀ z.1 := by
  unfold State.rebuildOne at e
  have h := State.settleOwn_keeps h₀ p
  simp only [Option.bind_some] at e
  split at e
  · cases e
    dsimp only
    exact State.modPort_keeps h _ _
  · split at e
    · split at e
      · cases e
        dsimp only
        exact State.decideAs_keeps (State.modPort_keeps h _ _) _ _ _
      · cases e
    · cases e

theorem State.rebuild_keeps {r₀ s₀ : State} (h₀ : Keeps r₀ s₀) (p : Nat) (codes : List (List Stamp)) (crc : BitVec 32)
    (z : State × List (Stamp × Stamp)) (e : s₀.rebuild p codes crc = some z) : Keeps r₀ z.1 := by
  have k : ∀ (l : List (List Stamp)) (a : Option (State × List BlockEntry × List (Stamp × Stamp))),
      (∀ y, a = some y → Keeps r₀ y.1) → ∀ y, l.foldl (State.rebuildOne p) a = some y → Keeps r₀ y.1 := by
    intro l
    induction l with
    | nil => exact fun a h y e => h y e
    | cons c t ih =>
      intro a h y e
      refine ih _ (fun x f => ?_) y e
      cases a with
      | none => cases f
      | some q => exact State.rebuildOne_keeps (h q rfl) _ _ _ _ _ f
  unfold State.rebuild at e
  split at e
  · rename_i q
    split at e
    · cases e
      exact State.settleOwn_keeps (k _ _ (fun y f => by cases f; exact h₀) _ q) _
    · cases e
  · cases e

theorem State.disagree_keeps {r₀ s₀ : State} (h₀ : Keeps r₀ s₀) (p : Nat) (codes : List (List Stamp)) :
    Keeps r₀ (State.disagree (s := s₀) (p := p) (codes := codes)) := by
  unfold State.disagree
  repeat' first
    | with_reducible assumption | with_reducible apply State.modPort_keeps | with_reducible apply State.wr_keeps
    | with_reducible apply State.incSat_keeps | with_reducible apply State.emit_keeps
    | with_reducible apply State.request_keeps | with_reducible apply State.raiseEvent_keeps
    | with_reducible apply State.rebuildOne_keeps | (with_reducible apply foldl_keeps <;> intros) | dsimp only
    | with_reducible apply Keeps.ite | split | simp only [Keeps.mk_iff]

theorem State.takeBlock_keeps {r₀ s₀ : State} (h₀ : Keeps r₀ s₀) (p : Nat) (codes : List (List Stamp)) (crc : BitVec
    32) :
    Keeps r₀ (s₀.takeBlock p codes crc) := by
  unfold State.takeBlock
  split
  · exact State.modPort_keeps h₀ _ _
  · split
    · rename_i e
      have k := State.incWrap_keeps (State.rebuild_keeps h₀ p codes crc _ e) Reg.HG_AGREE 0 codes.length
      exact State.emit_keeps (Keeps.ite (State.shareEdges_keeps k _) k) _
    · exact State.disagree_keeps h₀ _ _

theorem State.adoptEntry_keeps {r₀ s₀ : State} (h₀ : Keeps r₀ s₀) (p : Nat) (e : BlockEntry) :
    Keeps r₀ (State.adoptEntry (p := p) (s := s₀) (e := e)) := by
  unfold State.adoptEntry
  repeat' first
    | with_reducible assumption | with_reducible apply State.modPort_keeps | with_reducible apply State.decideAs_keeps
    | with_reducible apply State.settleOwn_keeps | (with_reducible apply foldl_keeps <;> intros) | dsimp only
    | with_reducible apply Keeps.ite | split | simp only [Keeps.mk_iff]

theorem State.adoptPort_keeps {r₀ s₀ : State} (h₀ : Keeps r₀ s₀) (p : Nat) (y : Port) :
    Keeps r₀ (State.adoptPort (s := s₀) (p := p) (y := y)) := by
  unfold State.adoptPort
  repeat' first
    | with_reducible assumption | with_reducible apply State.modPort_keeps | with_reducible apply State.emit_keeps
    | with_reducible apply State.takeBlock_keeps | (with_reducible apply foldl_keeps <;> intros) | dsimp only
    | with_reducible apply Keeps.ite | split | simp only [Keeps.mk_iff]

theorem State.decideSome_keeps {r₀ s₀ : State} (h₀ : Keeps r₀ s₀) (p n : Nat) : Keeps r₀ (State.decideSome p n s₀) := by
  induction n generalizing s₀ with
  | zero => exact State.settleOwn_keeps h₀ _
  | succ n ih =>
    unfold State.decideSome
    have h := State.settleOwn_keeps h₀ p
    dsimp only
    split
    · refine ih ?_
      split
      · exact State.decideAs_keeps (State.modPort_keeps h _ _) _ _ _
      · exact State.modPort_keeps h _ _
    · exact h

theorem State.decideLater_keeps {r₀ s₀ : State} (h₀ : Keeps r₀ s₀) (p : Nat) : Keeps r₀ (s₀.decideLater p) := by
  unfold State.decideLater
  refine foldl_keeps _ (State.modPort_keeps (State.decideSome_keeps h₀ _ _) _ _) (fun s b h => ?_)
  split
  · rename_i e
    exact State.rebuild_keeps h _ _ _ _ e
  · exact State.modPort_keeps (State.decideSome_keeps h _ _) _ _

theorem State.decideRest_keeps {r₀ s₀ : State} (h₀ : Keeps r₀ s₀) (p : Nat) :
    Keeps r₀ (State.decideRest (s := s₀) (p := p)) := by
  unfold State.decideRest
  repeat' first
    | with_reducible assumption | with_reducible apply State.modPort_keeps
    | with_reducible apply State.decideSome_keeps | (with_reducible apply foldl_keeps <;> intros) | dsimp only
    | with_reducible apply Keeps.ite | split | simp only [Keeps.mk_iff]

theorem State.holdRecord_keeps {r₀ s₀ : State} (h₀ : Keeps r₀ s₀) (r : Rec) :
    Keeps r₀ (State.holdRecord (s := s₀) (r := r)) := by
  unfold State.holdRecord
  repeat' first
    | with_reducible assumption | with_reducible apply State.modPort_keeps | with_reducible apply State.fresh_keeps
    | with_reducible apply State.takeOrder_keeps | with_reducible apply State.noteStaging_keeps
    | (with_reducible apply foldl_keeps <;> intros) | dsimp only | with_reducible apply Keeps.ite | split
    | simp only [Keeps.mk_iff]

theorem State.followEntry_keeps {r₀ s₀ : State} (h₀ : Keeps r₀ s₀) (r : Rec) :
    Keeps r₀ (State.followEntry (s := s₀) (r := r)) := by
  unfold State.followEntry
  repeat' first
    | with_reducible assumption | with_reducible apply State.wr_keeps | with_reducible apply State.fresh_keeps
    | with_reducible apply State.followSession_keeps | (with_reducible apply foldl_keeps <;> intros) | dsimp only
    | with_reducible apply Keeps.ite | split | simp only [Keeps.mk_iff]

theorem State.followCapture_keeps {r₀ s₀ : State} (h₀ : Keeps r₀ s₀) (r : Rec) :
    Keeps r₀ (State.followCapture (s := s₀) (r := r)) := by
  unfold State.followCapture
  repeat' first
    | with_reducible assumption | (with_reducible apply foldl_keeps <;> intros) | dsimp only
    | with_reducible apply Keeps.ite | split | simp only [Keeps.mk_iff]

theorem State.takeCarillon_keeps {r₀ s₀ : State} (h₀ : Keeps r₀ s₀) :
    Keeps r₀ (State.takeCarillon (s := s₀)) := by
  unfold State.takeCarillon
  repeat' first
    | with_reducible assumption | with_reducible apply State.cut_keeps | (with_reducible apply foldl_keeps <;> intros)
    | dsimp only | with_reducible apply Keeps.ite | split | simp only [Keeps.mk_iff]

theorem State.resumeTx_keeps {r₀ s₀ : State} (h₀ : Keeps r₀ s₀) (p : Nat) :
    Keeps r₀ (State.resumeTx (s := s₀) (p := p)) := by
  unfold State.resumeTx
  repeat' first
    | with_reducible assumption | with_reducible apply State.setPort_keeps | with_reducible apply State.incSat_keeps
    | with_reducible apply State.finishJob_keeps | (with_reducible apply foldl_keeps <;> intros) | dsimp only
    | with_reducible apply Keeps.ite | split | simp only [Keeps.mk_iff]

theorem State.issueAgain_keeps {r₀ s₀ : State} (h₀ : Keeps r₀ s₀) (n : Nat) (r : Rec) :
    Keeps r₀ (State.issueAgain (n := n) (s := s₀) (r := r)) := by
  unfold State.issueAgain
  repeat' first
    | with_reducible assumption | with_reducible apply State.setRing_keeps
    | (with_reducible apply foldl_keeps <;> intros) | dsimp only | with_reducible apply Keeps.ite | split
    | simp only [Keeps.mk_iff]

theorem State.rewriteFrom_keeps {r₀ s₀ : State} (h₀ : Keeps r₀ s₀) (n : Nat) :
    Keeps r₀ (State.rewriteFrom (s := s₀) (n := n)) := by
  unfold State.rewriteFrom
  repeat' first
    | with_reducible assumption | with_reducible apply State.modRing_keeps
    | with_reducible apply State.issueAgain_keeps | (with_reducible apply foldl_keeps <;> intros) | dsimp only
    | with_reducible apply Keeps.ite | split | simp only [Keeps.mk_iff]

theorem State.takeEngaged_keeps {r₀ s₀ : State} (h₀ : Keeps r₀ s₀) :
    Keeps r₀ (State.takeEngaged (s := s₀)) := by
  unfold State.takeEngaged
  repeat' first
    | with_reducible assumption | with_reducible apply State.srcEvent_keeps
    | with_reducible apply State.raiseEvent_keeps | with_reducible apply State.pairEntry_keeps
    | with_reducible apply State.captureRecord_keeps | with_reducible apply State.resumeTx_keeps
    | with_reducible apply State.rewriteFrom_keeps | (with_reducible apply foldl_keeps <;> intros) | dsimp only
    | with_reducible apply Keeps.ite | split | simp only [Keeps.mk_iff]

theorem State.unbuildHeld_keeps {r₀ s₀ : State} (h₀ : Keeps r₀ s₀) :
    Keeps r₀ (State.unbuildHeld (s := s₀)) := by
  unfold State.unbuildHeld
  repeat' first
    | with_reducible assumption | with_reducible apply State.modPort_keeps
    | (with_reducible apply foldl_keeps <;> intros) | dsimp only | with_reducible apply Keeps.ite | split
    | simp only [Keeps.mk_iff]

theorem State.takeDegraded_keeps {r₀ s₀ : State} (h₀ : Keeps r₀ s₀) :
    Keeps r₀ (State.takeDegraded (s := s₀)) := by
  unfold State.takeDegraded
  repeat' first
    | with_reducible assumption | with_reducible apply State.settle_keeps
    | with_reducible apply State.raiseEvent_keeps | with_reducible apply State.unbuildHeld_keeps
    | (with_reducible apply foldl_keeps <;> intros) | dsimp only | with_reducible apply Keeps.ite | split
    | simp only [Keeps.mk_iff]

theorem State.takeover_keeps {r₀ s₀ : State} (h₀ : Keeps r₀ s₀) (n : Nat) (t : Stamp) :
    Keeps r₀ (State.takeover (s := s₀) (n := n) (t := t)) := by
  unfold State.takeover
  repeat' first
    | with_reducible assumption | with_reducible apply State.setReg_keeps | with_reducible apply State.wr_keeps
    | with_reducible apply State.pairEnds_keeps | with_reducible apply State.decideLater_keeps
    | with_reducible apply State.decideRest_keeps | with_reducible apply State.takeCarillon_keeps
    | with_reducible apply State.takeEngaged_keeps | with_reducible apply State.takeDegraded_keeps
    | (with_reducible apply foldl_keeps <;> intros) | dsimp only | with_reducible apply Keeps.ite | split
    | simp only [Keeps.mk_iff]

theorem hgApply_keeps {r₀ s₀ : State} (h₀ : Keeps r₀ s₀) (w : Nat) (old : Word) :
    Keeps r₀ (hgApply (s := s₀) (w := w) (old := old)) := by
  unfold hgApply
  repeat' first
    | with_reducible assumption | with_reducible apply State.setPair_keeps
    | with_reducible apply State.clearOffset_keeps | with_reducible apply State.noteEligible_keeps
    | (with_reducible apply foldl_keeps <;> intros) | dsimp only | with_reducible apply Keeps.ite | split
    | simp only [Keeps.mk_iff]

theorem hgAct_keeps {r₀ s₀ : State} (h₀ : Keeps r₀ s₀) (w : Nat) (d : Word) :
    Keeps r₀ (hgAct (s := s₀) (w := w) (d := d)) := by
  unfold hgAct
  repeat' first
    | with_reducible assumption | with_reducible apply State.advance_keeps | with_reducible apply State.emit_keeps
    | with_reducible apply State.release_keeps | with_reducible apply State.disengage_keeps
    | with_reducible apply State.engage_keeps | (with_reducible apply foldl_keeps <;> intros) | dsimp only
    | with_reducible apply Keeps.ite | split | simp only [Keeps.mk_iff]

theorem State.hgCleared_keeps {r₀ s₀ : State} (h₀ : Keeps r₀ s₀) :
    Keeps r₀ (State.hgCleared (s := s₀)) := by
  unfold State.hgCleared
  repeat' first
    | with_reducible assumption | (with_reducible apply foldl_keeps <;> intros) | dsimp only
    | with_reducible apply Keeps.ite | split | simp only [Keeps.mk_iff]

theorem State.sendTransfer_keeps {r₀ s₀ : State} (h₀ : Keeps r₀ s₀) (p : Fin 2048) :
    Keeps r₀ (State.sendTransfer (s := s₀) (p := p)) := by
  unfold State.sendTransfer
  repeat' first
    | with_reducible assumption | with_reducible apply State.emit_keeps
    | (with_reducible apply foldl_keeps <;> intros) | dsimp only | with_reducible apply Keeps.ite | split
    | simp only [Keeps.mk_iff]

theorem State.rewindRx_keeps {r₀ s₀ : State} (h₀ : Keeps r₀ s₀) (p : Nat) (n : Nat) :
    Keeps r₀ (State.rewindRx (s := s₀) (p := p) (n := n)) := by
  unfold State.rewindRx
  repeat' first
    | with_reducible assumption | with_reducible apply State.modPin_keeps | with_reducible apply State.fresh_keeps
    | (with_reducible apply foldl_keeps <;> intros) | dsimp only | with_reducible apply Keeps.ite | split
    | simp only [Keeps.mk_iff]

theorem State.peerWin_keeps {r₀ s₀ : State} (h₀ : Keeps r₀ s₀) (p : Nat) (lane : Nat) (period : Nat) (stamp : Stamp)
    (base : Stamp) (first : Word) (agreed : Nat) :
    Keeps r₀ (State.peerWin (s := s₀) (p := p) (lane := lane) (period := period) (stamp := stamp) (base := base)
        (first := first) (agreed := agreed)) := by
  unfold State.peerWin
  repeat' first
    | with_reducible assumption | with_reducible apply State.modPort_keeps | with_reducible apply State.noteOwn_keeps
    | with_reducible apply State.dropProv_keeps | with_reducible apply State.win_keeps
    | with_reducible apply State.settleOwn_keeps | (with_reducible apply foldl_keeps <;> intros) | dsimp only
    | with_reducible apply Keeps.ite | split | simp only [Keeps.mk_iff]

theorem State.peerEnded_keeps {r₀ s₀ : State} (h₀ : Keeps r₀ s₀) (p : Nat) (reason : Nat) (base : Stamp) (stamp :
    Stamp) :
    Keeps r₀ (State.peerEnded (s := s₀) (p := p) (reason := reason) (base := base) (stamp := stamp)) := by
  unfold State.peerEnded
  repeat' first
    | with_reducible assumption | with_reducible apply State.modPort_keeps | with_reducible apply State.noteOwn_keeps
    | with_reducible apply State.dropProv_keeps | with_reducible apply State.goEdgeOnly_keeps
    | with_reducible apply State.settleOwn_keeps | with_reducible apply State.rewindRx_keeps
    | (with_reducible apply foldl_keeps <;> intros) | dsimp only | with_reducible apply Keeps.ite | split
    | simp only [Keeps.mk_iff]

theorem State.peerBoundary_keeps {r₀ s₀ : State} (h₀ : Keeps r₀ s₀) (p : Nat) (stamp : Stamp) :
    Keeps r₀ (State.peerBoundary (s := s₀) (p := p) (stamp := stamp)) := by
  unfold State.peerBoundary
  repeat' first
    | with_reducible assumption | with_reducible apply State.modPort_keeps | with_reducible apply State.noteOwn_keeps
    | with_reducible apply State.flowChanged_keeps | with_reducible apply State.settleOwn_keeps
    | with_reducible apply State.rewindRx_keeps | (with_reducible apply foldl_keeps <;> intros) | dsimp only
    | with_reducible apply Keeps.ite | split | simp only [Keeps.mk_iff]

theorem State.stopOct_keeps {r₀ s₀ : State} (h₀ : Keeps r₀ s₀) (o : Nat) :
    Keeps r₀ (State.stopOct (s := s₀) (o := o)) := by
  unfold State.stopOct
  repeat' first
    | with_reducible assumption | with_reducible apply State.stopTx_keeps | with_reducible apply State.stopRx_keeps
    | with_reducible apply State.cutCaptures_keeps | (with_reducible apply foldl_keeps <;> intros) | dsimp only
    | with_reducible apply Keeps.ite | split | simp only [Keeps.mk_iff]

theorem State.sioFails_keeps {r₀ s₀ : State} (h₀ : Keeps r₀ s₀) (d : Nat) :
    Keeps r₀ (State.sioFails (s := s₀) (d := d)) := by
  unfold State.sioFails
  repeat' first
    | with_reducible assumption | with_reducible apply State.modOct_keeps | with_reducible apply State.wr_keeps
    | with_reducible apply State.raiseLevel_keeps | with_reducible apply State.holdOct_keeps
    | with_reducible apply State.safeUnits_keeps | with_reducible apply State.stopOct_keeps
    | (with_reducible apply foldl_keeps <;> intros) | dsimp only | with_reducible apply Keeps.ite | split
    | simp only [Keeps.mk_iff]

theorem State.hbmFails_keeps {r₀ s₀ : State} (h₀ : Keeps r₀ s₀) (h : Nat) :
    Keeps r₀ (State.hbmFails (s := s₀) (h := h)) := by
  unfold State.hbmFails
  repeat' first
    | with_reducible assumption | with_reducible apply State.wr_keeps | with_reducible apply State.raiseLevel_keeps
    | (with_reducible apply foldl_keeps <;> intros) | dsimp only | with_reducible apply Keeps.ite | split
    | simp only [Keeps.mk_iff]

theorem State.dieSources_keeps {r₀ s₀ : State} (h₀ : Keeps r₀ s₀) :
    Keeps r₀ (State.dieSources (s := s₀)) := by
  unfold State.dieSources
  repeat' first
    | with_reducible assumption | with_reducible apply State.raiseLevel_keeps
    | (with_reducible apply foldl_keeps <;> intros) | dsimp only | with_reducible apply Keeps.ite | split
    | simp only [Keeps.mk_iff]

theorem State.startLoad_keeps {r₀ s₀ : State} (h₀ : Keeps r₀ s₀) :
    Keeps r₀ (State.startLoad (s := s₀)) := by
  unfold State.startLoad
  repeat' first
    | with_reducible assumption | with_reducible apply State.modAux_keeps | with_reducible apply State.wr_keeps
    | with_reducible apply State.emit_keeps | with_reducible apply State.stage_keeps
    | (with_reducible apply foldl_keeps <;> intros) | dsimp only | with_reducible apply Keeps.ite | split
    | simp only [Keeps.mk_iff]

theorem State.endRead_keeps {r₀ s₀ : State} (h₀ : Keeps r₀ s₀) :
    Keeps r₀ (State.endRead (s := s₀)) := by
  unfold State.endRead
  repeat' first
    | with_reducible assumption | with_reducible apply State.setAux_keeps | with_reducible apply State.setReg_keeps
    | with_reducible apply State.emit_keeps | (with_reducible apply foldl_keeps <;> intros) | dsimp only
    | with_reducible apply Keeps.ite | split | simp only [Keeps.mk_iff]

theorem State.endLoad_keeps {r₀ s₀ : State} (h₀ : Keeps r₀ s₀) (code : Nat) (offset : Nat) :
    Keeps r₀ (State.endLoad (s := s₀) (code := code) (offset := offset)) := by
  unfold State.endLoad
  repeat' first
    | with_reducible assumption | with_reducible apply State.setReg_keeps | with_reducible apply State.wr_keeps
    | with_reducible apply State.stage_keeps | with_reducible apply State.raiseEvent_keeps
    | with_reducible apply State.endRead_keeps | (with_reducible apply foldl_keeps <;> intros) | dsimp only
    | with_reducible apply Keeps.ite | split | simp only [Keeps.mk_iff]

theorem State.startVern_keeps {r₀ s₀ : State} (h₀ : Keeps r₀ s₀) :
    Keeps r₀ (State.startVern (s := s₀)) := by
  unfold State.startVern
  repeat' first
    | with_reducible assumption | with_reducible apply State.stage_keeps
    | (with_reducible apply foldl_keeps <;> intros) | dsimp only | with_reducible apply Keeps.ite | split
    | simp only [Keeps.mk_iff]

theorem glApply_keeps {r₀ s₀ : State} (h₀ : Keeps r₀ s₀) (w : Nat) :
    Keeps r₀ (glApply (s := s₀) (w := w)) := by
  unfold glApply
  repeat' first
    | with_reducible assumption | with_reducible apply State.noteHeat_keeps
    | with_reducible apply State.dieSources_keeps | (with_reducible apply foldl_keeps <;> intros) | dsimp only
    | with_reducible apply Keeps.ite | split | simp only [Keeps.mk_iff]

theorem glAct_keeps {r₀ s₀ : State} (h₀ : Keeps r₀ s₀) (w : Nat) (d : Word) :
    Keeps r₀ (glAct (s := s₀) (w := w) (d := d)) := by
  unfold glAct
  repeat' first
    | with_reducible assumption | with_reducible apply State.wr_keeps | with_reducible apply State.stage_keeps
    | with_reducible apply State.startLoad_keeps | with_reducible apply State.endLoad_keeps
    | with_reducible apply State.startVern_keeps | (with_reducible apply foldl_keeps <;> intros) | dsimp only
    | with_reducible apply Keeps.ite | split | simp only [Keeps.mk_iff]

theorem State.chainReset_keeps {r₀ s₀ : State} (h₀ : Keeps r₀ s₀) :
    Keeps r₀ (State.chainReset (s := s₀)) := by
  unfold State.chainReset
  repeat' first
    | with_reducible assumption | with_reducible apply State.setReg_keeps
    | (with_reducible apply foldl_keeps <;> intros) | dsimp only | with_reducible apply Keeps.ite | split
    | simp only [Keeps.mk_iff]

theorem State.discard_keeps {r₀ s₀ : State} (h₀ : Keeps r₀ s₀) :
    Keeps r₀ (State.discard (s := s₀)) := by
  unfold State.discard
  repeat' first
    | with_reducible assumption | with_reducible apply State.incSat_keeps | with_reducible apply State.forget_keeps
    | (with_reducible apply foldl_keeps <;> intros) | dsimp only | with_reducible apply Keeps.ite | split
    | simp only [Keeps.mk_iff]

theorem State.widerReset_keeps {r₀ s₀ : State} (h₀ : Keeps r₀ s₀) (soft : Bool) : Keeps r₀ (s₀.widerReset soft) := by
  have k : Keeps r₀ (if soft = true then s₀ else s₀.frescoAlone) := Keeps.ite h₀ (State.frescoAlone_keeps h₀)
  have h := State.discard_keeps k
  unfold State.widerReset
  dsimp only
  refine State.wr_keeps (Keeps.mk ?_ ?_ ?_ ?_) _ _ _
  · dsimp only; exact h.1
  · intro _; dsimp only; exact keepRegs_wf _ _
  · dsimp only; exact h.3
  · dsimp only; exact h.4

theorem State.softReset_keeps {r₀ s₀ : State} (h₀ : Keeps r₀ s₀) :
    Keeps r₀ (State.softReset (s := s₀)) := by
  unfold State.softReset
  repeat' first
    | with_reducible assumption | with_reducible apply State.wr_keeps | with_reducible apply State.incSat_keeps
    | with_reducible apply State.chainReset_keeps | with_reducible apply State.widerReset_keeps
    | (with_reducible apply foldl_keeps <;> intros) | dsimp only | with_reducible apply Keeps.ite | split
    | simp only [Keeps.mk_iff]

theorem State.coreReset_keeps {r₀ s₀ : State} (h₀ : Keeps r₀ s₀) :
    Keeps r₀ (State.coreReset (s := s₀)) := by
  unfold State.coreReset
  repeat' first
    | with_reducible assumption | with_reducible apply State.wr_keeps | with_reducible apply State.dieSources_keeps
    | with_reducible apply State.startLoad_keeps | with_reducible apply State.widerReset_keeps
    | (with_reducible apply foldl_keeps <;> intros) | dsimp only | with_reducible apply Keeps.ite | split
    | simp only [Keeps.mk_iff]

theorem State.dropMessages_keeps {r₀ s₀ : State} (h₀ : Keeps r₀ s₀) :
    Keeps r₀ (State.dropMessages (s := s₀)) := by
  unfold State.dropMessages
  repeat' first
    | with_reducible assumption | with_reducible apply State.endOfInterrupt_keeps
    | (with_reducible apply foldl_keeps <;> intros) | dsimp only | with_reducible apply Keeps.ite | split
    | simp only [Keeps.mk_iff]

theorem State.linkReset_keeps {r₀ s₀ : State} (h₀ : Keeps r₀ s₀) :
    Keeps r₀ (State.linkReset (s := s₀)) := by
  unfold State.linkReset
  repeat' first
    | with_reducible assumption | with_reducible apply State.noteSleep_keeps
    | with_reducible apply State.hostPower_keeps | (with_reducible apply foldl_keeps <;> intros) | dsimp only
    | with_reducible apply Keeps.ite | split | simp only [Keeps.mk_iff]

theorem State.hostReset_keeps {r₀ s₀ : State} (h₀ : Keeps r₀ s₀) :
    Keeps r₀ (State.hostReset (s := s₀)) := by
  unfold State.hostReset
  repeat' first
    | with_reducible assumption | with_reducible apply State.wr_keeps | with_reducible apply State.settle_keeps
    | with_reducible apply State.freeEntries_keeps | with_reducible apply State.ringsOff_keeps
    | with_reducible apply State.monitorsOff_keeps | with_reducible apply State.discard_keeps
    | with_reducible apply State.dropMessages_keeps | with_reducible apply State.linkReset_keeps
    | (with_reducible apply foldl_keeps <;> intros) | dsimp only | with_reducible apply Keeps.ite | split
    | simp only [Keeps.mk_iff]

theorem State.releaseFirst_keeps {r₀ s₀ : State} (h₀ : Keeps r₀ s₀) :
    Keeps r₀ (State.releaseFirst (s := s₀)) := by
  unfold State.releaseFirst
  repeat' first
    | with_reducible assumption | with_reducible apply State.advance_keeps | with_reducible apply State.release_keeps
    | (with_reducible apply foldl_keeps <;> intros) | dsimp only | with_reducible apply Keeps.ite | split
    | simp only [Keeps.mk_iff]

theorem State.hingeReset_keeps {r₀ s₀ : State} (h₀ : Keeps r₀ s₀) :
    Keeps r₀ (State.hingeReset (s := s₀)) := by
  unfold State.hingeReset
  repeat' first
    | with_reducible assumption | with_reducible apply State.wr_keeps | with_reducible apply State.hingeDown_keeps
    | (with_reducible apply foldl_keeps <;> intros) | dsimp only | with_reducible apply Keeps.ite | split
    | simp only [Keeps.mk_iff]

theorem State.memReset_keeps {r₀ s₀ : State} (h₀ : Keeps r₀ s₀) (h : Nat) :
    Keeps r₀ (State.memReset (s := s₀) (h := h)) := by
  unfold State.memReset
  repeat' first
    | with_reducible assumption | with_reducible apply State.wr_keeps | with_reducible apply State.setMem0_keeps
    | (with_reducible apply foldl_keeps <;> intros) | dsimp only | with_reducible apply Keeps.ite | split
    | simp only [Keeps.mk_iff]

theorem State.octReset_keeps {r₀ s₀ : State} (h₀ : Keeps r₀ s₀) (o : Nat) :
    Keeps r₀ (State.octReset (s := s₀) (o := o)) := by
  unfold State.octReset
  repeat' first
    | with_reducible assumption | with_reducible apply State.modOct_keeps | with_reducible apply State.wr_keeps
    | with_reducible apply State.holdOct_keeps | with_reducible apply State.safeLevels_keeps
    | with_reducible apply State.holdPorts_keeps | (with_reducible apply foldl_keeps <;> intros) | dsimp only
    | with_reducible apply Keeps.ite | split | simp only [Keeps.mk_iff]

theorem pwAct_keeps {r₀ s₀ : State} (h₀ : Keeps r₀ s₀) (w : Nat) (d : Word) :
    Keeps r₀ (pwAct (s := s₀) (w := w) (d := d)) := by
  unfold pwAct
  repeat' first
    | with_reducible assumption | with_reducible apply State.wr_keeps | with_reducible apply State.softReset_keeps
    | with_reducible apply State.coreReset_keeps | with_reducible apply State.hostReset_keeps
    | with_reducible apply State.releaseFirst_keeps | with_reducible apply State.hingeReset_keeps
    | with_reducible apply State.memReset_keeps | with_reducible apply State.octReset_keeps
    | (with_reducible apply foldl_keeps <;> intros) | dsimp only | with_reducible apply Keeps.ite | split
    | simp only [Keeps.mk_iff]

theorem chApply_keeps {r₀ s₀ : State} (h₀ : Keeps r₀ s₀) (w : Nat) :
    Keeps r₀ (chApply (s := s₀) (w := w)) := by
  unfold chApply
  repeat' first
    | with_reducible assumption | with_reducible apply State.chainDue_keeps
    | (with_reducible apply foldl_keeps <;> intros) | dsimp only | with_reducible apply Keeps.ite | split
    | simp only [Keeps.mk_iff]

theorem applyBlock_keeps {r₀ s₀ : State} (h₀ : Keeps r₀ s₀) (i : Nat) (w : Nat) (old : Word) :
    Keeps r₀ (applyBlock (s := s₀) (i := i) (w := w) (old := old)) := by
  unfold applyBlock
  repeat' first
    | with_reducible assumption | with_reducible apply caApply_keeps | with_reducible apply stApply_keeps
    | with_reducible apply State.refreshAlerts_keeps | with_reducible apply cqApply_keeps
    | with_reducible apply tbApply_keeps | with_reducible apply axApply_keeps | with_reducible apply cuApply_keeps
    | with_reducible apply State.cuCleared_keeps | with_reducible apply ptApply_keeps
    | with_reducible apply rgApply_keeps | with_reducible apply pwApply_keeps | with_reducible apply hgApply_keeps
    | with_reducible apply State.hgCleared_keeps | with_reducible apply glApply_keeps
    | with_reducible apply chApply_keeps | (with_reducible apply foldl_keeps <;> intros) | dsimp only
    | with_reducible apply Keeps.ite | split | simp only [Keeps.mk_iff]

theorem applyWord_keeps {r₀ s₀ : State} (h₀ : Keeps r₀ s₀) (i : Nat) (w : Nat) (old : Word) :
    Keeps r₀ (applyWord (s := s₀) (i := i) (w := w) (old := old)) := by
  unfold applyWord
  repeat' first
    | with_reducible assumption | with_reducible apply State.octActive_keeps | with_reducible apply applyBlock_keeps
    | (with_reducible apply foldl_keeps <;> intros) | dsimp only | with_reducible apply Keeps.ite | split
    | simp only [Keeps.mk_iff]

theorem actWord_keeps {r₀ s₀ : State} (h₀ : Keeps r₀ s₀) (bits : List Bool) (i : Nat) (w : Nat) (d : Word) :
    Keeps r₀ (actWord (bits := bits) (s := s₀) (i := i) (w := w) (d := d)) := by
  unfold actWord
  repeat' first
    | with_reducible assumption | with_reducible apply caAct_keeps | with_reducible apply alAct_keeps
    | with_reducible apply stAct_keeps | with_reducible apply lmAct_keeps | with_reducible apply cqAct_keeps
    | with_reducible apply tbAct_keeps | with_reducible apply axAct_keeps | with_reducible apply cuAct_keeps
    | with_reducible apply ptAct_keeps | with_reducible apply hgAct_keeps | with_reducible apply glAct_keeps
    | with_reducible apply pwAct_keeps | (with_reducible apply foldl_keeps <;> intros) | dsimp only
    | with_reducible apply Keeps.ite | split | simp only [Keeps.mk_iff]

theorem State.storeWord_keeps {r₀ s₀ : State} (h₀ : Keeps r₀ s₀) (k w : Nat) (d : Word) :
    Keeps r₀ (s₀.storeWord k w d).1 := by
  unfold State.storeWord
  exact foldl_keeps_fst _ h₀ (fun s o i h => State.setReg_keeps h _ _ _)

theorem State.storeFrom_keeps {r₀ s₀ : State} (h₀ : Keeps r₀ s₀) (k : Nat) (l : List (Nat × Word)) :
    Keeps r₀ (State.storeFrom k s₀ l).1 := by
  induction l generalizing s₀ k with
  | nil => exact h₀
  | cons a t ih => unfold State.storeFrom; exact ih (State.storeWord_keeps h₀ _ _ _) _

theorem State.storeAll_keeps {r₀ s₀ : State} (h₀ : Keeps r₀ s₀) (ws : List (Nat × Word)) :
    Keeps r₀ (State.storeAll (s := s₀) (ws := ws)).1 := by
  unfold State.storeAll
  repeat' first
    | with_reducible assumption | with_reducible apply State.storeFrom_keeps
    | (with_reducible apply foldl_keeps <;> intros) | dsimp only | with_reducible apply Keeps.ite | split
    | simp only [Keeps.mk_iff]

theorem State.takeEffect_keeps {r₀ s₀ : State} (h₀ : Keeps r₀ s₀) (ops : List WordOp) (bits : List Bool) :
    Keeps r₀ (State.takeEffect (s := s₀) (ops := ops) (bits := bits)) := by
  unfold State.takeEffect
  repeat' first
    | with_reducible assumption | with_reducible apply State.palettesWritten_keeps
    | with_reducible apply State.notePermits_keeps | with_reducible apply applyWord_keeps
    | with_reducible apply actWord_keeps | (with_reducible apply foldl_keeps <;> intros) | dsimp only
    | with_reducible apply Keeps.ite | split | simp only [Keeps.mk_iff]

theorem State.applyWrite_keeps {r₀ s₀ : State} (h₀ : Keeps r₀ s₀) (ws : List (Nat × Word)) (bits : List Bool) :
    Keeps r₀ (State.applyWrite (s := s₀) (ws := ws) (bits := bits)) := by
  unfold State.applyWrite
  repeat' first
    | with_reducible assumption | with_reducible apply State.storeAll_keeps
    | with_reducible apply State.takeEffect_keeps | (with_reducible apply foldl_keeps <;> intros) | dsimp only
    | with_reducible apply Keeps.ite | split | simp only [Keeps.mk_iff]

theorem State.readEffect_keeps {r₀ s₀ : State} (h₀ : Keeps r₀ s₀) (burst : Bool) (i : Nat) (w : Nat) :
    Keeps r₀ (State.readEffect (s := s₀) (burst := burst) (i := i) (w := w)) := by
  unfold State.readEffect
  repeat' first
    | with_reducible assumption | with_reducible apply State.modPort_keeps | with_reducible apply State.modMon_keeps
    | with_reducible apply State.modCu_keeps | with_reducible apply State.setReg_keeps
    | with_reducible apply State.wr_keeps | with_reducible apply State.incWrap_keeps
    | with_reducible apply State.claim_keeps | (with_reducible apply foldl_keeps <;> intros) | dsimp only
    | with_reducible apply Keeps.ite | split | simp only [Keeps.mk_iff]

theorem State.burstWord_keeps {r₀ s₀ : State} (h₀ : Keeps r₀ s₀) (w : Nat) :
    Keeps r₀ (State.burstWord (s := s₀) (w := w)).2 := by
  unfold State.burstWord
  repeat' first
    | with_reducible assumption | with_reducible apply State.readEffect_keeps
    | (with_reducible apply foldl_keeps <;> intros) | dsimp only | with_reducible apply Keeps.ite | split
    | simp only [Keeps.mk_iff]

theorem State.burstWords_keeps {r₀ s₀ : State} (h₀ : Keeps r₀ s₀) (w n : Nat) : Keeps r₀ (s₀.burstWords w n).2 := by
  induction n generalizing s₀ w with
  | zero => exact h₀
  | succ n ih => unfold State.burstWords; exact ih (State.burstWord_keeps h₀ _) _

theorem State.discardSlot_keeps {r₀ s₀ : State} (h₀ : Keeps r₀ s₀) :
    Keeps r₀ (State.discardSlot (s := s₀)) := by
  unfold State.discardSlot
  repeat' first
    | with_reducible assumption | with_reducible apply State.incSat_keeps
    | (with_reducible apply foldl_keeps <;> intros) | dsimp only | with_reducible apply Keeps.ite | split
    | simp only [Keeps.mk_iff]

theorem State.countMirror_keeps {r₀ s₀ : State} (h₀ : Keeps r₀ s₀) :
    Keeps r₀ (State.countMirror (s := s₀)) := by
  unfold State.countMirror
  repeat' first
    | with_reducible assumption | with_reducible apply State.incWrap_keeps
    | (with_reducible apply foldl_keeps <;> intros) | dsimp only | with_reducible apply Keeps.ite | split
    | simp only [Keeps.mk_iff]

theorem State.answerWrite_keeps {r₀ s₀ : State} (h₀ : Keeps r₀ s₀) (head : BitVec 64) (single : Bool) (addr : Nat)
    (delay : Nat) :
    Keeps r₀ (State.answerWrite (s := s₀) (head := head) (single := single) (addr := addr) (delay := delay)) := by
  unfold State.answerWrite
  repeat' first
    | with_reducible assumption | with_reducible apply State.respond_keeps
    | (with_reducible apply foldl_keeps <;> intros) | dsimp only | with_reducible apply Keeps.ite | split
    | simp only [Keeps.mk_iff]

theorem State.runWrite_keeps {r₀ s₀ : State} (h₀ : Keeps r₀ s₀) (head : BitVec 64) (addr : BitVec 12) (data : List
    Word) (bits : List Bool) :
    Keeps r₀ (State.runWrite (s := s₀) (head := head) (addr := addr) (data := data) (bits := bits)) := by
  unfold State.runWrite
  repeat' first
    | with_reducible assumption | with_reducible apply State.emit_keeps | with_reducible apply State.chainDue_keeps
    | with_reducible apply State.respond_keeps | with_reducible apply State.applyWrite_keeps
    | with_reducible apply State.answerWrite_keeps | (with_reducible apply foldl_keeps <;> intros) | dsimp only
    | with_reducible apply Keeps.ite | split | simp only [Keeps.mk_iff]

theorem State.readSingle_keeps {r₀ s₀ : State} (h₀ : Keeps r₀ s₀) (head : BitVec 64) (addr : BitVec 12) :
    Keeps r₀ (State.readSingle (s := s₀) (head := head) (addr := addr)) := by
  unfold State.readSingle
  repeat' first
    | with_reducible assumption | with_reducible apply State.respond_keeps
    | with_reducible apply State.readEffect_keeps | (with_reducible apply foldl_keeps <;> intros) | dsimp only
    | with_reducible apply Keeps.ite | split | simp only [Keeps.mk_iff]

theorem State.readBurst_keeps {r₀ s₀ : State} (h₀ : Keeps r₀ s₀) (head : BitVec 64) (addr : BitVec 12) (count : Nat) :
    Keeps r₀ (State.readBurst (s := s₀) (head := head) (addr := addr) (count := count)) := by
  unfold State.readBurst
  repeat' first
    | with_reducible assumption | with_reducible apply State.count_keeps | with_reducible apply State.respond_keeps
    | with_reducible apply State.burstWords_keeps | (with_reducible apply foldl_keeps <;> intros) | dsimp only
    | with_reducible apply Keeps.ite | split | simp only [Keeps.mk_iff]

theorem State.runRead_keeps {r₀ s₀ : State} (h₀ : Keeps r₀ s₀) (head : BitVec 64) (addr : BitVec 12) (count : Nat) :
    Keeps r₀ (State.runRead (s := s₀) (head := head) (addr := addr) (count := count)) := by
  unfold State.runRead
  repeat' first
    | with_reducible assumption | with_reducible apply State.count_keeps | with_reducible apply State.chainDue_keeps
    | with_reducible apply State.respond_keeps | with_reducible apply State.readSingle_keeps
    | with_reducible apply State.readBurst_keeps | (with_reducible apply foldl_keeps <;> intros) | dsimp only
    | with_reducible apply Keeps.ite | split | simp only [Keeps.mk_iff]

theorem State.runNop_keeps {r₀ s₀ : State} (h₀ : Keeps r₀ s₀) (head : BitVec 64) :
    Keeps r₀ (State.runNop (s := s₀) (head := head)) := by
  unfold State.runNop
  repeat' first
    | with_reducible assumption | with_reducible apply State.chainDue_keeps | with_reducible apply State.respond_keeps
    | (with_reducible apply foldl_keeps <;> intros) | dsimp only | with_reducible apply Keeps.ite | split
    | simp only [Keeps.mk_iff]

theorem State.runSelect_keeps {r₀ s₀ : State} (h₀ : Keeps r₀ s₀) (head : BitVec 64) (data : Word) :
    Keeps r₀ (State.runSelect (s := s₀) (head := head) (data := data)) := by
  unfold State.runSelect
  repeat' first
    | with_reducible assumption | with_reducible apply State.chainDue_keeps | with_reducible apply State.respond_keeps
    | (with_reducible apply foldl_keeps <;> intros) | dsimp only | with_reducible apply Keeps.ite | split
    | simp only [Keeps.mk_iff]

theorem State.runAssign_keeps {r₀ s₀ : State} (h₀ : Keeps r₀ s₀) (head : BitVec 64) (data : Word) :
    Keeps r₀ (State.runAssign (s := s₀) (head := head) (data := data)) := by
  unfold State.runAssign
  repeat' first
    | with_reducible assumption | with_reducible apply State.chainDue_keeps | with_reducible apply State.respond_keeps
    | (with_reducible apply foldl_keeps <;> intros) | dsimp only | with_reducible apply Keeps.ite | split
    | simp only [Keeps.mk_iff]

theorem State.ownFrame_keeps {r₀ s₀ : State} (h₀ : Keeps r₀ s₀) :
    Keeps r₀ (State.ownFrame (s := s₀)) := by
  unfold State.ownFrame
  repeat' first
    | with_reducible assumption | (with_reducible apply foldl_keeps <;> intros) | dsimp only
    | with_reducible apply Keeps.ite | split | simp only [Keeps.mk_iff]

theorem State.slotAlone_keeps {r₀ s₀ : State} (h₀ : Keeps r₀ s₀) (run : State → State)
    (hr : ∀ s, Keeps r₀ s → Keeps r₀ (run s)) : Keeps r₀ (s₀.slotAlone run) := by
  unfold State.slotAlone
  repeat' first
    | with_reducible assumption | with_reducible apply State.discardSlot_keeps
    | with_reducible apply State.ownFrame_keeps | split | (with_reducible apply hr)

theorem State.rejectCrc_keeps {r₀ s₀ : State} (h₀ : Keeps r₀ s₀) (head : BitVec 64) (length : Bool) :
    Keeps r₀ (State.rejectCrc (s := s₀) (head := head) (length := length)) := by
  unfold State.rejectCrc
  repeat' first
    | with_reducible assumption | with_reducible apply State.incSat_keeps
    | with_reducible apply State.raiseEvent_keeps | with_reducible apply State.respond_keeps
    | (with_reducible apply foldl_keeps <;> intros) | dsimp only | with_reducible apply Keeps.ite | split
    | simp only [Keeps.mk_iff]

theorem State.slotLong_keeps {r₀ s₀ : State} (h₀ : Keeps r₀ s₀) (head : BitVec 64) (count : Nat) (run : State → State)
    (hr : ∀ s, Keeps r₀ s → Keeps r₀ (run s)) : Keeps r₀ (s₀.slotLong head count run) := by
  unfold State.slotLong
  refine State.slotAlone_keeps h₀ _ (fun s h => ?_)
  repeat' first
    | with_reducible assumption | with_reducible apply State.rejectCrc_keeps | split | (with_reducible apply hr)

theorem State.chainWrite_keeps {r₀ s₀ : State} (h₀ : Keeps r₀ s₀) (addr : BitVec 12) (data : List Word) : Keeps r₀
    (s₀.chainWrite addr data) :=
  State.slotLong_keeps h₀ _ _ _ (fun _ h => State.runWrite_keeps h _ _ _ _)

theorem State.chainRead_keeps {r₀ s₀ : State} (h₀ : Keeps r₀ s₀) (addr : BitVec 12) (count : Nat) : Keeps r₀
    (s₀.chainRead addr count) :=
  State.slotLong_keeps h₀ _ _ _ (fun _ h => State.runRead_keeps h _ _ _)

theorem State.writeBits_keeps {r₀ s₀ : State} (h₀ : Keeps r₀ s₀) (addr : BitVec 12) (d : Word) (bits : List Bool) :
    Keeps r₀ (s₀.writeBits addr d bits) :=
  State.slotAlone_keeps h₀ _ (fun _ h => State.runWrite_keeps h _ _ _ _)

theorem State.writeWord_keeps {r₀ s₀ : State} (h₀ : Keeps r₀ s₀) (addr : BitVec 12) (d : Word) :
    Keeps r₀ (State.writeWord (s := s₀) (addr := addr) (d := d)) := by
  unfold State.writeWord
  repeat' first
    | with_reducible assumption | with_reducible apply State.writeBits_keeps
    | (with_reducible apply foldl_keeps <;> intros) | dsimp only | with_reducible apply Keeps.ite | split
    | simp only [Keeps.mk_iff]

theorem State.readWord_keeps {r₀ s₀ : State} (h₀ : Keeps r₀ s₀) (addr : BitVec 12) : Keeps r₀ (s₀.readWord addr) :=
  State.slotAlone_keeps h₀ _ (fun _ h => State.runRead_keeps h _ _ _)

theorem State.loadStage_keeps {r₀ s₀ : State} (h₀ : Keeps r₀ s₀) :
    Keeps r₀ (State.loadStage (s := s₀)) := by
  unfold State.loadStage
  repeat' first
    | with_reducible assumption | with_reducible apply State.incSat_keeps | with_reducible apply State.stage_keeps
    | (with_reducible apply foldl_keeps <;> intros) | dsimp only | with_reducible apply Keeps.ite | split
    | simp only [Keeps.mk_iff]

theorem State.rstRise_keeps {r₀ s₀ : State} (h₀ : Keeps r₀ s₀) :
    Keeps r₀ (State.rstRise (s := s₀)) := by
  unfold State.rstRise
  repeat' first
    | with_reducible assumption | with_reducible apply State.advance_keeps
    | (with_reducible apply foldl_keeps <;> intros) | dsimp only | with_reducible apply Keeps.ite | split
    | simp only [Keeps.mk_iff]

theorem State.frameBegin_keeps {r₀ s₀ : State} (h₀ : Keeps r₀ s₀) :
    Keeps r₀ (State.frameBegin (s := s₀)) := by
  unfold State.frameBegin
  repeat' first
    | with_reducible assumption | with_reducible apply State.chainDue_keeps
    | with_reducible apply State.loadStage_keeps | with_reducible apply State.rstRise_keeps
    | (with_reducible apply foldl_keeps <;> intros) | dsimp only | with_reducible apply Keeps.ite | split
    | simp only [Keeps.mk_iff]

theorem State.runSlot_keeps {r₀ s₀ : State} (h₀ : Keeps r₀ s₀) (head : BitVec 64) (more : List Word) :
    Keeps r₀ (State.runSlot (s := s₀) (head := head) (more := more)) := by
  unfold State.runSlot
  repeat' first
    | with_reducible assumption | with_reducible apply State.wr_keeps | with_reducible apply State.chainReset_keeps
    | with_reducible apply State.runWrite_keeps | with_reducible apply State.runRead_keeps
    | with_reducible apply State.runNop_keeps | with_reducible apply State.runSelect_keeps
    | with_reducible apply State.runAssign_keeps | (with_reducible apply foldl_keeps <;> intros) | dsimp only
    | with_reducible apply Keeps.ite | split | simp only [Keeps.mk_iff]

theorem State.clearBit_keeps {r₀ s₀ : State} (h₀ : Keeps r₀ s₀) :
    Keeps r₀ (State.clearBit (s := s₀)) := by
  unfold State.clearBit
  repeat' first
    | with_reducible assumption | (with_reducible apply foldl_keeps <;> intros) | dsimp only
    | with_reducible apply Keeps.ite | split | simp only [Keeps.mk_iff]

theorem State.takeSlot_keeps {r₀ s₀ : State} (h₀ : Keeps r₀ s₀) :
    Keeps r₀ (State.takeSlot (s := s₀)) := by
  unfold State.takeSlot
  repeat' first
    | with_reducible assumption | with_reducible apply State.stage_keeps | with_reducible apply State.respond_keeps
    | with_reducible apply State.discardSlot_keeps | with_reducible apply State.rejectCrc_keeps
    | with_reducible apply State.runSlot_keeps | with_reducible apply State.clearBit_keeps
    | (with_reducible apply foldl_keeps <;> intros) | dsimp only | with_reducible apply Keeps.ite | split
    | simp only [Keeps.mk_iff]

theorem State.emptyEnd_keeps {r₀ s₀ : State} (h₀ : Keeps r₀ s₀) :
    Keeps r₀ (State.emptyEnd (s := s₀)) := by
  unfold State.emptyEnd
  repeat' first
    | with_reducible assumption | (with_reducible apply foldl_keeps <;> intros) | dsimp only
    | with_reducible apply Keeps.ite | split | simp only [Keeps.mk_iff]

theorem State.frameEnd_keeps {r₀ s₀ : State} (h₀ : Keeps r₀ s₀) :
    Keeps r₀ (State.frameEnd (s := s₀)) := by
  unfold State.frameEnd
  repeat' first
    | with_reducible assumption | with_reducible apply State.incWrap_keeps | with_reducible apply State.chainDue_keeps
    | with_reducible apply State.takeSlot_keeps | with_reducible apply State.emptyEnd_keeps
    | (with_reducible apply foldl_keeps <;> intros) | dsimp only | with_reducible apply Keeps.ite | split
    | simp only [Keeps.mk_iff]

theorem State.forwardedSel_keeps {r₀ s₀ : State} (h₀ : Keeps r₀ s₀) (addr : Nat) (inst : Nat) :
    Keeps r₀ (State.forwardedSel (s := s₀) (addr := addr) (inst := inst)) := by
  unfold State.forwardedSel
  repeat' first
    | with_reducible assumption | with_reducible apply State.setReg_keeps
    | (with_reducible apply foldl_keeps <;> intros) | dsimp only | with_reducible apply Keeps.ite | split
    | simp only [Keeps.mk_iff]

theorem State.applyForwarded_keeps {r₀ s₀ : State} (h₀ : Keeps r₀ s₀) (addr : Nat) (inst : Nat) (data : List Word) :
    Keeps r₀ (State.applyForwarded (s := s₀) (addr := addr) (inst := inst) (data := data)) := by
  unfold State.applyForwarded
  repeat' first
    | with_reducible assumption | with_reducible apply State.setReg_keeps
    | with_reducible apply State.applyWrite_keeps | with_reducible apply State.countMirror_keeps
    | with_reducible apply State.forwardedSel_keeps | (with_reducible apply foldl_keeps <;> intros) | dsimp only
    | with_reducible apply Keeps.ite | split | simp only [Keeps.mk_iff]

theorem State.takeForwarded_keeps {r₀ s₀ : State} (h₀ : Keeps r₀ s₀) (addr : BitVec 12) (inst : Nat) (data : List
    Word) :
    Keeps r₀ (State.takeForwarded (s := s₀) (addr := addr) (inst := inst) (data := data)) := by
  unfold State.takeForwarded
  repeat' first
    | with_reducible assumption | with_reducible apply State.emit_keeps | with_reducible apply State.hingeDown_keeps
    | with_reducible apply State.forwardedSel_keeps | with_reducible apply State.applyForwarded_keeps
    | (with_reducible apply foldl_keeps <;> intros) | dsimp only | with_reducible apply Keeps.ite | split
    | simp only [Keeps.mk_iff]

theorem State.takeLate_keeps {r₀ s₀ : State} (h₀ : Keeps r₀ s₀) :
    Keeps r₀ (State.takeLate (s := s₀)) := by
  unfold State.takeLate
  repeat' first
    | with_reducible assumption | with_reducible apply State.takeForwarded_keeps
    | (with_reducible apply foldl_keeps <;> intros) | dsimp only | with_reducible apply Keeps.ite | split
    | simp only [Keeps.mk_iff]

theorem State.takeSafe_keeps {r₀ s₀ : State} (h₀ : Keeps r₀ s₀) (ops : List WordOp) :
    Keeps r₀ (State.takeSafe (s := s₀) (ops := ops)) := by
  unfold State.takeSafe
  repeat' first
    | with_reducible assumption | with_reducible apply State.modGroup_keeps | with_reducible apply State.modCu_keeps
    | (with_reducible apply foldl_keeps <;> intros) | dsimp only | with_reducible apply Keeps.ite | split
    | simp only [Keeps.mk_iff]

end Sys2Proof.Machine
end

