-- ==== Sys2Proof/Laws/Records.lean ====
section
/-!
SUPPORT. What the operations on records leave alone: counts that wait for a commit move words of R216 alone, and forming a
record, closing a loss interval, taking a GAP place and writing an EVENT record touch staging, rings and what waits for a
commit, and nothing else. Raising a source touches the sources beside them.
-/
set_option linter.unreachableTactic false
set_option linter.unusedTactic false
namespace Sys2Proof.Machine

theorem State.srcEvent_eq (s : State) (n : Nat) (stamp : Stamp) (rec : Option Nat) :
    ∃ x, s.srcEvent n stamp rec = { s with srcs := x } := by
  unfold State.srcEvent
  split
  · exact ⟨s.srcs, rfl⟩
  · exact ⟨_, rfl⟩

/-- An event leaves every input of a level source as it is. -/
theorem State.srcEvent_input (s : State) (n : Nat) (stamp : Stamp) (rec : Option Nat) (m : Nat) :
    ((s.srcEvent n stamp rec).src m).input = (s.src m).input := by
  unfold State.srcEvent
  split
  · rfl
  · rw [State.modSrc_eq]
    by_cases h : m = n
    · subst h
      rw [State.src_setSrc_self]
      dsimp only
      split
      · rfl
      · rfl
      all_goals (split <;> rfl)
    · rw [State.src_setSrc_other _ _ _ _ h]

/-- Only records, what waits for them and events of sources may differ; of the registers, only words of commit-gated counters
(R216). -/
structure RecordsOnly (r s : State) : Prop where
  pending : s.pending = r.pending
  now : s.now = r.now
  c : s.c = r.c
  strap : s.strap = r.strap
  clk : s.clk = r.clk
  boot : s.boot = r.boot
  chain : s.chain = r.chain
  tb : s.tb = r.tb
  hinge : s.hinge = r.hinge
  link : s.link = r.link
  power : s.power = r.power
  flash : s.flash = r.flash
  almanac : s.almanac = r.almanac
  pins : s.pins = r.pins
  ports : s.ports = r.ports
  groups : s.groups = r.groups
  mons : s.mons = r.mons
  cus : s.cus = r.cus
  auxs : s.auxs = r.auxs
  octs : s.octs = r.octs
  input : ∀ n, (s.src n).input = (r.src n).input
  tgts : s.tgts = r.tgts
  msgs : s.msgs = r.msgs
  flushes : s.flushes = r.flushes
  flushAt : s.flushAt = r.flushAt
  flushDue : s.flushDue = r.flushDue
  bulkAt : s.bulkAt = r.bulkAt
  segments : s.segments = r.segments
  upHead : s.upHead = r.upHead
  extents : s.extents = r.extents
  reg : ∀ i w, w < 4096 → gatedWord w = false → s.reg i w = r.reg i w

theorem RecordsOnly.refl (s : State) : RecordsOnly s s := by constructor <;> first | rfl | (intros; rfl)

theorem RecordsOnly.ite {c : Prop} [Decidable c] {r a b : State} (h : RecordsOnly r a) (k : RecordsOnly r b) :
    RecordsOnly r (if c then a else b) := by
  split
  · exact h
  · exact k

/-- An event of a source stays within it. -/
theorem State.srcEvent_recordsOnly {r₀ s₀ : State} (h₀ : RecordsOnly r₀ s₀) (n : Nat) (stamp : Stamp) (rec : Option Nat) :
    RecordsOnly r₀ (s₀.srcEvent n stamp rec) := by
  obtain ⟨x, e⟩ := s₀.srcEvent_eq n stamp rec
  have k := s₀.srcEvent_input n stamp rec
  rw [e] at k ⊢
  have h := h₀.input
  cases h₀
  constructor <;> first | assumption | exact fun m => (k m).trans (h m)

theorem RecordsOnly.mk_iff {r s : State} {rings₁ staging₁ stagingLow₁ unbuilt₁ gated₁ gapWaits₁ nextUid₁ nextOrder₁ free₁ out₁} :
    RecordsOnly r (State.mk s.pending s.now s.c s.strap s.regs s.clk s.boot s.chain s.tb s.hinge s.link s.power s.flash s.almanac s.pins
      s.ports rings₁ s.groups s.mons s.cus s.auxs s.octs s.srcs s.tgts staging₁ stagingLow₁ unbuilt₁ gated₁ gapWaits₁ s.msgs
      s.flushes s.flushAt s.flushDue s.bulkAt s.segments s.upHead s.extents nextUid₁ nextOrder₁ free₁ out₁) ↔ RecordsOnly r s := by
  constructor <;> intro h <;> cases h <;> constructor <;> assumption

theorem foldl_recordsOnly {β : Type} {r : State} (f : State → β → State) {l : List β} {s : State}
    (w : RecordsOnly r s) (h : ∀ s b, RecordsOnly r s → RecordsOnly r (f s b)) : RecordsOnly r (l.foldl f s) := by
  induction l generalizing s with
  | nil => exact w
  | cons a t ih => exact ih (h _ _ w)

theorem RecordsOnly.wr {r s : State} (h : RecordsOnly r s) (f : Fld) (x i : Nat) (hf : gatedWord f.word = true)
    (hw : f.word < 4096) : RecordsOnly r (s.wr f x i) := by
  cases h
  constructor <;> first | assumption | skip
  rename_i k
  intro j w hj hg
  rw [s.reg_wr_word f x i j w hw hj (by rintro rfl; rw [hf] at hg; cases hg)]
  exact k j w hj hg

theorem gatedWord_lt (w : Nat) (h : gatedWord w = true) : w < 4096 := by
  simp only [gatedWord, Bool.or_eq_true, decide_eq_true_eq, List.contains_iff_mem, List.mem_cons, List.not_mem_nil,
    or_false] at h
  omega

theorem State.move_recordsOnly {r s : State} (h : RecordsOnly r s) (g : Gated) : RecordsOnly r (s.move g) := by
  unfold State.move
  by_cases k : gatedWord g.word = true
  · have hf : gatedWord g.fld.word = true := k
    simp only [k, Bool.not_true, Bool.false_eq_true, if_false]
    split <;> exact h.wr _ _ _ hf (gatedWord_lt _ hf)
  · simp only [k, Bool.not_false, if_true]
    exact h

theorem State.setRing_recordsOnly {r₀ s₀ : State} (h₀ : RecordsOnly r₀ s₀) (n : Nat) (v : Ring) :
    RecordsOnly r₀ (State.setRing (s := s₀) (n := n) (v := v)) := by
  unfold State.setRing
  repeat' first
    | with_reducible assumption | (with_reducible apply foldl_recordsOnly <;> intros) | dsimp only
    | with_reducible apply RecordsOnly.ite | split | simp only [RecordsOnly.mk_iff]

theorem State.modRing_recordsOnly {r₀ s₀ : State} (h₀ : RecordsOnly r₀ s₀) (n : Nat) (f : Ring → Ring) :
    RecordsOnly r₀ (State.modRing (s := s₀) (n := n) (f := f)) := by
  unfold State.modRing
  repeat' first
    | with_reducible assumption | with_reducible apply State.setRing_recordsOnly
    | (with_reducible apply foldl_recordsOnly <;> intros) | dsimp only | with_reducible apply RecordsOnly.ite | split
    | simp only [RecordsOnly.mk_iff]

theorem State.fresh_recordsOnly {r₀ s₀ : State} (h₀ : RecordsOnly r₀ s₀) :
    RecordsOnly r₀ (State.fresh (s := s₀)).2 := by
  unfold State.fresh
  repeat' first
    | with_reducible assumption | (with_reducible apply foldl_recordsOnly <;> intros) | dsimp only
    | with_reducible apply RecordsOnly.ite | split | simp only [RecordsOnly.mk_iff]

theorem State.takeOrder_recordsOnly {r₀ s₀ : State} (h₀ : RecordsOnly r₀ s₀) :
    RecordsOnly r₀ (State.takeOrder (s := s₀)).2 := by
  unfold State.takeOrder
  repeat' first
    | with_reducible assumption | (with_reducible apply foldl_recordsOnly <;> intros) | dsimp only
    | with_reducible apply RecordsOnly.ite | split | simp only [RecordsOnly.mk_iff]

theorem State.takeFree_recordsOnly {r₀ s₀ : State} (h₀ : RecordsOnly r₀ s₀) :
    RecordsOnly r₀ (State.takeFree (s := s₀)).2 := by
  unfold State.takeFree
  repeat' first
    | with_reducible assumption | (with_reducible apply foldl_recordsOnly <;> intros) | dsimp only
    | with_reducible apply RecordsOnly.ite | split | simp only [RecordsOnly.mk_iff]

theorem State.emit_recordsOnly {r₀ s₀ : State} (h₀ : RecordsOnly r₀ s₀) (o : Out) :
    RecordsOnly r₀ (State.emit (s := s₀) (o := o)) := by
  unfold State.emit
  repeat' first
    | with_reducible assumption | (with_reducible apply foldl_recordsOnly <;> intros) | dsimp only
    | with_reducible apply RecordsOnly.ite | split | simp only [RecordsOnly.mk_iff]

theorem State.settle_recordsOnly {r₀ s₀ : State} (h₀ : RecordsOnly r₀ s₀) :
    RecordsOnly r₀ (State.settle (s := s₀)) := by
  unfold State.settle
  repeat' first
    | with_reducible assumption | with_reducible apply State.move_recordsOnly
    | (with_reducible apply foldl_recordsOnly <;> intros) | dsimp only | with_reducible apply RecordsOnly.ite | split
    | simp only [RecordsOnly.mk_iff]

theorem State.count_recordsOnly {r₀ s₀ : State} (h₀ : RecordsOnly r₀ s₀) (m : Move) (f : Fld) (i : Nat) (n : Nat)
    (waits : List Nat) (own : Bool) :
    RecordsOnly r₀ (State.count (s := s₀) (m := m) (f := f) (i := i) (n := n) (waits := waits) (own := own)) := by
  unfold State.count
  repeat' first
    | with_reducible assumption | with_reducible apply State.settle_recordsOnly
    | (with_reducible apply foldl_recordsOnly <;> intros) | dsimp only | with_reducible apply RecordsOnly.ite | split
    | simp only [RecordsOnly.mk_iff]

theorem State.countPort_recordsOnly {r₀ s₀ : State} (h₀ : RecordsOnly r₀ s₀) (m : Move) (f : Fld) (p : Nat) (n : Nat) :
    RecordsOnly r₀ (State.countPort (s := s₀) (m := m) (f := f) (p := p) (n := n)) :=
  State.count_recordsOnly h₀ m f p n _ false

theorem State.noteStaging_recordsOnly {r₀ s₀ : State} (h₀ : RecordsOnly r₀ s₀) :
    RecordsOnly r₀ (State.noteStaging (s := s₀)) := by
  unfold State.noteStaging
  repeat' first
    | with_reducible assumption | (with_reducible apply foldl_recordsOnly <;> intros) | dsimp only
    | with_reducible apply RecordsOnly.ite | split | simp only [RecordsOnly.mk_iff]

theorem State.stage_recordsOnly {r₀ s₀ : State} (h₀ : RecordsOnly r₀ s₀) (r : Rec) :
    RecordsOnly r₀ (State.stage (s := s₀) (r := r)) := by
  unfold State.stage
  repeat' first
    | with_reducible assumption | with_reducible apply State.noteStaging_recordsOnly
    | (with_reducible apply foldl_recordsOnly <;> intros) | dsimp only | with_reducible apply RecordsOnly.ite | split
    | simp only [RecordsOnly.mk_iff]

theorem State.sendMark_recordsOnly {r₀ s₀ : State} (h₀ : RecordsOnly r₀ s₀) (r : Rec) : RecordsOnly r₀ (s₀.sendMark r) := by
  unfold State.sendMark
  exact RecordsOnly.ite (State.emit_recordsOnly h₀ _) h₀

theorem State.form_recordsOnly {r₀ s₀ : State} (h₀ : RecordsOnly r₀ s₀) (r : Rec) (since : Option Nat) :
    RecordsOnly r₀ (s₀.form r since).2 := by
  unfold State.form
  refine State.sendMark_recordsOnly (State.stage_recordsOnly ?_ _) _
  rw [RecordsOnly.mk_iff]
  exact h₀

theorem State.raiseMute_recordsOnly {r₀ s₀ : State} (h₀ : RecordsOnly r₀ s₀) (r : Rec) : RecordsOnly r₀ (s₀.raiseMute r) := by
  unfold State.raiseMute
  split
  · refine State.srcEvent_recordsOnly ?_ _ _ _
    rw [RecordsOnly.mk_iff]
    exact h₀
  · exact h₀

theorem State.formPlace_recordsOnly {r₀ s₀ : State} (h₀ : RecordsOnly r₀ s₀) (r : Rec) : RecordsOnly r₀ (s₀.formPlace r).2 := by
  unfold State.formPlace
  exact State.raiseMute_recordsOnly (State.form_recordsOnly h₀ _ _) _

theorem State.unstage_recordsOnly {r₀ s₀ : State} (h₀ : RecordsOnly r₀ s₀) (p : Rec → Bool) :
    RecordsOnly r₀ (State.unstage (s := s₀) (p := p)) := by
  unfold State.unstage
  repeat' first
    | with_reducible assumption | with_reducible apply State.settle_recordsOnly
    | with_reducible apply State.noteStaging_recordsOnly | (with_reducible apply foldl_recordsOnly <;> intros)
    | dsimp only | with_reducible apply RecordsOnly.ite | split | simp only [RecordsOnly.mk_iff]

theorem State.noteHp_recordsOnly {r₀ s₀ : State} (h₀ : RecordsOnly r₀ s₀) (n : Nat) :
    RecordsOnly r₀ (State.noteHp (s := s₀) (n := n)) := by
  unfold State.noteHp
  repeat' first
    | with_reducible assumption | with_reducible apply State.modRing_recordsOnly
    | (with_reducible apply foldl_recordsOnly <;> intros) | dsimp only | with_reducible apply RecordsOnly.ite | split
    | simp only [RecordsOnly.mk_iff]

theorem State.gapLoss_recordsOnly {r₀ s₀ : State} (h₀ : RecordsOnly r₀ s₀) (l : Loss) :
    RecordsOnly r₀ (State.gapLoss (s := s₀) (l := l)).2 := by
  unfold State.gapLoss
  repeat' first
    | with_reducible assumption | with_reducible apply State.takeFree_recordsOnly
    | (with_reducible apply foldl_recordsOnly <;> intros) | dsimp only | with_reducible apply RecordsOnly.ite | split
    | simp only [RecordsOnly.mk_iff]

theorem State.formGap_recordsOnly {r₀ s₀ : State} (h₀ : RecordsOnly r₀ s₀) (w : GapWait) :
    RecordsOnly r₀ (State.formGap (s := s₀) (w := w)) := by
  unfold State.formGap
  repeat' first
    | with_reducible assumption | with_reducible apply State.count_recordsOnly
    | with_reducible apply State.formPlace_recordsOnly | with_reducible apply State.noteHp_recordsOnly
    | with_reducible apply State.gapLoss_recordsOnly | (with_reducible apply foldl_recordsOnly <;> intros)
    | dsimp only | with_reducible apply RecordsOnly.ite | split | simp only [RecordsOnly.mk_iff]

theorem State.dueGap_recordsOnly {r₀ s₀ : State} (h₀ : RecordsOnly r₀ s₀) (w : GapWait) :
    RecordsOnly r₀ (State.dueGap (s := s₀) (w := w)) := by
  unfold State.dueGap
  repeat' first
    | with_reducible assumption | with_reducible apply State.formGap_recordsOnly
    | (with_reducible apply foldl_recordsOnly <;> intros) | dsimp only | with_reducible apply RecordsOnly.ite | split
    | simp only [RecordsOnly.mk_iff]

theorem State.eventRecord_recordsOnly {r₀ s₀ : State} (h₀ : RecordsOnly r₀ s₀) (n : Nat) (detail : Nat) (port :
    Option Nat) :
    RecordsOnly r₀ (State.eventRecord (s := s₀) (n := n) (detail := detail) (port := port)) := by
  unfold State.eventRecord
  repeat' first
    | with_reducible assumption | with_reducible apply State.modRing_recordsOnly
    | with_reducible apply State.form_recordsOnly | with_reducible apply State.dueGap_recordsOnly
    | (with_reducible apply foldl_recordsOnly <;> intros) | dsimp only | with_reducible apply RecordsOnly.ite | split
    | simp only [RecordsOnly.mk_iff]

/-! ### Raising a source -/

/-- Raising an event source touches the sources, and records beside them. -/
theorem State.raiseEvent_eq (s : State) (n detail : Nat) (port : Option Nat) :
    ∃ t x, RecordsOnly s t ∧ s.raiseEvent n detail port = { t with srcs := x } := by
  obtain ⟨x, e⟩ := (s.eventRecord n detail port).srcEvent_eq n s.stamp none
  exact ⟨_, x, State.eventRecord_recordsOnly (RecordsOnly.refl s) n detail port, e⟩

theorem State.refreshLevel_eq (s : State) (n : Nat) : ∃ x, s.refreshLevel n = { s with srcs := x } := by
  unfold State.refreshLevel
  dsimp only
  split
  · exact ⟨s.srcs, rfl⟩
  · split
    · exact ⟨_, rfl⟩
    · split
      · exact ⟨_, rfl⟩
      · exact ⟨s.srcs, rfl⟩

theorem State.refreshLevel_input (s : State) (n : Nat) : ((s.refreshLevel n).src n).input = (s.src n).input := by
  unfold State.refreshLevel
  dsimp only
  split
  · rfl
  · split
    · rw [State.src_setSrc_self]
    · split
      · rw [State.src_setSrc_self]
      · rfl

theorem State.srcLevel_eq (s : State) (n : Nat) (b : Bool) (stamp : Stamp) :
    ∃ x, s.srcLevel n b stamp = { s with srcs := x } := by
  unfold State.srcLevel
  dsimp only
  split
  · exact ⟨s.srcs, rfl⟩
  · obtain ⟨x, e⟩ := (s.setSrc n { s.src n with input := b, inputStamp := if b then stamp else (s.src n).inputStamp }).refreshLevel_eq n
    exact ⟨x, e⟩

/-- Raising or releasing a level source touches the sources, and records beside them. -/
theorem State.raiseLevel_eq (s : State) (n : Nat) (b : Bool) (detail : Nat) :
    ∃ t x, RecordsOnly s t ∧ s.raiseLevel n b detail = { t with srcs := x } := by
  unfold State.raiseLevel
  split
  · exact ⟨s, s.srcs, RecordsOnly.refl s, rfl⟩
  · obtain ⟨x, e⟩ := (if b = true then s.eventRecord n detail none else s).srcLevel_eq n b s.stamp
    refine ⟨_, x, ?_, e⟩
    split
    · exact State.eventRecord_recordsOnly (RecordsOnly.refl s) n detail none
    · exact RecordsOnly.refl s

theorem State.raiseEvent_reg (s : State) (n detail : Nat) (port : Option Nat) (i w : Nat) (hw : w < 4096)
    (hg : gatedWord w = false) : (s.raiseEvent n detail port).reg i w = s.reg i w := by
  obtain ⟨t, x, h, e⟩ := s.raiseEvent_eq n detail port
  rw [e]
  exact h.reg i w hw hg

theorem State.raiseLevel_reg (s : State) (n : Nat) (b : Bool) (detail i w : Nat) (hw : w < 4096)
    (hg : gatedWord w = false) : (s.raiseLevel n b detail).reg i w = s.reg i w := by
  obtain ⟨t, x, h, e⟩ := s.raiseLevel_eq n b detail
  rw [e]
  exact h.reg i w hw hg

/-- A level source that has been raised or released has that input. -/
theorem State.raiseLevel_input (s : State) (n : Nat) (b : Bool) (detail : Nat) :
    ((s.raiseLevel n b detail).src n).input = b := by
  unfold State.raiseLevel
  split
  · rename_i h
    exact eq_of_beq h
  · rename_i h
    have k : ∀ u : State, (u.src n).input ≠ b → ∀ st, ((u.srcLevel n b st).src n).input = b := by
      intro u hu st
      unfold State.srcLevel
      simp only [beq_iff_eq, hu, if_false]
      rw [State.refreshLevel_input, State.src_setSrc_self]
    apply k
    split
    · have e := (State.eventRecord_recordsOnly (RecordsOnly.refl s) n detail none).input n
      rw [e]
      simpa using h
    · simpa using h

end Sys2Proof.Machine
end

