-- ==== Sys2Proof/Tests/Slice0.lean ====
section
/-!
SUPPORT. A witness for every statement that has hypotheses: a concrete state and operands that meet them together; the
smoke test of WellFormed; and the spec's own worked examples.
-/
namespace Sys2Proof.Tests
open Sys2Proof Sys2Proof.Machine

set_option Elab.async false

/-! ### States of the witnesses -/

/-- A device in service: clocked, READY, every octant open, the link up, its place on the chain taken. -/
def up : State :=
  { clk := { locked := true, once := true }, boot := { stage := .ready, fusesRead := true, vAt := some 0, octTaken := 8 },
    chain := { assigned := true }, now := 100000, c := 1600000#64,
    link := { pm := .l0, perst := false, bme := true, msixEn := true } }

/-- The members of an engaged pair. -/
def shadow : State := ({ up with hinge := { state := .engaged, up := true } } : State).wr Reg.HG_CFG_ROLE 2
def primary : State := ({ up with hinge := { state := .engaged, up := true } } : State).wr Reg.HG_CFG_ROLE 1

/-- The pair state of a device. -/
def paired (s : State) (x : PairState) : State := { s with hinge := { s.hinge with state := x } }

/-- A device in Gesso, with DCLK. -/
def gesso : State := { clk := { locked := true, once := true } }

/-! ### Witnesses: the step and the chain -/

theorem wit_StepRunsTheFrontCommandOrPassesOneEdge : ({ up with pending := [.lapseQueue, .porNFall] } : State).pending = .lapseQueue :: [.porNFall] := by
  decide
theorem wit_StepRunsTheFrontCommandOrPassesOneEdge_idle :
    up.pending = [] ∧ up.clocked = true ∧ State.reset.pending = [] ∧ State.reset.clocked = false := by decide
theorem wit_EveryStepKeepsTheRegisterFile : ∃ t, primary.regsWf = true ∧ step primary = .next t := ⟨_, by decide +kernel, rfl⟩
theorem wit_CounterAdvancesSixteenPerEdge : ∃ t, exec .lapseQueue up = .next t ∧ (∀ r, Instr.lapseQueue ≠ .por r) ∧
    Instr.lapseQueue ≠ .porNFall ∧ Instr.lapseQueue ≠ .pllLock ∧ Instr.lapseQueue ≠ .solsticeApply :=
  ⟨_, rfl, nofun, nofun, nofun, nofun⟩
theorem wit_RefusedWriteOnlyAnswers : singleWrite (.solArm 3) = some (0x085, 3) ∧
    up.refusesWrite (0x085 : BitVec 12).toNat 3 Code.value = true ∧ Code.value ≠ Code.ok := by decide +kernel
/-- The word that asks for a SOFT reset. -/
def softWord : Word := Reg.PW_RSTCTL_CONFIRM.set (Reg.PW_RSTCTL_SOFT.set 0 1) 0x0A5F
theorem wit_AcceptedWriteAnswersOk : singleWrite (.alCut 1) = some (0x1C1, 1) ∧ up.takesWrite (0x1C1 : BitVec 12).toNat 1 = true ∧
    (up.applyWrite [((0x1C1 : BitVec 12).toNat, 1)] []).chain.assigned = true ∧
    singleWrite (.softReset softWord) = some (0x120, softWord) ∧ up.takesWrite (0x120 : BitVec 12).toNat softWord = true ∧
    (up.applyWrite [((0x120 : BitVec 12).toNat, softWord)] []).chain.assigned = false := by decide +kernel
/-- A mirrored write waits for the peer. -/
def mirrorWaits : State :=
  { primary with hinge := { primary.hinge with mirror := some { addr := 0x301, inst := 0, data := [0x64000#32], status := Code.ok } } }
theorem wit_WriteIsNotAppliedHere : singleWrite (.alCut 1) = some (0x1C1, 1) ∧ State.reset.chainOn = false ∧
    mirrorWaits.chainOn = true ∧ mirrorWaits.hinge.mirror.isSome = true := by decide
theorem wit_WriteIsNotAppliedHere_mirrored : singleWrite (.paletteWrite 0 0x64000) = some (0x301, 0x64000) ∧
    primary.slotReady = true ∧ primary.checkWrite (0x301 : BitVec 12).toNat [0x64000] true = none ∧
    mirroredWrite (0x301 : BitVec 12).toNat 0x64000 = true ∧ primary.hinge.state = .engaged ∧
    (paired primary .degraded).slotReady = true ∧ (paired primary .degraded).hinge.state = .degraded ∧
    (paired primary .degraded).checkWrite (0x301 : BitVec 12).toNat [0x64000] true = none := by decide +kernel
/-- Values wider than a word, to be read. -/
def wide : State :=
  { up with c := 0x123456789ABCDEF0#64, tb := { syncLast := 0x1122334455667788#64 }, boot := { up.boot with imageId := 0x0102030405060708#64 },
            chain := { up.chain with errlog := 0xA1A2A3A4A5A6A7A8#64 },
            hinge := { disStamp := 0x5152535455565758#64, tkStamp := 0x6162636465666768#64 },
            almanac := { committed := 2 ^ 33 + 5 } }
theorem wit_ReadsLatchWhatTheyShow : [0x081, 0x088, 0x006, 0x014, 0x188, 0x18D, 0x711, 0x1C3].all wide.takesRead = true ∧
    [0x404, 0x407, 0x80A, 0x1E2].all wide.takesRead = true := by decide +kernel
/-- A snapshot stands, and its address is the last but one, or the last. -/
def snapAt (a : Nat) : State :=
  (({ up with tb := { snap := [(0x081, 7)] } } : State).wr Reg.TB_STAT_FR_VALID 1).wr Reg.TB_FR_ADDR_WORD a
theorem wit_ReadsLatchWhatTheyShow_fresco : (snapAt 0xFFE).slotReady = true ∧ (snapAt 0xFFE).chain.mode ≠ .broadcast ∧
    (snapAt 0xFFE).on Reg.TB_STAT_FR_VALID = true ∧ (snapAt 0xFFF).on Reg.TB_STAT_FR_VALID = true ∧
    (snapAt 0xFFF).rd Reg.TB_FR_ADDR_WORD = 0xFFF ∧ up.on Reg.TB_STAT_FR_VALID = false ∧ up.slotReady = true := by decide +kernel
/-- A master whose aperture is in use. -/
def auxBusy : State := { up with auxs := [(0, { state := .busy, startAt := 100000, lead := 8 })] }
theorem wit_ReadsLatchWhatTheyShow_aperture : up.slotReady = true ∧ up.chain.mode ≠ .broadcast ∧ up.selAll (0x8C0 + 63) = false ∧
    up.readCode (up.selOf (0x8C0 + 63)) (0x8C0 + 63) = Code.ok ∧ auxBusy.slotReady = true ∧ auxBusy.chain.mode ≠ .broadcast ∧
    auxBusy.selAll (0x8C0 + 0) = false ∧ auxBusy.readCode (auxBusy.selOf (0x8C0 + 0)) (0x8C0 + 0) ≠ Code.ok := by decide +kernel

/-! ### Witnesses: power, dies, clock, host accesses -/

theorem wit_PowerAndFirstLockBeginAnew : State.reset.clk.porN = true ∧ State.reset.clk.locked = false ∧
    State.reset.clk.once = false ∧ ({ clk := { once := true } } : State).clk.porN = true ∧
    ({ clk := { once := true } } : State).clk.locked = false ∧ ({ clk := { once := true } } : State).clk.once = true := by decide
theorem wit_GessoLeadsToTheLoad : gesso.clocked = true ∧ gesso.boot.stage = .gesso ∧ gesso.boot.fusesRead = false ∧
    gesso.boot.hot = false ∧ ({ gesso with boot := { fusesRead := true } } : State).clocked = true ∧
    ({ gesso with boot := { fusesRead := true } } : State).boot.stage = .gesso ∧ (0 : BitVec 4) = 0 := by decide
/-- Every die and stack works. -/
def dies : State := (up.wr Reg.GL_DIESTAT_SIO_OK 15).wr Reg.GL_DIESTAT_HBM_OK 3
theorem wit_FaultsOfDiesAndClock : dies.running = true ∧ (dies.rd Reg.GL_DIESTAT_SIO_OK).testBit 3 = true ∧
    (dies.rd Reg.GL_DIESTAT_HBM_OK).testBit 1 = true ∧ dies.clk.locked = true ∧
    (dies.wr Reg.GL_DIESTAT_SIO_OK 7).running = true ∧ ((dies.wr Reg.GL_DIESTAT_SIO_OK 7).rd Reg.GL_DIESTAT_SIO_OK).testBit 3 = false ∧
    ((dies.wr Reg.GL_DIESTAT_HBM_OK 1).rd Reg.GL_DIESTAT_HBM_OK).testBit 1 = false := by decide +kernel
theorem wit_HostAccessOutsideTheMap : up.link.up = true ∧ up.running = true ∧ (⟨0, false⟩ : HostWrite).full = false ∧
    (⟨4, true⟩ : HostWrite).offset % 4096 ≠ 0 ∧ 16 ≤ (⟨16, true⟩ : HostWrite).offset % 4096 ∧
    0x10000 ≤ (⟨0x10000, true⟩ : HostWrite).offset ∧
    readElsewhere false (0x1000 / 4) ((0x1000 + 12 + 3) / 4) = false ∧ readElsewhere true (0x100C / 4) ((0x100C + 8 + 3) / 4) = false ∧
    readElsewhere true (0x20000 / 4) ((0x20000 + 16 + 3) / 4) = false ∧
    readElsewhere true (0x21000 / 4) ((0x21000 + 4 + 3) / 4) = false := by decide +kernel
/-- What the device returns to a host read of one of its three pages. -/
theorem test_hostRead : (exec (.hostReadUnimpl false 0x3000 12) up = .next { up with out := [.readData [0, 0, 0x100]] }) ∧
    (exec (.hostReadUnimpl true 0x20100 4) up = .next { up with out := [.readData [0]] }) := by
  constructor <;> rfl
theorem wit_StatusMirrorShowsTheChainView : up.running = true ∧ up.link.up = true ∧ implemented 0x2F = false ∧ implemented 0x003 = true ∧
    up.selAll 0x003 = false := by decide +kernel

/-! ### Witnesses: the timebase -/

/-- A device with a receiving port. -/
def portOn : State := up.wr Reg.PT_RXCFG_EN 1 0
theorem wit_CalibrationRunsAndReports : up.slotReady = true ∧ up.portsOrMonitorsOn = false ∧ up.tb.armedAt = none ∧
    up.on Reg.TB_STAT_FR_PENDING = false ∧ up.tb.calAt = none ∧ portOn.slotReady = true ∧ portOn.portsOrMonitorsOn = true ∧
    ({ up with tb := { calAt := some 5 } } : State).tb.calAt = some 5 ∧ up.clocked = true ∧ up.clk.stopped = false ∧
    up.boot.stage ≠ .gesso ∧ ({ gesso with tb := { calAt := some 5 } } : State).clocked = true := by decide +kernel

/-- A rise of SYNC at edge 90,000, tap 3. -/
def rise : SyncEdge := ⟨90000, 3, 1440000⟩
/-- A rise that has gone out one DCLK ago, to be taken back. -/
def shortPulse : State := { up with tb := { syncIn := true, syncAt := 16 * 99999, syncSent := true, syncOut := true } }
theorem wit_SyncEdgesQualify : up.clocked = true ∧ up.tb.syncIn = !true ∧ up.tb.syncAt + 256 ≤ 16 * up.now + 15 ∧
    up.tb.syncOut = !true ∧ shortPulse.tb.syncIn = !false ∧ 16 * shortPulse.now + 0 < shortPulse.tb.syncAt + 32 ∧
    shortPulse.tb.syncSent = true ∧ shortPulse.tb.syncOut = !false ∧ shortPulse.clocked = true ∧
    ({ up with tb := { syncIn := true } } : State).tb.syncIn = !false ∧
    ({ up with tb := { syncIn := true } } : State).tb.syncEdge = none ∧
    ({ up with tb := { syncEdge := some rise, armedAt := some 90000 } } : State).tb.syncEdge = some rise ∧ 90000 < rise.n + 1 := by
  decide
/-- An armed Solstice. -/
def armed : State := { up with tb := { armedAt := some 90000 } }
theorem wit_SolsticeArmCancelAndDelay : up.takesWrite 0x085 1 = true ∧ armed.slotReady = true ∧ armed.tb.armedAt.isSome = true ∧
    armed.takesWrite 0x085 2 = true ∧ armed.tb.commit = none ∧ up.takesWrite 0x086 5 = true ∧ up.reg 0 0x086 ≠ 5 ∧
    up.takesWrite 0x086 (up.reg 0 0x086) = true ∧ (0xFFFFFF : Word).toNat < 2 ^ 24 := by decide +kernel
/-- A committed Solstice, and one with a pending Fresco. -/
def committed : State := { up with now := 90010, tb := { armedAt := some 80000, commit := some rise } }
/-- An engaged shadow that has counted a window of 1,024 shared edges with this sum of differences. -/
def windowed (sum : Int) : State := { shadow with tb := { pairWindows := [sum] } }
theorem wit_SolsticeLoadAndPairOffset : committed.clocked = true ∧ committed.tb.commit = some rise ∧ committed.now ≤ rise.n + 20 ∧
    (committed.wr Reg.TB_STAT_FR_PENDING 1).on Reg.TB_STAT_FR_PENDING = true ∧ (windowed 0).engagedShadow = true ∧
    (windowed 0).running = true ∧ (windowed 0).tb.pairWindows = 0 :: [] ∧
    (windowed 0).on Reg.TB_PAIROFS_VALID = false ∧ ((windowed 0).wr Reg.TB_PAIROFS_VALID 1).on Reg.TB_PAIROFS_VALID = true ∧
    (BitVec.ofNat 16 (((windowed 0).wr Reg.TB_PAIROFS_VALID 1).rd Reg.TB_PAIROFS_OFS)).toInt = roundDivInt 0 1024 ∧
    up.engagedShadow = false := by decide +kernel
/-- A valid epoch, with F behind and ahead. -/
def epoch : State := up.wr Reg.TB_STAT_EPOCH_VALID 1
def ahead : State := epoch.setReg 0 0x090 (1616384 : Word)
theorem wit_FrescoArmLatchRelease : epoch.slotReady = true ∧ epoch.hinge.state ≠ .engaging ∧ epoch.hinge.state ≠ .engaged ∧
    epoch.hinge.state ≠ .degraded ∧ epoch.frFar = false ∧ (epoch.setReg 0 0x090 (1616383 : Word)).frFar = false ∧
    ahead.frFar = true ∧ ahead.on Reg.TB_STAT_EPOCH_VALID = true ∧ ahead.on Reg.TB_STAT_FR_PENDING = false ∧
    ahead.on Reg.TB_STAT_FR_VALID = false ∧ (ahead.wr Reg.TB_STAT_FR_PENDING 1).on Reg.TB_STAT_FR_PENDING = true ∧
    ahead.running = true ∧ (shadow.wr Reg.TB_STAT_FR_PENDING 1).on Reg.TB_STAT_FR_PENDING = true ∧
    (shadow.wr Reg.TB_STAT_FR_PENDING 1).engagedShadow = true := by decide +kernel

/-! ### Witnesses: ports -/

/-- Port 0 is as given. -/
def withPort (s : State) (x : Port) : State := { s with ports := [(0, x)] }
/-- Pin 1, which port 0 receives on, is as given. -/
def withPin (s : State) (x : Pin) : State := { s with pins := [(1, x)] }
/-- Settings that are no direct entry: four lanes over a range. -/
def searching : Settings := { acq := (Reg.PL_ACQ_RANGE.set (Reg.PL_ACQ_LANES.set 0x40000 2) 20) }
/-- A receiver in TRACK at the nominal bit period, inside a character where one is given. -/
def inTrack (f : Option Frame) : Port := { rx := .track, trk := { period := 1677721600, sawMark := true, cur := f } }
/-- A start transition at tick 1,000,000, and what the line does after it. -/
def t0 : Stamp := 1000000
def level (high : Bool) (bits : Nat) : PinEvent := ⟨high, false, t0 + BitVec.ofNat 64 (12800 * bits), t0 + BitVec.ofNat 64 (12800 * bits),
  62500 + 800 * bits, none⟩
def allSpaces : Frame := { t0 := t0, stamp := t0 }
def allMarks : Frame := { t0 := t0, stamp := t0, evs := [level true 2] }
def badStop : Frame := { t0 := t0, stamp := t0, evs := [level true 2, level false 18] }
theorem wit_PortSettingsChange : up.takesWrite (0x301 + (3 : Fin 4).val) 0 = true ∧ up.selAll (0x301 + (3 : Fin 4).val) = false ∧
    up.enabledPorts = [] ∧ up.takesWrite 0x402 2 = true ∧ up.selAll 0x402 = false ∧
    (withPort portOn { rx := .held }).takesWrite 0x402 1 = true ∧ (withPort portOn { rx := .held }).selAll 0x402 = false ∧
    ((withPort portOn { rx := .held }).port ((withPort portOn { rx := .held }).selOf 0x402)).rx = .held ∧
    (withPort portOn { rx := .held }).gateDue ((withPort portOn { rx := .held }).selOf 0x402) = false ∧ up.gateDue (up.selOf 0x402) = false ∧
    up.takesWrite 0x901 2 = true ∧ up.selAll 0x901 = false ∧ up.takesWrite 0x415 2 = true ∧ up.selAll 0x415 = false := by decide +kernel
/-- A palette change waits. -/
def palWaits (s : State) : State := withPort s { inTrack none with palWaits := true }
theorem wit_PortSettingsChange_boundary : (palWaits up).running = true ∧ (palWaits up).gateDue 0 = false ∧
    (palWaits up).fallbackDue 0 = false ∧ (palWaits up).pinRuns (rxPin 0) = true ∧ ((palWaits up).port 0).txPalWaits = false ∧
    ((palWaits up).port 0).palWaits = true ∧ ((palWaits up).port 0).rx = .track ∧ ((palWaits up).port 0).trk.cur = none ∧
    (palWaits up).engagedShadow = false ∧ (up.port 0).palWaits = false ∧ up.gateDue 0 = false ∧ up.fallbackDue 0 = false ∧
    up.pinRuns (rxPin 0) = true ∧ (up.port 0).txPalWaits = false ∧ (palWaits shadow).engagedShadow = true ∧
    (palWaits shadow).gateDue 0 = false ∧ ((palWaits shadow).port 0).trk.cur = none := by decide +kernel
/-- A pin at high, one that has shown no level, one whose group is frozen. -/
def high : State := withPin up { level := some true, sample := .high }
def frozen : State := { high with groups := [(0, { frozen := true })] }
theorem wit_PinTransitionIsExtracted : high.samples 1 = true ∧ (high.pin 1).level = some (if true then true else !true) ∧
    (high.pin 1).level = some (if false then false else !false) ∧ up.samples 1 = true ∧ (up.pin 1).level = none ∧
    frozen.samples 1 = false ∧ State.reset.samples 1 = false := by decide +kernel
/-- Port 0 with events its recorder has not handed over. -/
def unread (x : Port) (l : List PinEvent) : State := withPin (withPort up x) { recorder := l, fresh := l.length }
theorem wit_EventsReachTheTracker : (unread (inTrack none) [level false 0]).running = true ∧
    (unread (inTrack none) [level false 0]).gateDue 0 = false ∧ ((unread (inTrack none) [level false 0]).port 0).rx = .track ∧
    ((unread (inTrack none) [level false 0]).pin (rxPin 0)).unread = level false 0 :: [] ∧
    ((unread (inTrack none) [level false 0]).pin (rxPin 0)).lost = 0 ∧ (inTrack none).trk.cur = none ∧
    (inTrack none).breaking = none ∧ (level false 0).toSpace (inTrack none).set = true ∧ (inTrack none).trk.sawMark = true ∧
    ((unread (inTrack (some allSpaces)) [level true 2]).port 0).trk.cur = some allSpaces ∧ allSpaces.held = false ∧
    (unread (inTrack (some allSpaces)) [level true 2]).gateDue 0 = false ∧
    ((unread (inTrack (some allSpaces)) [level true 2]).pin (rxPin 0)).unread = level true 2 :: [] := by decide +kernel
/-- The second consecutive character with FE, in settings that search. -/
def secondFe : Port := { inTrack (some badStop) with feRun := 1, set := searching }
theorem wit_CharactersAndBreaksEnd :
    ([inTrack (some allSpaces), inTrack (some allMarks), secondFe].all (fun x =>
      (withPort up x).running && !(withPort up x).gateDue 0 && !(withPort up x).engagedShadow && (withPort up x).port 0 == x &&
      x.rx == .track && x.trk.cur.isSome && x.trk.cur.all (fun f => !f.held && (withPort up x).caughtUp 0 (f.centre x.set x.trk.period) &&
        (f.leftover x.set x.trk.period).isEmpty))) = true ∧
    allSpaces.allSpace {} 1677721600 = true ∧ allMarks.allSpace {} 1677721600 = false ∧
    (allMarks.decode {} 1677721600 true).fe = false ∧ badStop.allSpace searching 1677721600 = false ∧
    (badStop.decode searching 1677721600 true).fe = true ∧ 0 < secondFe.feRun ∧ searching.direct = false ∧
    secondFe.palWaits = false := by decide +kernel
theorem wit_CharactersAndBreaksEnd_break : (withPort up (inTrack (some allSpaces))).running = true ∧
    (withPort up (inTrack (some allSpaces))).gateDue 0 = false ∧ (withPort up (inTrack (some allSpaces))).fallbackDue 0 = false ∧
    ((withPort up (inTrack (some allSpaces))).port 0).candidate = some (allSpaces, 1677721600) ∧
    (withPort up (inTrack (some allSpaces))).caughtUp 0 (breakAt {} 1677721600 t0) = true := by decide +kernel
/-- A full gate; 65 starts and no decision; a PROV record that waits. -/
def fullGate : Port := { inTrack none with meter := { sumD := 25600000, sumN := 1000, edges := 4294967295, last := t0, full := true } }
def lost65 : Port := { rx := .acq, set := searching, acq := some { lanes := [], starts := List.replicate 65 t0 } }
def prov : Rec := { uid := 1, ring := 0, type := .chr, base := t0, body := .raw [], prov := true, since := 99000 }
theorem wit_GateFallbackAndExpiry : (withPort up fullGate).running = true ∧ (withPort up fullGate).gateDue 0 = true ∧
    (withPort up fullGate).on Reg.PT_RXCFG_FMREC 0 = false ∧ up.gateDue 0 = false ∧ (withPort up lost65).fallbackDue 0 = true ∧
    up.fallbackDue 0 = false ∧ ([prov] : List Rec).find? (fun r => r.prov && r.slot.isNone) = some prov := by decide +kernel

/-! ### Witnesses: transmission -/

/-- A submission ring, and a completion ring, that work. -/
def rings : State := { (up.wr Reg.RG_CFG_KIND 0 0).wr Reg.RG_CFG_KIND 1 1 with
  rings := [(0, { state := .active, host := 2 }), (1, { state := .active, issued := 3 })] }
/-- Port 0 transmits, idle, with a place in ring 0. -/
def transmits (x : Port) : State := withPort (rings.wr Reg.PT_TXCFG_EN 1 0) x
/-- The bytes of a descriptor of port 0 with two bytes of data. -/
def descBytes : List Byte := padTo 64 (leBytes 8 (7 * 2 ^ 32) ++ List.replicate 16 0 ++ leBytes 4 2)
def aDesc : Desc := { parseDesc 0 0 descBytes with num := 0 }
theorem wit_SubmissionsReachTheQueue : rings.running = true ∧ rings.doorbellBad 0 2 = false ∧ rings.doorbellBad 1 3 = false ∧
    rings.doorbellBad 1 4 = true ∧ rings.doorbellBad 0 0xFFFFFFFF = true ∧ rings.doorbellBad 2 0 = true ∧ (rings.ring 2).state ≠ .active ∧
    rings.engagedShadow = false ∧ (rings.ring 0).state = .active ∧ rings.rd Reg.RG_CFG_KIND 0 = 0 ∧
    (rings.ring 0).issued ≠ (rings.ring 0).host ∧ rings.descHeld 0 < 128 ∧ rings.mayRequest = true ∧
    aDesc = { parseDesc (0 : RingIx).val (BitVec.ofNat 32 ((rings.ring 0).issued.toNat % rings.ringSize 0)) descBytes with
      num := (rings.ring 0).issued } ∧
    (transmits { tx := .idle }).invalidDesc aDesc (padTo 64 descBytes) = false ∧ ((transmits { tx := .idle }).port aDesc.port).tx ≠ .off ∧
    ((transmits { tx := .idle }).port aDesc.port).tx ≠ .starved ∧ aDesc.timed = false ∧ (rings.port aDesc.port).tx = .off := by decide +kernel
theorem wit_SubmissionsReachTheQueue_data : (transmits { tx := .idle, queue := [aDesc] }).port 0 = { tx := .idle, queue := [] ++ aDesc :: [] } ∧
    aDesc.data = none ∧ ([0x41, 0x42] : List Byte).length = aDesc.len ∧
    (transmits { tx := .idle, queue := [aDesc] }).txUsed 0 + aDesc.len ≤ (transmits { tx := .idle, queue := [aDesc] }).txSpace 0 ∧
    (transmits { tx := .idle, queue := [aDesc] }).mayRequest = true ∧ ((transmits { tx := .idle }).port 0).queue = [] := by decide +kernel
/-- A descriptor in progress at a takeover, whose data are to be read again (R261). -/
def resumed : Sending := { job := .desc aDesc, used := 1, sent := 1, first := some t0 }
theorem wit_SubmissionsReachTheQueue_resumed : ((transmits { tx := .send, sending := some resumed }).port 0).sending = some resumed ∧
    resumed.job = .desc aDesc ∧ resumed.flight = none ∧ aDesc.data = none ∧ ([0x41, 0x42] : List Byte).length = aDesc.len ∧
    (transmits { tx := .send, sending := some resumed }).mayRequest = true := by decide +kernel
/-- The descriptor with its data. -/
def readyDesc : Desc := { aDesc with data := some [0x41, 0x42] }
def readyPort : Port := { tx := .idle, queue := [readyDesc] }
/-- The same under XON/XOFF, held. -/
def heldPort : Port := { readyPort with txSet := { link := Reg.PL_LINK_FLOW.set 0 2 }, xoffRx := true }
/-- A reply that waits, a flow character that is due, and a job with a character still to send. -/
def aReply : Reply := { rule := 0, bytes := [0x51], matched := { stamp := t0, t0 := t0, centre := t0, data := 0x41 }, partner := 7, seq := 0,
                        late := false, notBefore := 99000, uid := 8 }
def replyPort : Port := { tx := .idle, replies := [aReply], lastSent := some 1590000 }
def flowPort : Port := { heldPort with flowDue := [true] }
def halfway : Sending := { job := .desc readyDesc, used := 1, sent := 1, first := some t0, lastEnd := 1590000 }
def nextPort : Port := { tx := .send, sending := some halfway, lastSent := some 1590000 }
/-- The device with the delay of pin 0 given. -/
def pathed (x : Port) : State := { transmits x with regs := (0x0A1, 0x00010002) :: (transmits x).regs }
/-- The commit edge of what a port's free line starts has come, flow control permits it, and the job has a character. -/
def startsNow (s : State) (n : NextStart) : Bool :=
  s.running && (s.port 0).line.isNone && s.nextStart 0 == n &&
  (s.advance (s.startEdge 0 (s.earliestStart 0 n)).1).startPermitted 0 n
theorem wit_TransmissionsStart : startsNow (transmits readyPort) (.desc readyDesc) = true ∧
    startsNow (pathed replyPort) (.reply aReply) = true ∧ startsNow (transmits flowPort) (.flow true) = true ∧
    startsNow (pathed nextPort) .next = true ∧ ({ job := .desc readyDesc } : Sending).isDone = false ∧
    ({ job := .reply aReply } : Sending).isDone = false ∧ halfway.addrDue = false ∧
    halfway.job.bytes.drop halfway.used = 0x42 :: [] ∧
    (transmits heldPort).nextStart 0 = .desc readyDesc ∧ ((transmits heldPort).port 0).line = none ∧ heldPort.flowMode = 2 ∧
    heldPort.xoffRx = true := by decide +kernel
/-- An addressed descriptor, and one under 9 data bits. -/
def addressed : Port := { readyPort with queue := [{ readyDesc with addr := true }], txSet := { link := Reg.PL_LINK_ADDR.set 0 1 } }
def nineBits : Port := { readyPort with txSet := { frame := 9 } }
theorem wit_TransmissionsStart_forms : ((addressed.queue.map (fun d => ({ job := .desc d } : Sending).addrDue)) = [true]) ∧
    startsNow (transmits addressed) (.desc { readyDesc with addr := true }) = true ∧
    startsNow (transmits nineBits) (.desc readyDesc) = true ∧ nineBits.txSet.data = 9 := by decide +kernel
/-- The first of two characters of a descriptor is on the line, far from its end. -/
def firstOnLine : Sending := { job := .desc readyDesc, used := 1, flight := some (0x41, 1590000, 1718000), bit := 1677721600 }
def sendsFirst : State := pathed { tx := .send, sending := some firstOnLine }
theorem wit_TransmissionsStart_ahead : sendsFirst.running = true ∧
    (sendsFirst.port 0).line = some (0x41, 1590000, 1718000, 1677721600) ∧ sendsFirst.nextAhead 0 = .next ∧
    (sendsFirst.startEdge 0 (some (sendsFirst.aheadStart 0 .next 1718000))).1 < sendsFirst.edgeOf 1718000 ∧
    (sendsFirst.advance (sendsFirst.startEdge 0 (some (sendsFirst.aheadStart 0 .next 1718000))).1).startPermitted 0 .next = true := by
  decide +kernel
/-- A timed descriptor, its launch waited for; its data there or not; a character on the line. -/
def timedDesc : Desc := { readyDesc with timed := true, launch := 1640000 }
def timedPort : Port := { tx := .wait, queue := [timedDesc], launchAt := some (102400, 0) }
def latePort : Port := { timedPort with queue := [{ timedDesc with data := none }] }
def onLine : Sending := { job := .desc readyDesc, used := 2, sent := 1, flight := some (0x42, 1500000, 1620000), bit := 1677721600 }
theorem wit_TransmissionsStart_timed : (transmits timedPort).running = true ∧ timedPort.launchAt = some (102400, 0) ∧
    timedPort.queue = timedDesc :: [] ∧ timedPort.launchOk = false ∧ (transmits timedPort).mayTransmit 0 = true ∧
    ((transmits timedPort).advance (102400 - 4)).flowPermits 0 = true ∧ timedDesc.data.isSome = true ∧
    (transmits timedPort).occupied 0 timedDesc.launch = false ∧ timedPort.sending = none ∧ timedPort.flowFlight = none ∧
    ({ job := .desc timedDesc } : Sending).isDone = false ∧
    (transmits { timedPort with sending := some onLine }).occupied 0 timedDesc.launch = false ∧
    ({ timedPort with sending := some onLine } : Port).line.isSome = true ∧
    (transmits { timedPort with sending := some onLine }).mayTransmit 0 = true ∧
    latePort.queue = { timedDesc with data := none } :: [] ∧ (transmits latePort).mayTransmit 0 = true := by decide +kernel
/-- The last character of a descriptor is on the line. -/
def ending : Port := { tx := .send, sending := some onLine }
theorem wit_CharacterEndCompletesTheDescriptor : ((transmits ending).port 0).line = some (0x42, 1500000, 1620000, 1677721600) ∧
    (transmits ending).shadowing = false ∧ ((transmits ending).port 0) = ending ∧ ending.sending = some onLine ∧
    ending.flowFlight = none ∧ onLine.job = .desc readyDesc ∧ onLine.isDone = true ∧ ending.ahead = none ∧ ending.stopAfter = none ∧
    ending.replies = [] ∧ ending.queue = [] ∧ ending.launchOk = false ∧ ending.launchAt = none ∧ ending.flowDue = [] ∧
    ending.tx = .send ∧ ((transmits ending).pin (txPin 0)).cfgWaits = none ∧ ((transmits ending).pin (txPin 0)).switchWaits = false ∧
    (withPort shadow ending).shadowing = true ∧ ((withPort shadow ending).port 0).line.isSome = true := by decide +kernel

/-! ### Witnesses: link, rings, coherence -/

/-- The link of a device in service with one part of it changed. -/
def withLink (f : Link → Link) : State := { up with link := f up.link }
/-- An EVENT source that is enabled and pending. -/
def pendingSource : State := (({ up with srcs := [(256, { state := .pend })] } : State).wr Reg.CA_SCFG_EN 1 256).wr Reg.CA_SCFG_PRIO 3 256
def asleep : State := { pendingSource with link := { pendingSource.link with pmeEn := true, d3hot := true, pm := .l1 } }
def cold : State := { pendingSource with link := { pendingSource.link with pmeEn := true, pm := .l2 } }
theorem wit_TheHostLinkFollows : up.running = true ∧ up.link.up = true ∧ State.reset.running = false ∧
    (withLink fun l => { l with aspmL1 := true }).running = true ∧ (withLink fun l => { l with aspmL1 := true }).link.aspmL1 = true ∧
    (withLink fun l => { l with aspmL1 := true }).link.pm = .l0 ∧ (withLink fun l => { l with aspmL1 := true }).link.d3hot = false ∧
    (withLink fun l => { l with aspmL1 := true }).requestWaits = false ∧ (withLink fun l => { l with pm := .down }).link.perst = false ∧
    (withLink fun l => { l with pm := .down }).link.up = false ∧ (withLink fun l => { l with pm := .down }).power.host ≠ .dark ∧
    (withLink fun l => { l with pm := .down }).running = true ∧ State.reset.link.perst = true ∧ up.link.perst = false ∧
    up.engagedShadow = false := by decide +kernel
theorem wit_TheHostLinkFollows_wake : asleep.running = true ∧ asleep.link.pmeEn = true ∧ asleep.wakeSource = true ∧ asleep.link.pm ≠ .l2 ∧
    asleep.power.host ≠ .dark ∧ asleep.link.d3hot = true ∧ asleep.link.up = true ∧ asleep.link.wakeOut = false ∧ cold.running = true ∧
    cold.link.pmeEn = true ∧ cold.wakeSource = true ∧ cold.link.pm = .l2 ∧ cold.link.wakeOut = false := by decide +kernel
/-- Ring 1 holds records, a completion ring that works: one issued, one that waits. -/
def issued : Rec := { uid := 1, ring := 1, type := .chr, base := t0, body := .raw [], eligible := true, slot := some 2 }
def waiting : Rec := { uid := 2, ring := 1, type := .chr, base := 1400000, body := .raw [], since := 90000 }
def ripe : Rec := { waiting with eligible := true, eligAt := 95000 }
def holding (l : List Rec) : State := { rings with staging := l }
/-- A character that its port has confirmed and that is not built. -/
def confirmed : Entry :=
  { uid := 5, kind := .chr { stamp := t0, t0 := t0, centre := t0, data := 0x41 } 7 1 0 0 false, base := t0, since := 90000, space := 8 }
/-- A TXDONE record that waits for room in staging. -/
def waitsForRoom : Rec := { uid := 9, ring := 1, type := .txdone, base := t0, body := .raw [], port := 0 }
/-- A message whose records are all issued. -/
def msg : Msg := { target := 2, slot := 1, source := 260, bytes := List.replicate 16 0, after := [1] }
theorem wit_RecordsAndRingsMove : (withPort rings { entries := [confirmed] }).running = true ∧
    (withPort rings { entries := [confirmed] }).shadowing = false ∧ (withPort rings { entries := [confirmed] }).firstTx 0 = none ∧
    ({ rings with unbuilt := [waitsForRoom] } : State).running = true ∧ ({ rings with unbuilt := [waitsForRoom] } : State).shadowing = false ∧
    ({ rings with unbuilt := [waitsForRoom] } : State).firstTx 0 = some waitsForRoom ∧
    ((withPort rings { entries := [confirmed] }).port 0).entries.find? (fun e => !e.built) = some confirmed ∧
    (withPort rings { entries := [confirmed] }).gapBlocks 0 confirmed = false ∧
    (withPort rings { entries := [confirmed] }).stagingAdmits 0 confirmed = true ∧ (holding [issued, waiting]).running = true ∧
    earliest (((holding [issued, waiting]).staging.filter (fun r => r.waits 1)).map (·.base)) = some 1400000 ∧
    ({ holding [issued] with msgs := [msg] } : State).mayRequest = true ∧ ({ holding [issued] with msgs := [msg] } : State).hinge.flushFirst = false ∧
    ({ holding [issued] with msgs := [msg] } : State).staging.any (·.rewrite) = false ∧
    ({ holding [issued] with msgs := [msg] } : State).readyMsg = some msg ∧ (holding [issued]).link.pm = .l0 ∧
    (holding [ripe]).mayRequest = true ∧ (holding [ripe]).readyMsg = none ∧ (holding [ripe]).readyRings = [1] ∧
    (holding [ripe]).ringClass 1 = 0 ∧ (holding [ripe]).pressedRing = none := by decide +kernel
theorem test_writeOpportunity : (match exec .writeOpportunity (holding [ripe]) with
    | .next t => t.staging.map (fun r => (r.uid, r.slot)) | _ => []) = [(2, some 3)] := by decide +kernel
/-- Ring 1 drains, empty. -/
def draining : State := { rings with rings := [(1, { state := .draining, issued := 3 })] }
def mute : State := { holding [issued] with rings := [(1, { state := .draining, issued := 3, mute := true })] }
theorem wit_RecordsAndRingsMove_drain : mute.running = true ∧ (mute.ring 1).state = .draining ∧ (mute.ring 1).mute = true ∧
    draining.running = true ∧ (draining.ring 1).state = .draining ∧ draining.staging = [] ∧ (rings.ring 0).state ≠ .off ∧
    (draining.ring 1).mute = false ∧
    draining.descHeld 1 = 0 ∧ draining.unwritten 1 = [] ∧ draining.gapWaits = [] ∧ (rings.ring 1).state ≠ .draining ∧
    rings.running = true ∧ (rings.ring 0).state = .active ∧ rings.rd Reg.RG_CFG_KIND 0 = 0 := by decide +kernel
/-- A flush read is due, one is in flight, a record is to be written again. -/
def due : State := { holding [issued, waiting] with flushDue := true, flushAt := some 99999 }
def flying : State := { holding [issued, waiting] with flushes := [⟨90000, [1]⟩] }
def again : State := holding [{ issued with rewrite := true }]
theorem wit_FlushReadsCommitRecords : due.running = true ∧ due.flushDue = true ∧ due.mayRequest = true ∧ due.engagedShadow = false ∧
    due.flushes.length < due.rd Reg.GL_CMTCFG_MAXOUT ∧ due.staging.any (·.rewrite) = false ∧ flying.running = true ∧
    flying.flushes = ⟨90000, [1]⟩ :: [] ∧ again.running = true ∧ again.mayRequest = true ∧ again.engagedShadow = false ∧
    again.staging.any (·.rewrite) = true := by decide +kernel
/-- Ring 1 of class BOUNDED with a record that waits, with an interval, ring 1 of class BULK with a ripe record. -/
def bounded : State := (holding [waiting]).wr Reg.RG_CFG_CLASS 1 1
def interval : Breach := { start := 50000, from_ := t0, cause := 2, cring := 1, portv := false, port := 0, cstamp := t0, records := 3 }
def inBreach : State := { bounded with rings := [(1, { state := .active, breach := some interval })] }
def bulk : State :=
  (({ holding [ripe] with rings := [(1, { state := .active, issued := 3, readyFrom := some 95000 })] } : State).wr Reg.RG_CFG_CLASS 2 1)
def aLoss : Loss := { chars := 3, others := 1, first := 5, last := 9, opened := 70000 }
def losing : State := withPort rings { losses := [(2, aLoss)] }
def losingEvents : State := { rings with rings := [(0, { state := .active, loss := some aLoss })] }
def gapWaits : State := { rings with gapWaits := [{ ring := 1, port := 0, partner := 2, loss := aLoss, isOpen := false, cause := 1 }] }
theorem wit_IntervalsOpenAndContinue : bounded.running = true ∧ bounded.ringClass 1 = 1 ∧ (bounded.ring 1).breach = none ∧
    leastOf (bounded.unwritten 1) = some 90000 ∧ inBreach.running = true ∧ (inBreach.ring 1).breach = some interval ∧
    inBreach.ringClass 1 = 1 ∧ inBreach.breachPlaceTaken 1 = false ∧ bulk.running = true ∧ bulk.ringClass 1 = 2 ∧
    (bulk.ring 1).breach = none ∧ bulk.holdsReady 1 = true ∧ (bulk.ring 1).readyFrom = some 95000 ∧
    (losingEvents.ring (losingEvents.rd Reg.RG_EVRING_RING)).loss = some aLoss ∧ losingEvents.running = true ∧
    losing.running = true ∧ (losing.port 0).losses.find? (fun x => x.1 == 2) = some (2, aLoss) ∧ gapWaits.running = true ∧
    gapWaits.gapPlaceTaken 1 = false ∧ gapWaits.gapWaits.any (fun w => w.ring == 1) = true := by decide +kernel

/-! ### Witnesses: the pair -/

/-- A member in a pair state with more of its Hinge given. -/
def member (role : Nat) (h : Hinge) : State := ({ up with hinge := h } : State).wr Reg.HG_CFG_ROLE role
def retraining : State := member 1 { state := .engaged, retrainAt := some 99000 }
theorem wit_HingeFollowsItsHeartbeats : primary.hingeOn = true ∧ primary.hinge.up = true ∧ primary.hinge.state = .engaged ∧
    (paired primary .engaging).hingeOn = true ∧ (paired primary .engaging).hinge.state = .engaging ∧ PairState.engaging ≠ .disengaged ∧
    retraining.running = true ∧ retraining.hinge.retrainAt = some 99000 ∧ retraining.hinge.state = .engaged ∧
    retraining.hingeOn = true ∧ retraining.hinge.up = false := by decide +kernel
/-- The word that asks for engagement; a primary whose peer may engage; a disengaged shadow. -/
def engageWord : Word := Reg.HG_CTL_ENGAGE.set 0 1
def mayEngage : State :=
  (member 1 { state := .disengaged, up := true, peer := { state := .disengaged, role := .shadow, epoch := true } }).wr
    Reg.TB_STAT_EPOCH_VALID 1
def hingeDownPrimary : State := member 1 { state := .disengaged }
def freeShadow : State := member 2 { state := .disengaged, up := true }
theorem wit_EngagementProceeds : mayEngage.takesWrite 0x181 engageWord = true ∧ hingeDownPrimary.takesWrite 0x181 engageWord = true ∧
    hingeDownPrimary.hinge.up = false ∧ mayEngage.hinge.up = true ∧ mayEngage.hinge.peer.state = .disengaged ∧
    mayEngage.hinge.peer.role = .shadow ∧ mayEngage.hinge.peer.epoch = true ∧ mayEngage.hinge.peer.busy = false ∧
    mayEngage.hinge.peer.tofs = 0 ∧ mayEngage.on Reg.TB_STAT_EPOCH_VALID = true ∧ freeShadow.hingeOn = true ∧
    freeShadow.hinge.up = true ∧ freeShadow.isShadow = true ∧ freeShadow.hinge.state = .disengaged ∧
    (paired primary .engaging).running = true ∧ (paired primary .engaging).hinge.state = .engaging ∧ primary.isPrimary = true ∧
    primary.hinge.state.paired = true ∧ mayEngage.hinge.state.paired = false ∧ shadow.isPrimary = false := by decide +kernel
/-- A mirrored write of one palette word waits for its acknowledgement. -/
def mirrorOne : MirrorWait := { addr := 0x301, inst := 0, data := [0x64000], status := Code.ok, single := true }
def awaiting : State := { primary with hinge := { primary.hinge with mirror := some mirrorOne } }
def afterAck : State :=
  (({ awaiting with hinge := { awaiting.hinge with mirror := none } } : State).applyWrite (writeWords mirrorOne.addr.toNat [0x64000]) []).countMirror
theorem wit_MirroredWritesAreAcknowledged : shadow.running = true ∧ shadow.hinge.state = .engaged ∧ shadow.hinge.up = true ∧
    shadow.hinge.mirror = none ∧ (shadow.forwardedSel (0x301 : BitVec 12).toNat 5).forwardedCode (0x301 : BitVec 12).toNat [0x64000] = none ∧
    (shadow.forwardedSel (0x301 : BitVec 12).toNat 5).forwardedCode (0x301 : BitVec 12).toNat [0xFFFFFFFF] = some Code.value ∧
    awaiting.isPrimary = true ∧ awaiting.hinge.up = true ∧ awaiting.chain.mode ≠ .broadcast ∧ awaiting.hinge.mirrorLate = none ∧
    awaiting.running = true ∧ awaiting.hinge.mirror = some mirrorOne ∧ mirrorOne.data = [0x64000] ∧ mirrorOne.single = true ∧
    afterAck.chain.assigned = true ∧ Code.value ≠ mirrorOne.status ∧ awaiting.hinge.state = .engaged := by decide +kernel
/-- A decision block being filled, and one that a shadow covers. -/
def entry : BlockEntry := { kind := 3, data := 0, flags := 0, stamps := [t0] }
def filling (n : Nat) : State := withPort primary { block := List.replicate n (99000, entry) }
def captured : Rec := { waiting with type := .capture }
/-- A shadow with one entry of its own; one whose block disagreed; a primary with a block that is not acknowledged. -/
def owns : State := withPort shadow { own := [.entry entry] }
def transfers : State := withPort shadow { own := [.entry entry], transfer := 1 }
def sentBlock : State := withPort { primary with staging := [{ waiting with marked := true }] } { sent := [[entry]], blockNo := 1 }
theorem wit_DecisionsCrossTheHinge : (filling 1).running = true ∧ (filling 1).mirrors = true ∧ ((filling 1).port 0).block ≠ [] ∧
    16 ≤ ((filling 17).port 0).block.length ∧ (filling 17).mirrors = true ∧ (up.port 0).block = [] ∧
    owns.follows = true ∧ (owns.port 0).transfer = 0 ∧ (owns.port 0).matched = [] ∧ (owns.port 0).own = .entry entry :: [] ∧
    (owns.rebuild 0 [[t0]] (blockCrc [entry.moved [t0]])).isSome = true ∧
    (owns.rebuild 0 [[t0]] (blockCrc [entry.moved [t0]] + 1)).isNone = true ∧ transfers.follows = true ∧
    (transfers.port 0).transfer ≠ 0 ∧ (transfers.port 0).later = [] ∧ captured.wantsFull = true ∧ waiting.wantsFull = false ∧
    sentBlock.running = true ∧ sentBlock.mirrors = true ∧ (sentBlock.port 0).sent = [entry] :: [] ∧
    sentBlock.staging.find? (fun r => r.uid == 2) = some { waiting with marked := true } ∧ primary.hingeOn = true ∧
    primary.hinge.up = true := by decide +kernel
/-- A shadow whose Fresco waits for the primary's values. -/
def awaitsFresco : State := { shadow with tb := { frWaits := true } }
theorem wit_TheShadowFollows : shadow.follows = true ∧ (shadow.port 0).rx ≠ .held ∧ shadow.gated = [] ∧
    awaitsFresco.engagedShadow = true ∧ awaitsFresco.tb.frWaits = true ∧ (paired shadow .degraded).hinge.state = .degraded ∧
    up.follows = false := by decide +kernel
/-- A member that may seek, with the first released sample at edge 99,000, at each stage of its claim. -/
def seeks (h : Hinge) : State := { up with hinge := h }
def first : Option (Nat × Stamp) := some (99000, 1584000)
def drives : State := seeks { claim := true, relo := true, drivers := 7, firstRel := first }
theorem wit_ClaimsAndTakeovers : (seeks {}).running = true ∧ (seeks {}).hinge.claim = false ∧ (seeks {}).hinge.firstRel = none ∧
    (seeks { firstRel := first }).hinge.firstRel = some (99000, 1584000) ∧ (seeks { firstRel := first }).pastV = true ∧
    (seeks { firstRel := first }).hinge.reli = true ∧ (seeks { firstRel := first }).hinge.relo = false ∧
    (seeks { firstRel := first }).hinge.blocked = false ∧ (seeks { firstRel := first }).eligible = true ∧
    (seeks { firstRel := first }).mayTake = false ∧ (seeks { firstRel := first, relo := true }).eligible = true ∧
    (seeks { firstRel := first, relo := true }).hinge.offAt = none ∧ drives.hinge.claim = true ∧
    drives.hinge.drivers = (7 : Fin 8).val ∧ drives.hinge.state ≠ .taken ∧ (seeks { firstRel := first, blocked := true }).hinge.blocked = true ∧
    (seeks { offAt := some 99990, relo := true }).hinge.offAt = some 99990 ∧ (seeks { offAt := some 99990 }).running = true := by decide +kernel
/-- A shadow that may take over, engaged, or degraded where TKDEG lets it. -/
def takes : State := member 2 { state := .engaged, up := true, firstRel := first }
def takesDegraded : State := (member 2 { state := .degraded, firstRel := first }).wr Reg.HG_CFG_TKDEG 1
theorem wit_ClaimsAndTakeovers_takeover : takes.hinge.firstRel = some (99000, 1584000) ∧ takes.pastV = true ∧ takes.hinge.reli = true ∧
    takes.hinge.relo = false ∧ takes.hinge.claim = false ∧ takes.hinge.blocked = false ∧ takes.mayTake = true ∧
    takesDegraded.pastV = true ∧ takesDegraded.mayTake = true ∧ takesDegraded.hinge.state = .degraded := by decide +kernel

/-! ### Witnesses: Carillon and the chain -/

/-- Source 256 and its target, target 0: enabled with a priority, in a state; and of pin or message type. -/
def source (x : Src) (kind : Nat) : State :=
  ((({ up with srcs := [(256, x)] } : State).wr Reg.CA_SCFG_EN 1 256).wr Reg.CA_SCFG_PRIO 3 256).wr Reg.CA_TCFG_KIND kind 0
/-- The input of station 0, on pin 3, has moved to high. -/
def moved : State :=
  ({ up with pins := [(3, { owner := .gpioIn, level := some true, history := [(90000, .high)] })] } : State).wr Reg.CA_SCFG_EN 1 1024
    |>.wr Reg.CA_SCFG_PRIO 3 1024
def setWord : Word := Reg.CA_SCTL_SETPEND.set 0 1
def clearWord : Word := Reg.CA_SCTL_CLRPEND.set 0 1
theorem wit_SourcesPendAndClear : (source { state := .hold, timer := some 90000 } 0).running = true ∧
    ((source { state := .hold, timer := some 90000 } 0).src 256).timer = some 90000 ∧
    ((source { state := .hold, timer := some 90000 } 0).src 256).state = .hold ∧ moved.running = true ∧
    (moved.pin (4 * 0 + 3)).owner = .gpioIn ∧ moved.pinRuns (4 * 0 + 3) = true ∧ (moved.pin (4 * 0 + 3)).level = some true ∧
    (moved.pin (4 * 0 + 3)).srcIn = !true ∧ moved.sense (1024 + 0) = 0 ∧ (true != moved.on Reg.CA_SCFG_INV (1024 + 0)) = true ∧
    moved.srcOn (1024 + 0) = true ∧ (moved.src (1024 + 0)).state = .idle ∧ up.running = true ∧ up.link.up = true ∧ srcPrivate 512 = true ∧
    srcValid (0 * 4096 + 512) = true ∧ up.srcTarget 512 = 0 ∧ (up.src 512).state = .idle ∧ srcValid 0 = false ∧ srcValid 1024 = true ∧
    up.takesWrite 0x204 setWord = true ∧ up.takesWrite 0x204 clearWord = true ∧ up.selAll 0x204 = false ∧
    (up.src (up.selOf 0x204)).input = false := by decide +kernel
/-- A stack that holds source 256. -/
def stacked : State := { source { state := .active } 0 with tgts := [(0, { stack := [⟨256, 3, none⟩] })] }
theorem wit_ClaimsActivateTheWinner : (source { state := .pend } 0).takesRead 0x228 = true ∧ (source { state := .pend } 0).selOf 0x228 = 0 ∧
    (source { state := .pend } 0).on Reg.CA_TCFG_KIND 0 = false ∧ (source { state := .pend } 0).winner 0 = some 256 ∧
    (source { state := .pend } 0).running = true ∧ (source { state := .pend } 0).link.up = true ∧ up.winner 0 = none ∧
    (stacked.tgt 0).stack.find? (fun e => e.source % 4096 == Reg.CA_EOI.get 256) = some ⟨256, 3, none⟩ ∧ stacked.running = true ∧
    (stacked.tgt 0).stack.find? (fun e => e.source % 4096 == Reg.CA_EOI.get 257) = none ∧
    stacked.takesWrite Reg.CA_EOI.word 256 = true ∧ stacked.selAll Reg.CA_EOI.word = false ∧ stacked.selOf Reg.CA_EOI.word = 0 ∧
    stacked.takesWrite Reg.CA_EOI.word 257 = true ∧
    (source { state := .pend } 1).on Reg.CA_TCFG_KIND 0 = true ∧ (source { state := .pend } 1).mayRequest = true ∧
    (source { state := .pend } 1).link.msix = true ∧ ((source { state := .pend } 1).wr Reg.CA_MSIX_CTL_VMASK 0 0).on Reg.CA_MSIX_CTL_VMASK 0 = false ∧
    ((source { state := .pend } 1).wr Reg.CA_MSIX_CTL_VMASK 0 0).winner 0 = some 256 := by decide +kernel
/-- The chain of a device in service, with parts of it changed. -/
def onChain (x : Chain) : State := { up with chain := { x with assigned := true } }
/-- The bits of a slot that holds a NOP with its CRC-8, and the same with one bit turned. -/
def nopBits : List Bool := List.replicate 56 false ++ msbBits 8 (crc8 (List.replicate 56 false)).toNat
def turned : List Bool := nopBits.set 40 true
def framed (l : List Bool) : State := onChain { inFrame := true, stage := l, edges := 64 }
def aResp : Resp := { tag := 1, status := 0, op := 0, data := 5, readyAt := 100020 }
theorem wit_FramesCarrySlots : (framed nopBits).clocked = true ∧ (framed nopBits).chain.inFrame = true ∧
    (onChain {}).chain.inFrame = false ∧ (onChain {}).clocked = true ∧
    (onChain {}).chain.lenNext = none ∧ (onChain {}).chain.assigned = true ∧ (onChain {}).chain.mode = .full ∧
    (onChain { resp := some { aResp with readyAt := 100000 } }).respReady = some { aResp with readyAt := 100000 } ∧
    (onChain { resp := some aResp, prev := some aResp }).respReady = none ∧
    (onChain { resp := some aResp, prev := some aResp }).chainPending = true ∧ (framed nopBits).chain.edges ≠ 0 ∧
    (framed nopBits).boot.stage ≠ .gesso ∧ (framed nopBits).chainPending = false ∧ (framed nopBits).chain.lengthBad = false ∧
    slotCrcOk (slotOf (framed nopBits).chain.slotBits).1 (slotOf (framed nopBits).chain.slotBits).2 = true ∧
    slotWellFormed (slotOf (framed nopBits).chain.slotBits).1 (slotOf (framed nopBits).chain.slotBits).2 = true ∧
    slotCrcOk (slotOf (framed turned).chain.slotBits).1 (slotOf (framed turned).chain.slotBits).2 = false ∧
    (onChain { inFrame := true, stage := nopBits, edges := 64, frmfull := 63 }).chain.lengthBad = true ∧
    (onChain { rstLow := some 99990 }).chain.rstLow = some 99990 ∧ (onChain {}).chain.rstLow = none := by decide +kernel
/-- The slot of the head given, with its CRC-8. -/
def slotBitsOf (h : BitVec 64) : List Bool :=
  msbBits 56 (h >>> 8).toNat ++ msbBits 8 (crc8 (msbBits 56 (h >>> 8).toNat)).toNat
/-- A frame with such a slot has come in whole. -/
def carries (h : BitVec 64) : Bool :=
  let s := framed (slotBitsOf h)
  let x := slotOf s.chain.slotBits
  s.chain.inFrame && s.chain.edges != 0 && s.chain.assigned && s.chain.mode == .full && s.boot.stage != .gesso && !s.chainPending &&
  !s.chain.lengthBad && slotCrcOk x.1 x.2 && slotWellFormed x.1 x.2 && x.1 &&& 0xFFFFFFFFFFFFFF00#64 == h && x.2.length == s.chain.len &&
  s.hinge.state != .engaged && s.chain.lenNext.isNone
theorem wit_FramesCarrySlots_rows : ([slotHead 1 0x081 0, slotHead 2 0x1C1 1, slotHead 3 0 255, slotHead 4 0 5, slotHead 5 0 0xC5] : List (BitVec 64)).all carries = true ∧
    (let x := slotOf (framed (slotBitsOf (slotHead 7 0 0))).chain.slotBits
     slotCrcOk x.1 x.2 = true ∧ slotWellFormed x.1 x.2 = false) := by decide +kernel
/-- A device without a place on the chain. -/
def unassigned : State := { up with chain := {} }
/-- CH_LEN_K is 2. -/
def bursts : State := { up with chain := { up.chain with len := 2 } }
theorem wit_SlotsAndChainResets : up.chainOn = true ∧ up.hinge.mirror = none ∧ up.chain.lenNext = none ∧
    up.takesRead (0x001 : BitVec 12).toNat = true ∧
    bursts.chainOn = true ∧ ([0, 0] : List Word).length = max 1 bursts.chain.len ∧
    bursts.checkWrite (0xFFF : BitVec 12).toNat [0, 0] (bursts.chain.len == 0 && [(0 : Word), 0].length == 1) = some (Code.range, 1) ∧
    ([1] : List Word).length = max 1 up.chain.len ∧ ([1] : List Word).length ≠ max 1 bursts.chain.len ∧
    up.checkWrite (0x1C1 : BitVec 12).toNat [1] (up.chain.len == 0 && [(1 : Word)].length == 1) = none ∧
    (writeWords (0x1C1 : BitVec 12).toNat [1]).all (fun x => !mirroredWrite x.1 x.2) = true ∧
    (up.applyWrite (writeWords (0x1C1 : BitVec 12).toNat [1]) []).chain.assigned = true ∧ (63 : Word).toNat < 64 ∧
    up.chain.mode = .full ∧ up.chain.ndev = 0 ∧ (64 : Word).toNat < 254 ∧ unassigned.clocked = true ∧ unassigned.boot.stage ≠ .gesso ∧
    unassigned.chain.assigned = false ∧ unassigned.chain.lenNext = none ∧ unassigned.chain.rstLow = none ∧ State.reset.chainOn = false ∧
    gesso.clocked = true := by decide +kernel

/-! ### Witnesses: stations and levels -/

/-- Pin 0 owned as GPIO output has switched at edge 99,999, or is owned by nobody; with its drivers enabled or not. -/
def switched (o : Owner) (d : Nat) : State := { up with hinge := { drivers := d }, pins := [(0, { owner := o, switchAt := some 99999 })] }
/-- Pin 1 drives low and samples high, or drives high and samples low. -/
def mismatch (b : Bool) : State :=
  withPin up { owner := .gpioOut, pad := .drive, driven := some b, sample := if b then .low else .high, drivenAt := 95000, history := [(99990, .high)] }
theorem wit_PinsSwitchAndSample : (switched .gpioOut 8).running = true ∧ ((switched .gpioOut 8).pin 0).switchAt = some 99999 ∧
    (switched .gpioOut 8).pinRuns 0 = true ∧ ((switched .gpioOut 8).advance (99999 + 4)).ownerLevel 0 = some false ∧
    (switched .gpioOut 8).driverOn 0 = true ∧ (switched .gpioOut 8).engagedShadow = false ∧
    (switched .gpioOut 0).driverOn 0 = false ∧ ((switched .monitor 8).advance (99999 + 4)).ownerLevel 0 = none ∧
    ((mismatch true).pin 1).pad = .drive ∧ ((mismatch true).drivenNow 1).1 = some true ∧ ((mismatch true).pin 1).sample = .low ∧
    ((mismatch true).pin 1).openDrain = false ∧ ((mismatch false).drivenNow 1).1 = some false ∧ ((mismatch false).pin 1).sample = .high ∧
    (withPin up { sample := .high, history := [(99990, .high)] }).pinRuns 1 = true ∧
    ((withPin up { sample := .high, history := [(99990, .high)] }).group (groupOfPin 1)).frozen = false ∧
    ((withPin up { sample := .high, history := [(99990, .high)] }).pin 1).gpin = !true := by decide +kernel
/-- Group 0 at a step of a span change that began at edge 90,000. -/
def spanAt (n : Nat) : State := { up with groups := [(0, { busyAt := some 90000, step := n, frozen := decide (n < 4) })], hinge := { drivers := 8 },
                                          pins := [(0, { owner := .gpioOut, pad := .keep })] }
theorem wit_SpanChangesRunInSteps : ([0, 1, 2, 3, 4] : List Nat).all (fun n => (spanAt n).running && ((spanAt n).group 0).busyAt == some 90000 &&
    ((spanAt n).group 0).step == n) = true ∧ groupOfPin 0 = 0 ∧ (spanAt 4).driverOn 0 = true ∧ (spanAt 4).engagedShadow = false := by decide +kernel

/-! ### Witnesses: line monitors -/

/-- The monitor of pin 5 is as given, with TIMEOUT among its conditions and stack 1 at work. -/
def monitored (m : Monitor) : State :=
  ((({ up with mons := [(5, m)] } : State).wr Reg.LM_COND_TO 1 5).wr Reg.GL_DIESTAT_HBM_OK 3).wr Reg.LM_SEG_COUNT 2 5
theorem wit_MonitorsArmAndTrigger : (monitored { state := .arming }).running = true ∧ ((monitored { state := .arming }).mon 5).state = .arming ∧
    (monitored { state := .arming }).pinRuns 5 = true ∧ (monitored { state := .arming }).power.mem1 = .run ∧
    ((monitored { state := .armed }).mon 5).state = .armed ∧ (monitored { state := .armed }).on Reg.LM_COND_TO 5 = true ∧
    ((monitored { state := .armed }).mon 5).trig = none ∧ (monitored { state := .armed }).engagedShadow = false ∧
    (monitored { state := .armed }).pinRuns 5 = true ∧ ((monitored { state := .rearm, rearmAt := 99800 }).mon 5).state = .rearm := by decide +kernel
/-- A trigger of pin 5, a monitor it is on its way in, a capture of it in progress, and its segment once complete. -/
def aTrigger : Trigger := ⟨5, 99990, 1599840, 1, 1, 0⟩
def triggered : Monitor := { state := .armed, trig := some aTrigger, gridAt := 90000 }
def segment : Segment := { trig := aTrigger, index := 0, rate := 0, preA := 0, post := 2, lmPre := 0, log2 := 8, grid := 99990, pseq := 1, first := t0 }
def capturing : State := { monitored { state := .capture } with segments := [segment] }
def complete : Segment := { segment with samples := some [2, 2], extent := some (0, 0) }
def uploads : State := { monitored { state := .rearm } with segments := [complete], rings := [(0, { state := .active })] }
/-- The next segment of the monitor is occupied. -/
def noSegment : State := { monitored triggered with segments := [segment] }
theorem wit_CapturesAreAdmittedAndUploaded : (monitored triggered).running = true ∧ ((monitored triggered).mon 5).trig = some aTrigger ∧
    (monitored triggered).admissionBlocked aTrigger = false ∧ ((monitored triggered).rd Reg.GL_DIESTAT_HBM_OK).testBit 1 = true ∧
    (monitored triggered).unitsUsed + unitsOf ((monitored triggered).rd Reg.LM_CAP_RATE 5) ≤ 64000 ∧ (monitored triggered).segments = [] ∧
    (((monitored triggered).wr Reg.GL_DIESTAT_HBM_OK 1).rd Reg.GL_DIESTAT_HBM_OK).testBit 1 = false ∧
    noSegment.admissionBlocked aTrigger = false ∧ segment.trig.pin = 5 ∧ segment.index = (noSegment.mon 5).next ∧
    capturing.running = true ∧ capturing.segments.find? (fun g => g.trig.pin == 5 && g.samples.isNone) = some segment ∧
    (capturing.mon 5).state = .capture ∧ uploads.nextUpload = some complete ∧ complete.trig.pin = 5 ∧ uploads.mayRequest = true ∧
    uploads.engagedShadow = false ∧ uploads.running = true ∧ capturing.power.mem1 = .run ∧
    (uploads.ring (uploads.rd Reg.LM_UPCFG_RING)).state = .active ∧ (uploads.ring (uploads.rd Reg.LM_UPCFG_RING)).mute = false := by
  decide +kernel

/-! ### Witnesses: contact units, auxiliary masters, the flash -/

/-- Contact unit 0 is as given, enabled, attached to pin 0. -/
def unit (x : Cu) : State :=
  (({ up with cus := [(0, x)], hinge := { drivers := 8 } } : State).wr Reg.CU_CFG_EN 1 0).wr Reg.CU_ATTACH_EN 1 0
def detached (x : Cu) : State := { (unit x).wr Reg.CU_ATTACH_EN 0 0 with hinge := {} }
theorem wit_ContactUnitsSwitchAndFault : (unit {}).running = true ∧ ((unit { state := .closing, swAt := 99900 }).cu 0).state = .closing ∧
    ((unit { opening := true, swAt := 99900 }).cu 0).opening = true ∧
    ([0, 1, 2, 3] : List Nat).all (fun n => ((unit { rangeAt := some 90000, rangeStep := n }).cu 0).rangeAt == some 90000 &&
      ((unit { rangeAt := some 90000, rangeStep := n }).cu 0).rangeStep == n) = true ∧
    ((unit { rangeAt := some 90000, rangeStep := 3, state := .ranging }).cu 0).state ≠ .fault ∧
    (unit {}).on Reg.CU_ATTACH_EN 0 = true ∧ (unit {}).cuClaimHeld 0 = true ∧ ({ unit {} with hinge := {} } : State).cuClaimHeld 0 = false ∧
    ({ unit {} with hinge := {} } : State).on Reg.CU_ATTACH_EN 0 = true ∧ (detached {}).on Reg.CU_ATTACH_EN 0 = false ∧
    ((unit { state := .closed, closed := true }).cu 0).closed = true ∧ (unit {}).rd Reg.CU_CLAMP_TIME 0 ≠ 0 ∧
    125 < (126 : BitVec 8).toNat ∧ (125 : BitVec 8).toNat ≤ 125 := by decide +kernel
theorem wit_ContactUnitsForceAndMeasure : (unit { src := 1, state := .closed }).cuRuns 0 = true ∧
    ((unit { src := 1, state := .closed }).cu 0).src = 1 ∧ (unit { src := 2, state := .closed }).cuRuns 0 = true ∧
    ((unit { src := 2, state := .closed }).cu 0).src = 2 ∧ ((unit { mrun := true, mAt := 90000 }).cu 0).mrun = true ∧
    (List.replicate (2 ^ (unit {}).rd Reg.CU_MCFG_LOG2N 0) (0x20000#18)).length = 2 ^ (unit {}).rd Reg.CU_MCFG_LOG2N 0 ∧
    (unit {}).rd Reg.CU_CFG_SRC 0 = 0 ∧ (unit {}).running = true := by decide +kernel
/-- Auxiliary master 1 is as given. -/
def master (x : Aux) : State := { up with auxs := [(1, x)] }
def moving : State := master { state := .busy, startAt := 99000 }
/-- The word that aborts. -/
def abortWord : Word := Reg.AX_CTL_ABORT.set 0 1
def aborting : State := moving.setReg 0 0x880 1
theorem wit_AuxiliaryTransfersEnd : moving.running = true ∧ (moving.aux 1).state = .busy ∧ (moving.aux 1).startWaits = false ∧
    (moving.aux 1).releaseAt = none ∧ moving.on Reg.AX_XFER_KEEP 1 = false ∧ (moving.wr Reg.AX_XFER_KEEP 1 1).on Reg.AX_XFER_KEEP 1 = true ∧
    ((master { state := .busy, releaseAt := some 99990 }).aux 1).releaseAt = some 99990 ∧ ((master { state := .held }).aux 1).state = .held ∧
    Reg.AX_CTL_ABORT.get abortWord = 1 ∧ Reg.AX_CTL_START.get abortWord = 0 ∧ aborting.takesWrite 0x884 abortWord = true ∧
    aborting.selAll 0x884 = false ∧ aborting.selOf 0x884 = 1 ∧ (aborting.aux 1).state = .busy ∧ (aborting.aux 1).releaseAt = none ∧
    (aborting.aux 1).startWaits = false := by decide +kernel
/-- The flash reader discovers, loads a block, or holds its select. -/
def flashing (x : Flash) : State := { up with flash := x }
theorem wit_TheFlashReaderLoadsBlocks : (flashing { discovering := true }).running = true ∧ (flashing { discovering := true }).flash.discovering = true ∧
    (({ flashing { discovering := true } with auxs := [(0, { state := .boot })] } : State).aux 0).state = .boot ∧
    ((flashing {}).aux 0).state ≠ .boot ∧ (flashing { busy := true }).flash.busy = true ∧ (List.replicate 64 (7 : Word)).length = 64 ∧
    ((flashing { busy := true }).aux 0).startWaits = false ∧ (flashing {}).on Reg.AX_FLCFG_CONT = false ∧
    (((flashing {}).wr Reg.AX_FLCFG_CONT 1).wr Reg.AX_FLCFG_EN 1).on Reg.AX_FLCFG_CONT = true ∧
    (((flashing {}).wr Reg.AX_FLCFG_CONT 1).wr Reg.AX_FLCFG_EN 1).on Reg.AX_FLCFG_EN = true ∧ (2 : BitVec 8) ≠ 1 ∧ (flashing { hold := true }).flash.hold = true := by decide +kernel

/-! ### Witnesses: boot and power -/

/-- The first 32 bytes of an image without a body, and the image: fast or not, with its digest or without. -/
def imageHead (flags : Nat) : List Byte :=
  leBytes 4 0x4C544149 ++ leBytes 2 1 ++ [BitVec.ofNat 8 flags, 0] ++ leBytes 4 256 ++ leBytes 2 (if flags.testBit 1 then 16 else 0) ++
    leBytes 2 0 ++ leBytes 4 0 ++ leBytes 4 0xD3E04001 ++ leBytes 8 77
def anImage (flags : Nat) : List Byte := imageHead flags ++ sha256 (imageHead flags) ++ List.replicate 192 0
/-- The load, with more of it given. -/
def loading (b : Boot) : State := { up with boot := { b with stage := .load }, chain := {}, hinge := {}, link := {} }
/-- A signed image, no digest asked for. -/
def badRecords : List Byte := (imageHead 0).set 16 1 ++ List.replicate 224 0
theorem wit_TheLoadChecksAndApplies : (loading {}).running = true ∧ (loading {}).boot.stage = .load ∧ (loading {}).flash.discovering = false ∧
    (loading {}).boot.header = none ∧ (loading {}).headerFault (padTo 256 []) = some (1, 0) ∧
    (loading {}).headerFault (padTo 256 (imageHead 8)) = some (3, 6) ∧
    imgFast (anImage 2) = true ∧ imgHold (anImage 4) = true ∧ imgHold (anImage 0) = false ∧
    (loading { header := some (anImage 0) }).boot.image = none ∧
    anImage 0 = anImage 0 ++ (padTo (imgLength (anImage 0)) (anImage 0)).drop 256 ∧
    sha256 (imgMessage (anImage 0)) = slice (anImage 0) 32 32 ∧ sha256 (imgMessage badRecords) ≠ slice badRecords 32 32 ∧
    (loading { header := some (anImage 2), fast := true }).boot.fast = true ∧
    (loading { image := some (anImage 1) }).boot.sigOk = false ∧
    (loading { image := some (anImage 0), digestOk := true, sigOk := true }).boot.digestOk = true ∧
    (match (loading {}).bodyOf badRecords with | .error a => a == 16 | .ok _ => false) = true ∧
    (match (loading {}).bodyOf (anImage 0) with | .error _ => false | .ok l => l == []) = true := by decide +kernel
/-- The first header passes on a device whose fuses ask for no signature; that is no choice of the model's. -/
theorem wit_TheLoadChecksAndApplies_header (h : Config.reqSig = false) : (loading {}).headerFault (padTo 256 (anImage 0)) = none := by
  have h1 : imgField (padTo 256 (anImage 0)) 0 4 = 0x4C544149 := by decide +kernel
  have h2 : (loading {}).formatFault (padTo 256 (anImage 0)) = none := by decide +kernel
  have h3 : imgField (padTo 256 (anImage 0)) 20 4 = 0xD3E04001 := by decide +kernel
  have h4 : imgSigned (padTo 256 (anImage 0)) = false := by decide +kernel
  have h5 : (loading {}).boot.failed.contains .keys = false := by decide +kernel
  simp only [State.headerFault, State.keyOk, h1, h2, h3, h4, h5, h]
  rfl
def openingUp : State := { up with boot := { up.boot with stage := .vern, octTaken := 0 } }
def takingPins (n : Nat) : State := { up with boot := { up.boot with octTaken := n } }
def digesting (s : State) (source : Nat) : State := { s with boot := { s.boot with digest := some (source, []) } }
theorem wit_VernissageOpensTheOctants : openingUp.running = true ∧ openingUp.boot.vAt = some 0 ∧ openingUp.boot.stage = .vern ∧
    (takingPins 0).boot.stage = .ready ∧ (takingPins 0).boot.octTaken = (0 : Fin 8).val ∧ (takingPins 7).boot.octTaken = (7 : Fin 8).val ∧
    (digesting up 1).boot.digest = some (1, []) ∧ (digesting shadow 3).boot.digest = some (3, []) ∧ (digesting shadow 3).engagedShadow = true ∧
    (digesting up 1).engagedShadow = false ∧ (digesting up 1).alSuspended = false ∧ (digesting up 1).almanac.halt = false ∧
    (digesting up 1).almanac.queue.length < alQueueSize := by decide +kernel
/-- Octant 0 is as given. -/
def octant (x : Octant) : State := { up with octs := [(0, x)] }
theorem wit_OctantsSleepAndWake : ((octant {}).oct 0).state = .run ∧ (octant {}).octMay 0 1 = true ∧
    ((octant { state := .idle }).oct 0).state = .idle ∧ (octant { state := .idle }).octMay 0 2 = true ∧
    ((octant { state := .nap }).oct 0).state = .nap ∧ (octant { state := .nap }).octMay 0 3 = true ∧
    (octant { state := .idle, entering := some .nap }).running = true ∧ ((octant { state := .idle, entering := some .nap }).oct 0).entering = some .nap ∧
    ((octant { state := .dark, wakeAt := some (99990, 2) }).oct 0).wakeAt = some (99990, 2) ∧
    ((octant { state := .dark, wakeAt := some (99990, 2) }).oct 0).entering = none ∧
    ((octant { state := .dark, wakeAt := some (99990, 2) }).oct 0).state ≠ .run ∧
    ((octant { state := .dark, wakeAt := some (99990, 2) }).oct 0).failed = false ∧
    ((octant { state := .idle, leftAt := 99990, wakeAt := some (99990, 2) }).oct 0).leftAt = 99990 := by decide +kernel
/-- The domains are as given. -/
def domains (p : Power) : State := { up with power := p }
theorem wit_DomainsSleepAndWake : up.pastV = true ∧ State.reset.pastV = false ∧ up.power.core = .run ∧ up.coreBusy = false ∧
    ({ up with link := { up.link with d3hot := true } } : State).link.d3hot = true ∧ up.power.host ≠ .dark ∧ up.rd Reg.HG_CFG_ROLE = 0 ∧
    primary.rd Reg.HG_CFG_ROLE ≠ 0 ∧ memMay up.power.mem0 .dark (up.rd Reg.PW_MEMCFG_MAXST0) up.reserveHolds up.mem0Wanted = true ∧
    memMay up.power.mem1 .nap (up.rd Reg.PW_MEMCFG_MAXST1) (!up.segments.isEmpty) up.mem1Wanted = true ∧ up.running = true ∧
    (domains { core := .idle }).power.core ≠ .run ∧ (domains { host := .nap }).power.host = .nap ∧ up.link.d3hot = false ∧
    ({ primary with power := { hinge := .dark } } : State).power.hinge = .dark ∧ (domains { mem0 := .nap }).power.mem0 ≠ .run ∧
    (domains { mem1 := .dark }).power.mem1 ≠ .run := by decide +kernel
theorem wit_HeatWarnsAndTrips : up.running = true ∧ up.clocked = true ∧ up.regsWf = true ∧ State.reset.clocked = false ∧
    up.rd Reg.GL_THERMCFG_WARN ≤ max (200 : BitVec 8).toNat (max (20 : BitVec 8).toNat (20 : BitVec 8).toNat) ∧
    max (20 : BitVec 8).toNat (max (20 : BitVec 8).toNat (20 : BitVec 8).toNat) < up.coolLimit ∧ up.coolLimit ≤ up.rd Reg.GL_THERMCFG_WARN ∧
    ({ up with boot := { hot := true } } : State).boot.hot = true := by decide +kernel
/-- The Almanac of a device in service is as given. -/
def chronicle (x : Almanac) : State := { up with almanac := x }
def checkpoint : AlEntry := { index := 4, stamp := t0, kind := 7, nrec := 4, port := 0, bytes := List.replicate 160 0 }
theorem wit_TheAlmanacCutsAndRecovers : (chronicle {}).running = true ∧ (chronicle { halt := true }).almanac.halt = true ∧
    1024 ≤ alQueueSize - (chronicle { halt := true }).almanac.queue.length ∧ (chronicle { halt := true }).alSuspended = false ∧
    (chronicle {}).almanac.halt = false ∧ (chronicle {}).alSuspended = false ∧ (chronicle {}).ports = [] ∧
    (chronicle {}).ports.length ≤ 1024 ∧ (chronicle {}).almanac.full = false ∧ (chronicle { halt := true }).almanac.full = true ∧
    (chronicle {}).almanac.queue.length < alQueueSize ∧ (chronicle { cutAsked := true }).almanac.cutAsked = true ∧
    (chronicle { saved := some { index := 1, hash := [], cpcount := 0, cpFrom := 0, cutAt := 0, queue := [] } }).alSuspended = true ∧
    (chronicle { index := 5, queue := [checkpoint] }).almanac.queue.find? (fun e => e.kind == 7 && !e.signed) = some checkpoint ∧
    (chronicle { lapseDue := some (3, 1, t0, t0, 0) }).almanac.lapseDue = some (3, 1, t0, t0, 0) := by decide +kernel
theorem wit_TheTimeReadsConsistently : up.takesRead 0x081 = true ∧ up.takesRead 0x082 = true ∧ bursts.chainOn = true ∧
    bursts.hinge.mirror = none ∧ bursts.chain.len = 2 ∧
    bursts.chain.lenNext = none ∧ bursts.chain.mode ≠ .broadcast ∧ bursts.burstRefusal 0x081 2 = Code.ok ∧
    (List.range 2).all (fun k => !bursts.selAll (0x081 + k)) = true ∧ bursts.burstRefusal 0x081 15 = Code.ok ∧
    (List.range 15).all (fun k => !bursts.selAll (0x081 + k)) = true := by decide +kernel

/-! ### Witnesses: what accepted writes store and do -/

/-- A port whose receiver and transmitter are on, and one whose transmitter sends a character. -/
def bothOn : State := ((up.wr Reg.PT_RXCFG_EN 1).wr Reg.PT_TXCFG_EN 1)
/-- The word of PT_RXCFG that enables a receiver. -/
def rxOnWord : Word := Reg.PT_RXCFG_EN.set 0 1
theorem wit_AcceptedWriteStoresItsFields : singleWrite (.rxEnable rxOnWord) = some (0x401, rxOnWord) ∧ up.takesOne (0x401 : BitVec 12).toNat rxOnWord = true ∧
    Reg.PT_RXCFG_EN ∈ wordFields 0x401 ∧ Reg.PT_RXCFG_EN.acc = .rw := by decide +kernel
/-- The word of RG_CFG that enables a completion ring of 64 records. -/
def ringWord : Word := Reg.RG_CFG_EN.set (resetWord 0x501) 1
def ringOf (x : RingState) : State := ({ up with rings := [(0, { state := x })] } : State)
theorem wit_PortRingAndPairWritesAct :
    (up.takesOne 0x401 rxOnWord = true ∧ Reg.PT_RXCFG_EN.get rxOnWord = 1 ∧ up.on Reg.PT_RXCFG_EN 0 = false) ∧
    (bothOn.takesOne 0x401 0 = true ∧ bothOn.on Reg.PT_RXCFG_EN 0 = true) ∧
    (up.takesOne 0x414 (Reg.PT_TXCFG_EN.set 0 1) = true ∧ up.on Reg.PT_TXCFG_EN 0 = false) ∧
    (bothOn.takesOne 0x414 0 = true ∧ bothOn.on Reg.PT_TXCFG_EN 0 = true ∧ (bothOn.port 0).line = none) ∧
    ((withPort bothOn ending).takesOne 0x414 0 = true ∧ ((withPort bothOn ending).port 0).line.isSome = true) ∧
    ((withPort up { tx := .idle }).takesOne 0x415 3 = true ∧ Reg.PT_TXCTL_FLUSH.get 3 = 1 ∧ Reg.PT_TXCTL_RESUME.get 3 = 1) ∧
    (up.takesOne 0x501 ringWord = true ∧ Reg.RG_CFG_EN.get ringWord = 1) ∧
    ((ringOf .active).takesOne 0x501 (resetWord 0x501) = true ∧ Reg.RG_CFG_EN.get (resetWord 0x501) = 0) ∧
    (up.takesOne 0x180 (Reg.HG_CFG_ROLE.set (resetWord 0x180) 1) = true ∧ up.rd Reg.HG_CFG_ROLE = 0) ∧
    (primary.takesOne 0x181 2 = true ∧ primary.hinge.state = .engaged) := by decide +kernel
theorem wit_PortRingAndPairWritesAct_pair :
    ((paired primary .released).takesOne 0x181 2 = true ∧ Reg.HG_CTL_DISENGAGE.get 2 = 1 ∧ Reg.HG_CTL_RELEASE.get 2 = 0) ∧
    ((paired primary .degraded).takesOne 0x181 4 = true ∧ Reg.HG_CTL_RELEASE.get 4 = 1 ∧ Reg.HG_CTL_ENGAGE.get 4 = 0) ∧
    ((up.setReg 0 0x200 1500).takesOne 0x201 0 = true ∧ Reg.CA_SCFG_EN.get 0 = 0) := by decide +kernel
/-- A transmitter's pin in flight, a held pin, and a driven GPIO output. -/
def busyPin : State := { withPort bothOn ending with pins := [(0, { owner := .tx, pad := .drive, driven := some true })] }
def heldPin : State := { up with pins := [(1, { pad := .hold, driven := some true })] }
def gpioPin : State := { up.wr Reg.ST_GPCFG_MODE 2 0 with pins := [(0, { owner := .gpioOut, pad := .drive, driven := some false })] }
/-- A monitor that may be armed, with room for its segments. -/
def armable : State := (((up.wr Reg.LM_UPCFG_EN 1).wr Reg.LM_ALLOC_SIZE 64 0).wr Reg.LM_SEG_LOG2 6 0).wr Reg.LM_SEG_COUNT 1 0
def monIn (x : MonState) : State := { armable with mons := [(0, { state := x })] }
theorem wit_StationMonitorAndUnitWritesAct_station :
    (busyPin.takesOne 0x601 1 = true ∧ busyPin.inFlight 0 = true ∧ Reg.ST_PINCFG_ABRUPT.get 1 = 0) ∧
    (up.takesOne 0x601 1 = true ∧ up.pinRuns 0 = true ∧ up.inFlight 0 = false) ∧
    (heldPin.takesOne 0x60C 2 = true ∧ (heldPin.pin 1).pad = .hold) ∧
    (gpioPin.takesOne 0x605 (Reg.ST_GPCFG_OUT.set 2 1) = true ∧ ∃ t, exec (.gpioOutWrite (Reg.ST_GPCFG_OUT.set 2 1)) gpioPin = .next t ∧
      (t.pin 0).owner = .gpioOut ∧ (t.pin 0).pad = .drive) ∧
    (up.takesOne 0x613 0x2100 = true ∧ (up.oct 0).state = .run) ∧
    (up.takesOne 0x610 2 = true ∧ Reg.ST_LGCFG_SPAN.get 2 ≠ up.rd Reg.ST_LGCFG_SPAN 0) := by
  refine ⟨?_, ?_, ?_, ⟨?_, _, rfl, ?_⟩, ?_, ?_⟩ <;> decide +kernel
theorem wit_StationMonitorAndUnitWritesAct_monitor :
    (armable.takesOne 0x70C 1 = true ∧ Reg.LM_CTL_ARM.get 1 = 1 ∧ Reg.LM_CTL_DISARM.get 1 = 0 ∧ Reg.LM_CTL_FORCE.get 1 = 0) ∧
    ((monIn .capture).takesOne 0x70C 2 = true ∧ (monIn .armed).takesOne 0x70C 2 = true ∧ Reg.LM_CTL_DISARM.get 2 = 1) ∧
    ((monIn .armed).takesOne 0x70C 4 = true ∧ Reg.LM_CTL_FORCE.get 4 = 1 ∧ Reg.LM_CTL_ARM.get 4 = 0) := by decide +kernel
/-- A contact unit that is enabled and detached, or attached and closed. -/
def unitOn : State := { (up.wr Reg.CU_CFG_EN 1 0) with cus := [(0, { state := .open_ })] }
def unitOff : State := up
theorem wit_StationMonitorAndUnitWritesAct_unit :
    (unitOn.takesOne 0x802 (Reg.CU_ATTACH_EN.set 0 1) = true) ∧
    ((unit { state := .closed, closed := true }).takesOne 0x802 0 = true ∧
      (unit { state := .closed, closed := true }).on Reg.CU_ATTACH_EN 0 = true ∧ Reg.CU_ATTACH_EN.get 0 = 0) ∧
    (unitOn.takesOne 0x803 0x100 = true ∧ (unitOn.cu 0).src = 0) ∧
    (unitOff.takesOne 0x801 (Reg.CU_CFG_RANGE.set 0 1) = true ∧
      Reg.CU_CFG_RANGE.get (Reg.CU_CFG_RANGE.set 0 1) ≠ unitOff.rd Reg.CU_CFG_RANGE 0) ∧
    (unitOff.takesOne 0x809 (accessMask [.w1c] 0x809) = true ∧ (wordFields 0x809).any (fun f => f.acc == .w1c) = true) ∧
    (unitOff.takesOne 0x810 7 = true ∧ (unitOff.wr Reg.CU_WADDR 16383 0).takesOne 0x810 7 = true) ∧
    (unitOn.takesOne 0x808 1 = true ∧ unitOn.takesOne 0x808 2 = true) := by decide +kernel
/-- Master 0 ready to start, with a block load under way or not. -/
def startable (b : Bool) : State :=
  ({ up with auxs := [(0, { state := .idle })], flash := { busy := b } } : State).wr Reg.AX_XFER_LEN 4 0
def staged (x : Stage) : State := { up with boot := { up.boot with stage := x } }
/-- The confirmed word of PW_RSTCTL with one bit. -/
def resetAsk (k : Nat) : Word := Reg.PW_RSTCTL_CONFIRM.set (1#32 <<< k) 0x0A5F
theorem wit_MasterBootAndResetWritesAct_master :
    ((startable false).takesOne 0x884 (Reg.AX_CTL_START.set 0 1) = true ∧ (startable true).takesOne 0x884 (Reg.AX_CTL_START.set 0 1) = true ∧
      Reg.AX_CTL_START.get (Reg.AX_CTL_START.set 0 1) = 1 ∧ Reg.AX_CTL_ABORT.get (Reg.AX_CTL_START.set 0 1) = 0 ∧
      ((startable true).aux 0).state = .idle) ∧
    (up.takesOne 0x8A2 1 = true ∧ up.takesOne 0x8A2 2 = true) ∧
    ((up.wr Reg.AX_FLCFG_EN 1).takesOne 0x8A1 0x400 = true ∧ (up.wr Reg.AX_FLCFG_EN 1).on Reg.AX_FLCFG_EN = true ∧
      up.takesOne 0x8A1 0x400 = true ∧ up.on Reg.AX_FLCFG_EN = false) := by decide +kernel
theorem wit_MasterBootAndResetWritesAct_boot :
    ((staged .load).takesOne 0x011 4 = true ∧ Reg.GL_BOOTCTL_SKIP.get 4 = 1) ∧
    ((staged .wait).takesOne 0x011 2 = true ∧ Reg.GL_BOOTCTL_RELOAD.get 2 = 1 ∧ Reg.GL_BOOTCTL_SKIP.get 2 = 0) ∧
    ((staged .wait).takesOne 0x011 1 = true ∧ (staged .loaded).takesOne 0x011 1 = true ∧ Reg.GL_BOOTCTL_VERNISSAGE.get 1 = 1) ∧
    (({ up with power := { mem0 := .nap } } : State).takesOne 0x101 (Reg.PW_MEMCFG_SRT.set 0 10) = true) ∧
    (up.takesOne 0x10F (resetWord 0x10F) = true) ∧ (up.takesOne 0x1C1 1 = true) := by decide +kernel
theorem wit_MasterBootAndResetWritesAct_resets : (up.isPrimary && up.hinge.state.paired) = false ∧ up.regsWf = true ∧
    up.engagedShadow = false ∧ [0, 8, 9, 10, 11, 12, 15].all (fun k => up.takesOne 0x120 (resetAsk k)) = true ∧
    Reg.PW_RSTCTL_SOFT.get (resetAsk 15) = 1 ∧
    [0, 8, 9, 10, 11, 12].all (fun k => (resetAsk k).toNat % 65536 == 2 ^ k) = true := by decide +kernel


/-! ### WellFormed: an ill-formed command for each check, and a well-formed one beside it -/

theorem test_wf_fuseReadDone : (Instr.fuseReadDone 1000 25 []).wf = false ∧ (Instr.fuseReadDone 1000 24 []).wf = true := by decide
theorem test_wf_hostWriteDiscard : (Instr.hostWriteDiscard true ⟨262144, true⟩).wf = false ∧
    (Instr.hostWriteDiscard false ⟨1048576, false⟩).wf = false ∧ (Instr.hostWriteDiscard false ⟨262144, true⟩).wf = true := by decide
theorem test_wf_hostReadUnimpl : (Instr.hostReadUnimpl true 262143 2).wf = false ∧ (Instr.hostReadUnimpl true 0 0).wf = false ∧
    (Instr.hostReadUnimpl true 262143 1).wf = true := by decide
theorem test_wf_statusMirrorRead : (Instr.statusMirrorRead 65532 8).wf = false ∧ (Instr.statusMirrorRead 65532 4).wf = true := by decide
theorem test_wf_calMeasureDone : (Instr.calMeasureDone [.lower 5, .upper 5]).wf = false ∧
    (Instr.calMeasureDone [.upper 5, .driver 5, .syncIn]).wf = true := by decide
theorem test_wf_pinTransition : (Instr.pinTransition 3 true false 100 99).wf = false ∧
    (Instr.pinTransition 3 true false 100 104).wf = true := by decide
theorem test_wf_descriptorFetch : (Instr.descriptorFetch 0 [1]).wf = false ∧
    (Instr.descriptorFetch 0 (List.replicate 64 0)).wf = true := by decide
theorem test_wf_txDataFetched : (Instr.txDataFetched 0 []).wf = false ∧ (Instr.txDataFetched 0 [1]).wf = true := by decide
theorem test_wf_decisionBlockRecv : (Instr.decisionBlockRecv 0 (List.replicate 17 [t0]) 0).wf = false ∧
    (Instr.decisionBlockRecv 0 [[t0]] 0).wf = true := by decide
theorem test_wf_chainRead : (Instr.chainRead 0 0).wf = false ∧ (Instr.chainRead 0 128).wf = false ∧ (Instr.chainRead 0 127).wf = true := by decide
theorem test_wf_chainWrite : (Instr.chainWrite 0 []).wf = false ∧ (Instr.chainWrite 0 [1]).wf = true := by decide
theorem test_wf_samplerResume : (Instr.samplerResume 0 [(64, .low)]).wf = false ∧ (Instr.samplerResume 0 [(3, .low), (1, .low)]).wf = false ∧
    (Instr.samplerResume 1 [(64, .low)]).wf = true := by decide
theorem test_wf_cuMeasDone : (Instr.cuMeasDone 0 (List.replicate 1048577 0)).wf = false ∧ (Instr.cuMeasDone 0 [1]).wf = true :=
  ⟨by simp only [Instr.wf, List.length_replicate]; decide, by decide⟩
theorem test_wf_axTransferDone : (Instr.axTransferDone 0 (List.replicate 4097 true)).wf = false ∧
    (Instr.axTransferDone 0 [true]).wf = true := by decide +kernel
theorem test_wf_axAbort : (Instr.axAbort 1 (List.replicate 4097 true)).wf = false ∧ (Instr.axAbort 1 []).wf = true := by decide +kernel
theorem test_wf_flashBlockLoaded : (Instr.flashBlockLoaded []).wf = false ∧ (Instr.flashBlockLoaded (List.replicate 64 0)).wf = true := by decide
theorem test_wf_imageHeaderCheck : (Instr.imageHeaderCheck []).wf = false ∧
    (Instr.imageHeaderCheck (List.replicate 256 0)).wf = true := by decide +kernel

/-! ### The spec's own worked examples -/

/-- A field of the state a command answers. -/
def after (i : Instr) (s : State) (f : State → α) : Option α := match exec i s with | .next t => some (f t) | _ => none

/-- 00_scope.md, "locating station 777": octant 6, level group 48, ports 1554 and 1555, pins 3108 to 3111. -/
theorem test_station_777 : octOfPin 3108 = 6 ∧ groupOfPin 3108 = 48 ∧ txPin 1554 = 3108 ∧ rxPin 1554 = 3109 ∧ txPin 1555 = 3110 ∧
    rxPin 1555 = 3111 ∧ octOfPort 1555 = 6 := by decide
/-- 10_tureus_chain.md, "a Directed read of GL_ID": the slot of the READ, the NOP, and the response. -/
theorem test_read_slot_crc : crc8 (msbBits 56 0x10000000000000) = 0x97 ∧ crc8 (msbBits 56 0) = 0x44 := by decide +kernel
theorem test_read_response : ({ tag := 0, status := 0, op := 1, data := 0xD3E04001, readyAt := 0 } : Resp).bits false 0 =
    msbBits 64 0xF0001D3E04001089 := by decide +kernel
theorem test_read_glId : after (.chainRead 0 1) up (fun t => t.chain.resp.map (·.data)) = some (some 0xD3E04001) := by decide +kernel
/-- 11_stations_levels.md, "moving level group 48 to 3.3 V logic": one burst of five words, its response within 68 DCLK. -/
def group48 : State := { up.setReg 0 0x600 777 with chain := { up.chain with len := 5 }, now := 100000 }
def burst48 : Instr := .chainWrite 0x610 [2, 0x34CC, 0, 0x2000, 0x0CCD]
theorem test_span_burst : after burst48 group48 (fun t =>
    t.chain.resp.any (fun r => r.status == 0 && decide (r.readyAt ≤ 100068)) && t.rd Reg.ST_LGCFG_SPAN 48 == 2 &&
      t.rd Reg.ST_LGVOH 48 == 0x34CC && t.rd Reg.ST_LGVTHH 48 == 0x2000 && t.rd Reg.ST_LGVTHL 48 == 0x0CCD &&
      (t.group 48).busyAt == some 100000) = some true := by decide +kernel
/-- 12_line_monitor.md, "a runt on station 777": a rise at sampler tick 3,205 with an input path of 97 ticks is stamped 3,108. -/
def pin3111 : State :=
  { up with pins := [(3111, { level := some false, sample := .low })], regs := [(4096 * 3111 + Reg.TB_PINPATH_IN_PATH.word, 97)] }
theorem test_runt_stamp : after (.pinTransition 3111 true false 3205 3290) pin3111
    (fun t => ((t.pin 3111).recorder.getLast?).map (fun e => (e.s1, e.s2))) = some (some (3108, 3193)) := by decide +kernel
/-- 13_contact_units.md, "contact check": 1,024 codes of mean 88,343, 512 µs after the start. -/
def contact : State := ({ up with cus := [(12, { mrun := true, mAt := 100000, state := .closed, closed := true })] } : State).wr Reg.CU_MCFG_LOG2N 10 12
theorem test_contact_measurement : after (.cuMeasDone 12 (List.replicate 512 88342 ++ List.replicate 512 88344)) contact
    (fun t => (t.rd Reg.CU_MRES 12, t.now - 100000)) = some (0x15917, 512 * 1600) := by decide +kernel
/-- 14_aux_masters.md, "a 10,240-bit relay string": 4,096 bits end 131,104 DCLK after the start, HELD; with no lead, 131,072. -/
def string3 (lead : Nat) : State :=
  ((({ up with auxs := [(3, { state := .busy, startAt := 100000, lead := lead })] } : State).wr Reg.AX_CFG_HALF 16 3).wr
    Reg.AX_XFER_LEN 4096 3).wr Reg.AX_XFER_KEEP 1 3
theorem test_relay_string : after (.axTransferDone 3 []) (string3 32) (fun t => (t.now - 100000, (t.aux 3).state)) = some (131104, .held) ∧
    after (.axTransferDone 3 []) (string3 0) (fun t => t.now - 100000) = some 131072 := by decide +kernel
/-- 09_carillon.md, "nesting at target T5": TIME 50 ripens 8,000 DCLK later, stamped 0x1F400 ticks on. -/
def ring9 : State :=
  ({ up with srcs := [(10, { state := .hold, timer := some 100000, held := 3 })], c := 0x500000000 } : State).wr Reg.CA_SCOAL_TIME 50 10
theorem test_ring9_ripens : after (.coalesceRipe 10) ring9 (fun t => (t.now, (t.src 10).state, (t.src 10).stamp)) =
    some (108000, .pend, 0x50001F400) := by decide +kernel
/-- 19_register_index.md, "locating a mask byte": mask word 0x967 of port 1555 while rule 5 is disabled, refused while it is enabled. -/
def mask1555 : State := up.setReg 0 0x900 1555
theorem test_mask_byte : after (.chainWrite 0x967 [0x7F00]) mask1555 (fun t => t.reg 1555 0x967) = some 0x7F00 ∧
    after (.chainWrite 0x967 [0x7F00]) (mask1555.setReg 1555 0x960 0x84010000) (fun t => t.reg 1555 0x967) = some (mask1555.reg 1555 0x967) := by
  decide +kernel
/-- 02_timebase.md (R35): C is 0 at the first edge after the first lock, and rises by 16 at an edge. -/
theorem test_first_lock : after .pllLock { clk := { locked := false } } (fun t => t.c) = some 0 := by decide +kernel
theorem test_idle_edge : (match step up with | .next t => some t.c | _ => none) = some (1600000 + 16) := by decide +kernel
/-- 10_tureus_chain.md (R318): an unimplemented word answers E_NOREG, a write of a read-only word E_RO. -/
theorem test_errors : after (.chainRead 0xA00 1) up (fun t => t.chain.resp.map (·.status)) = some (some 1) ∧
    after (.chainWrite 0x000 [1]) up (fun t => t.chain.resp.map (·.status)) = some (some 4) := by decide +kernel
/-- Published check values: CRC-32C of the ASCII digits 1 to 9, and the first bytes of SHA-256 of "abc". -/
theorem test_crc32c : crc32c [0x31, 0x32, 0x33, 0x34, 0x35, 0x36, 0x37, 0x38, 0x39] = 0xE3069283 := by decide +kernel
theorem test_sha256_abc : (sha256 [0x61, 0x62, 0x63]).take 8 = [0xBA, 0x78, 0x16, 0xBF, 0x8F, 0x01, 0xCF, 0xEA] := by decide +kernel

end Sys2Proof.Tests
end

section
namespace Sys2Proof.Machine

/-! ### What no command undoes

Every command but the four that begin the scale of C anew ends in a state that `Keeps` relates to the one it began from: one
lemma for each meaning that is more than one operation, along the branches of its definition, and `exec_keeps` joins them.
The four (power-on, POR_N, the first lock, a Solstice) still keep the queue and the canonical form (`exec_form`). -/

/-- The outcome is a next state, and that state satisfies `P`. -/
def Ends (P : State → Prop) : Host.Outcome State Fault Refusal → Prop
  | .next t => P t
  | .fault _ => False
  | .refused _ => False

theorem Ends.exists_next {P : State → Prop} {o : Host.Outcome State Fault Refusal} (h : Ends P o) :
    ∃ t, o = .next t ∧ P t := by
  cases o with
  | next t => exact ⟨t, rfl, h⟩
  | fault _ => exact h.elim
  | refused _ => exact h.elim

theorem Ends.of_next {P : State → Prop} {o : Host.Outcome State Fault Refusal} {t : State} (h : Ends P o)
    (e : o = .next t) : P t := by
  rw [e] at h
  exact h

theorem Ends.ite {P : State → Prop} {c : Prop} [Decidable c] {a b : Host.Outcome State Fault Refusal} (h : Ends P a)
    (k : Ends P b) : Ends P (if c then a else b) := by
  split
  · exact h
  · exact k

theorem Ends.imp {P Q : State → Prop} {o : Host.Outcome State Fault Refusal} (f : ∀ t, P t → Q t) (h : Ends P o) :
    Ends Q o := by
  cases o with
  | next t => exact f t h
  | fault _ => exact h
  | refused _ => exact h

section
variable {r s : State} (h : Keeps r s)
include h

/-! #### Carillon -/

theorem execCoalesceRipe_keeps (n : SourceIx) : Ends (Keeps r) (execCoalesceRipe n s) := by
  unfold execCoalesceRipe
  refine Ends.ite h ?_
  dsimp only
  split
  · exact State.setSrc_keeps (State.advance_keeps h _) ..
  · exact h

theorem execStationInputChange_keeps (st : Fin 1024) (level : Bool) :
    Ends (Keeps r) (execStationInputChange st level s) :=
  Ends.ite h (Ends.ite (State.stationInput_keeps (State.advance_keeps h _) ..) h)

theorem execMessageDecision_keeps (t : Fin 16) : Ends (Keeps r) (execMessageDecision t s) := by
  unfold execMessageDecision
  refine Ends.ite ?_ h
  split
  · exact h
  · exact Keeps.mk_iff.mpr (State.activate_keeps h ..)

theorem execCaClaimRead_keeps (host : Option (Fin 16)) : Ends (Keeps r) (execCaClaimRead host s) := by
  cases host with
  | none => exact State.readWord_keeps h _
  | some t => exact Ends.ite (State.emit_keeps (State.claim_keeps h _) _) h

theorem execCaSetpend_keeps (host : Option (Fin 16)) (d : Word) : Ends (Keeps r) (execCaSetpend host d s) := by
  cases host with
  | none => exact State.writeWord_keeps h ..
  | some t => exact Keeps.ite (State.hostSetpend_keeps h ..) h

theorem execCaPrivSet_keeps (host : Option (Fin 16)) (d : Word) : Ends (Keeps r) (execCaPrivSet host d s) := by
  cases host with
  | none => exact State.writeWord_keeps h ..
  | some t => exact Keeps.ite (caAct_keeps h ..) h

theorem execCaEoi_keeps (host : Option (Fin 16)) (d : Word) : Ends (Keeps r) (execCaEoi host d s) := by
  cases host with
  | none => exact State.writeWord_keeps h ..
  | some t => exact Keeps.ite (State.endOfInterrupt_keeps h ..) h

/-! #### The Almanac -/

theorem execLapseQueue_keeps : Ends (Keeps r) (execLapseQueue s) :=
  Ends.ite (State.lapseEntry_keeps (Keeps.mk_iff.mpr h) ..) h

theorem execCheckpointCut_keeps : Ends (Keeps r) (execCheckpointCut s) :=
  Ends.ite h (Ends.ite (State.cut_keeps h) (State.cut_keeps (State.advance_keeps h _)))

theorem execCheckpointSigned_keeps : Ends (Keeps r) (execCheckpointSigned s) := by
  unfold execCheckpointSigned
  refine Ends.ite h ?_
  split
  · exact h
  · exact Keeps.mk_iff.mpr h

theorem execLapseReset_keeps : Ends (Keeps r) (execLapseReset s) := by
  unfold execLapseReset
  split
  · exact h
  · exact Ends.ite h (State.lapseEntry_keeps (Keeps.mk_iff.mpr h) ..)

/-! #### Stations and level groups -/

theorem execPinSwitch_keeps (q : PinIx) : Ends (Keeps r) (execPinSwitch q s) := by
  unfold execPinSwitch
  refine Ends.ite h ?_
  split
  · exact Ends.ite (State.landPin_keeps (State.advance_keeps h _) _) h
  · exact h

theorem execMismatchDetect_keeps (q : PinIx) : Ends (Keeps r) (execMismatchDetect q s) :=
  Ends.ite h (Ends.ite (State.wr_keeps (State.advance_keeps h _) ..) h)

theorem execGpinChange_keeps (q : PinIx) (level : Bool) : Ends (Keeps r) (execGpinChange q level s) :=
  Ends.ite h (Ends.ite (State.modPin_keeps (State.advance_keeps h _) ..) h)

theorem execSpanOldZero_keeps (g : Fin 64) : Ends (Keeps r) (execSpanOldZero g s) :=
  Ends.ite h (State.spanStep_keeps h _ _ _ _ fun _ k => State.modGroup_keeps k ..)

theorem execSpanApply_keeps (g : Fin 64) : Ends (Keeps r) (execSpanApply g s) :=
  Ends.ite h (State.spanStep_keeps h _ _ _ _ fun _ k => State.modGroup_keeps k ..)

theorem execSpanCodesLoad_keeps (g : Fin 64) : Ends (Keeps r) (execSpanCodesLoad g s) :=
  Ends.ite h (State.spanStep_keeps h _ _ _ _ fun _ k => State.loadCodes_keeps k _)

theorem execSpanChangeEnd_keeps (g : Fin 64) : Ends (Keeps r) (execSpanChangeEnd g s) :=
  Ends.ite h (State.spanStep_keeps h _ _ _ _ fun _ k =>
    State.octActive_keeps (State.modGroup_keeps (Keeps.mk_iff.mpr k) ..) _)

theorem execSamplerResume_keeps (g : Fin 64) (levels : List (PinIx × Sample)) :
    Ends (Keeps r) (execSamplerResume g levels s) := by
  refine Ends.ite h (State.spanStep_keeps h _ _ _ _ fun s k => foldl_keeps _ (State.modGroup_keeps k ..) fun s b k => ?_)
  obtain ⟨q, v⟩ := b
  dsimp only
  split
  · exact State.setPin_keeps k ..
  · split
    · exact State.firstLevel_keeps k ..
    · exact Keeps.ite (Keeps.ite k (State.setPin_keeps k ..)) (State.edgeEvent_keeps k ..)

/-! #### The line monitor -/

theorem execMonitorTimeout_keeps (q : PinIx) : Ends (Keeps r) (execMonitorTimeout q s) :=
  Ends.ite h (Ends.ite (State.trigger_keeps (State.modMon_keeps (State.advance_keeps h _) ..) ..) h)

theorem execMonitorArmed_keeps (q : PinIx) : Ends (Keeps r) (execMonitorArmed q s) :=
  Ends.ite h (Ends.ite (State.setMon_keeps h ..) h)

theorem execTriggerAdmission_keeps (q : PinIx) : Ends (Keeps r) (execTriggerAdmission q s) := by
  unfold execTriggerAdmission
  refine Ends.ite h ?_
  split
  · exact h
  · refine Ends.ite h ?_
    extract_lets edge stack
    have k : Keeps r edge := State.advance_keeps h _
    exact Ends.ite (State.decline_keeps k ..) (Ends.ite (State.decline_keeps k ..) (State.admitTrigger_keeps k ..))

theorem execSegmentComplete_keeps (q : PinIx) : Ends (Keeps r) (execSegmentComplete q s) := by
  unfold execSegmentComplete
  refine Ends.ite h ?_
  split
  · exact h
  · exact State.reportArm_keeps (State.afterCapture_keeps (State.completeSegment_keeps (State.advance_keeps h _) _) _) _

theorem execRearmEnd_keeps (q : PinIx) : Ends (Keeps r) (execRearmEnd q s) :=
  Ends.ite h (Ends.ite (State.setMon_keeps (State.advance_keeps h _) ..) h)

theorem execUploadStart_keeps (q : PinIx) : Ends (Keeps r) (execUploadStart q s) := by
  unfold execUploadStart
  split
  · exact h
  · exact Ends.ite (State.upload_keeps h _) h

/-! #### Receive -/

theorem execProvExpire_keeps : Ends (Keeps r) (execProvExpire s) := by
  unfold execProvExpire
  refine Ends.ite h ?_
  split
  · exact h
  · exact Keeps.mk_iff.mpr (State.advance_keeps h _)

theorem execPinTransition_keeps (q : PinIx) (high glitch : Bool) (x1 x2 : Stamp) :
    Ends (Keeps r) (execPinTransition q high glitch x1 x2 s) := by
  unfold execPinTransition
  refine Ends.ite h ?_
  dsimp only
  have k := State.advanceTo_keeps h (x2 + 1)
  split
  · exact State.firstLevel_keeps k ..
  · exact Ends.ite (State.edgeEvent_keeps k ..) k

theorem execPaletteBoundary_keeps (p : PortIx) : Ends (Keeps r) (execPaletteBoundary p s) := by
  unfold execPaletteBoundary
  refine Ends.ite h ?_
  extract_lets ripe changed
  have k₁ : Keeps r ripe := State.ripen_keeps h _
  have k₂ : Keeps r changed := Keeps.ite (Keeps.ite (State.runCheck_keeps k₁ _) (State.rxBoundary_keeps k₁ _)) k₁
  exact Keeps.ite (State.txBoundary_keeps k₂ ..) k₂

theorem execEdgeEventAtCore_keeps (p : PortIx) : Ends (Keeps r) (execEdgeEventAtCore p s) := by
  unfold execEdgeEventAtCore
  refine Ends.ite h ?_
  dsimp only
  have k := State.ripen_keeps h p.val
  refine Ends.ite k ?_
  split
  · exact State.takeEntry_keeps (State.overflow_keeps (State.advance_keeps (State.joinLive_keeps
      (Keeps.ite (State.modPort_keeps k ..) k) ..) _) _) ..
  · exact k

theorem execStopBitCheck_keeps (p : PortIx) : Ends (Keeps r) (execStopBitCheck p s) :=
  Ends.ite h (State.runCheck_keeps (State.ripen_keeps h _) _)

theorem execBreakDetect_keeps (p : PortIx) : Ends (Keeps r) (execBreakDetect p s) := by
  unfold execBreakDetect
  refine Ends.ite h ?_
  dsimp only
  have k := State.ripen_keeps h p.val
  split
  · exact Ends.ite (State.breakDecided_keeps (State.advance_keeps k _) ..) k
  · exact k

theorem execEdgeOnlyFallback_keeps (p : PortIx) : Ends (Keeps r) (execEdgeOnlyFallback p s) :=
  Ends.ite h (Ends.ite (State.fallBack_keeps h _) h)

theorem execFmGateClose_keeps (p : PortIx) : Ends (Keeps r) (execFmGateClose p s) :=
  Ends.ite h (Ends.ite (State.closeGate_keeps h _) h)

/-! #### Transmit -/

theorem execDescriptorFetch_keeps (n : RingIx) (bytes : List Byte) : Ends (Keeps r) (execDescriptorFetch n bytes s) := by
  unfold execDescriptorFetch
  extract_lets ring size slot _ d counted shown base fetched x sent
  refine Ends.ite ?_ h
  have k : Keeps r fetched :=
    State.emit_keeps (State.request_keeps (State.wr_keeps (State.setRing_keeps h ..) ..)) _
  exact Ends.ite (State.txDone_keeps k ..) (Ends.ite (State.txDone_keeps k ..) (Ends.ite (State.txDone_keeps k ..)
    (State.queueDesc_keeps (Keeps.ite (State.emit_keeps k _) k) _)))

theorem execTxDataFetched_keeps (p : PortIx) (bytes : List Byte) : Ends (Keeps r) (execTxDataFetched p bytes s) := by
  unfold execTxDataFetched
  dsimp only
  split
  · exact Ends.ite (State.modPort_keeps (State.dataRead_keeps h ..) ..) h
  · split
    · exact Ends.ite (State.modPort_keeps (State.dataRead_keeps h ..) ..) h
    · exact h

theorem execTxCharStart_keeps (p : PortIx) : Ends (Keeps r) (execTxCharStart p s) := by
  unfold execTxCharStart
  refine Ends.ite h (Ends.ite (State.commitAhead_keeps h _) ?_)
  extract_lets n e edge permitted launched
  refine Ends.ite h ?_
  have k : Keeps r launched := State.launch_keeps (State.advance_keeps h _) ..
  refine Ends.ite k ?_
  split
  · exact State.launch_keeps (State.advance_keeps k _) ..
  · exact k

theorem execTimedDecide_keeps (p : PortIx) : Ends (Keeps r) (execTimedDecide p s) := by
  unfold execTimedDecide
  refine Ends.ite h ?_
  split
  · refine Ends.ite h ?_
    extract_lets edge
    have k : Keeps r edge := State.advance_keeps h _
    exact Ends.ite (Ends.ite (State.modPort_keeps k ..) (State.launchTimed_keeps k _))
      (State.restTx_keeps (State.checkHead_keeps (State.lateHead_keeps k ..) _) _)
  · exact h

theorem execTxCharEnd_keeps (p : PortIx) : Ends (Keeps r) (execTxCharEnd p s) := by
  unfold execTxCharEnd
  split
  · exact Keeps.ite h (State.afterFlight_keeps (State.charEnd_keeps (State.advanceTo_keeps h _) _) _)
  · exact h

/-! #### Rings and records -/

theorem execDoorbell_keeps (n : RingIx) (v : Word) : Ends (Keeps r) (execDoorbell n v s) := by
  have k := State.incSat_keeps h Reg.RG_ERR_DB n.val 1
  have l := State.takeDoorbell_keeps h n.val v
  exact Ends.ite h (Ends.ite (Keeps.ite (State.raiseEvent_keeps k ..) k) (Keeps.ite (State.emit_keeps l _) l))

theorem execRecordBuild_keeps (p : Option PortIx) : Ends (Keeps r) (execRecordBuild p s) := by
  unfold execRecordBuild
  refine Ends.ite h ?_
  cases p with
  | none => exact State.buildAlmanac_keeps h
  | some p =>
    dsimp only
    refine Ends.ite h ?_
    split
    · exact State.buildTx_keeps h _
    · exact State.buildOldest_keeps h _

theorem execRecordEligible_keeps (n : RingIx) : Ends (Keeps r) (execRecordEligible n s) := by
  unfold execRecordEligible
  refine Ends.ite h ?_
  split
  · exact State.makeEligible_keeps (State.advanceTo_keeps h _) _
  · exact h

theorem execBreachOpen_keeps (n : RingIx) : Ends (Keeps r) (execBreachOpen n s) := by
  unfold execBreachOpen
  refine Ends.ite ?_ h
  split
  · exact State.openBreach_keeps (State.advance_keeps h _) _
  · exact h

theorem execBreachIntervalLimit_keeps (n : RingIx) : Ends (Keeps r) (execBreachIntervalLimit n s) := by
  unfold execBreachIntervalLimit
  refine Ends.ite h ?_
  split
  · exact Ends.ite (State.openBreach_keeps (State.formBreach_keeps (State.advance_keeps h _) ..) _) h
  · exact h

theorem execFairnessOpen_keeps (n : RingIx) : Ends (Keeps r) (execFairnessOpen n s) :=
  Ends.ite (State.modRing_keeps (State.advance_keeps (State.noteReady_keeps h _) _) ..) h

theorem execGapIntervalLimit_keeps (p : PortIx) (k : Fin 5) : Ends (Keeps r) (execGapIntervalLimit p k s) := by
  unfold execGapIntervalLimit
  refine Ends.ite h (Ends.ite ?_ ?_)
  · dsimp only
    split
    · exact State.dueGap_keeps (State.modRing_keeps (State.advance_keeps h _) ..) _
    · exact h
  · split
    · exact State.dueGap_keeps (State.modPort_keeps (State.advance_keeps h _) ..) _
    · exact h

theorem execGapPlaceFree_keeps (n : RingIx) : Ends (Keeps r) (execGapPlaceFree n s) := by
  unfold execGapPlaceFree
  refine Ends.ite h (Ends.ite h ?_)
  split
  · exact h
  · exact State.formGap_keeps (Keeps.mk_iff.mpr h) _

theorem execWriteOpportunity_keeps : Ends (Keeps r) (execWriteOpportunity s) := by
  unfold execWriteOpportunity
  refine Ends.ite h ?_
  split
  · exact State.sendMsg_keeps (State.leaveL1_keeps h) _
  · dsimp only
    split
    · exact State.issueRun_keeps (State.leaveL1_keeps h) ..
    · split
      · rename_i e
        exact State.modRing_keeps (State.issueRun_keeps (State.leaveL1_keeps (State.bulkTurn_keeps h _ _ _ e)) ..) ..
      · split
        · exact Ends.ite (State.issueRun_keeps (State.leaveL1_keeps h) ..) (Keeps.mk_iff.mpr h)
        · exact h

theorem execFlushReadIssue_keeps : Ends (Keeps r) (execFlushReadIssue s) := by
  unfold execFlushReadIssue
  refine Ends.ite ?_ h
  split
  · exact State.emit_keeps (Keeps.mk_iff.mpr (State.request_keeps (State.advance_keeps h _))) _
  · exact State.emit_keeps (Keeps.mk_iff.mpr (State.request_keeps h)) _

theorem execFlushReadComplete_keeps : Ends (Keeps r) (execFlushReadComplete s) := by
  unfold execFlushReadComplete
  refine Ends.ite h ?_
  split
  · exact State.commit_keeps (State.incWrap_keeps (State.wr_keeps (Keeps.mk_iff.mpr h) ..) ..) _
  · exact h

theorem execFlushReadFail_keeps (status : BitVec 3) : Ends (Keeps r) (execFlushReadFail status s) := by
  unfold execFlushReadFail
  refine Ends.ite h ?_
  split
  · exact State.unwrite_keeps (State.raiseEvent_keeps (State.incSat_keeps (Keeps.mk_iff.mpr h) ..) ..)
  · exact h

theorem execRecordRewrite_keeps : Ends (Keeps r) (execRecordRewrite s) :=
  Ends.ite (Keeps.mk_iff.mpr (foldl_keeps _ (State.leaveL1_keeps h) fun _ _ k => State.rewriteRing_keeps k _)) h

theorem execRingDrainDone_keeps (n : RingIx) : Ends (Keeps r) (execRingDrainDone n s) :=
  Ends.ite h (Ends.ite (State.modRing_keeps h ..) h)

theorem execReadCompletionFail_keeps (n : RingIx) (status : BitVec 3) (a : BitVec 64) :
    Ends (Keeps r) (execReadCompletionFail n status a s) := by
  unfold execReadCompletionFail
  refine Ends.ite h ?_
  extract_lets ring faulted raised mine age
  refine Ends.ite ?_ h
  have k : Keeps r raised := State.raiseEvent_keeps (State.wr_keeps (State.modRing_keeps h ..) ..) ..
  split
  · exact foldl_keeps _ k fun _ _ l => State.loseDescs_keeps l ..
  · exact k

/-! #### The host link -/

theorem execHostWriteDiscard_keeps (bar2 : Bool) (w : HostWrite) : Ends (Keeps r) (execHostWriteDiscard bar2 w s) :=
  Keeps.ite h (State.incSat_keeps h ..)

theorem execHostReadUnimpl_keeps (bar2 : Bool) (a n : Nat) : Ends (Keeps r) (execHostReadUnimpl bar2 a n s) :=
  Keeps.ite h (State.emit_keeps h _)

theorem execStatusMirrorRead_keeps (a n : Nat) : Ends (Keeps r) (execStatusMirrorRead a n s) :=
  Ends.ite (State.emit_keeps h _) h

theorem execConfigWrite_keeps (c : CfgWrite) : Ends (Keeps r) (execConfigWrite c s) := by
  unfold execConfigWrite
  refine Ends.ite h ?_
  extract_lets masked awake _ l configured down marked
  have k₁ : Keeps r awake := Keeps.ite (State.emit_keeps h _) h
  have k₂ : Keeps r configured := Keeps.mk_iff.mpr k₁
  have k₃ : Keeps r down := Keeps.ite (State.emit_keeps (Keeps.mk_iff.mpr k₂) _) k₂
  have k₄ : Keeps r marked := Keeps.ite (State.markWindow_keeps k₃ _) k₃
  exact State.noteSleep_keeps (State.hostPower_keeps (State.emit_keeps k₄ _))

theorem execAspmL1Request_keeps : Ends (Keeps r) (execAspmL1Request s) :=
  Ends.ite (State.emit_keeps (Keeps.mk_iff.mpr (State.advance_keeps h _)) _) h

theorem execLinkDown_keeps : Ends (Keeps r) (execLinkDown s) := by
  unfold execLinkDown
  refine Ends.ite h ?_
  extract_lets d0 counted l reset t
  have k₁ : Keeps r reset := Keeps.mk_iff.mpr (State.incSat_keeps h ..)
  have k₂ : Keeps r t := State.noteSleep_keeps (State.hostPower_keeps (State.unwrite_keeps k₁))
  exact Keeps.ite (State.raiseEvent_keeps k₂ ..) k₂

theorem execLinkUp_keeps (speed : BitVec 4) (width : BitVec 6) (flit : Bool) :
    Ends (Keeps r) (execLinkUp speed width flit s) :=
  Ends.ite h (State.noteSleep_keeps (State.hostPower_keeps (Keeps.mk_iff.mpr (Keeps.ite (State.emit_keeps h _) h))))

theorem execWakeRequest_keeps : Ends (Keeps r) (execWakeRequest s) := by
  unfold execWakeRequest
  refine Ends.ite h ?_
  extract_lets cold _ counted awake _
  refine Ends.ite (Ends.ite h (State.emit_keeps (State.incSat_keeps (Keeps.mk_iff.mpr h) ..) _)) (Ends.ite ?_ h)
  have k₁ : Keeps r counted := Keeps.ite h (State.incSat_keeps h ..)
  have k₂ : Keeps r awake := Keeps.ite (State.emit_keeps k₁ _) k₁
  exact State.emit_keeps (State.emit_keeps (Keeps.mk_iff.mpr k₂) _) _

theorem execPerstAssert_keeps : Ends (Keeps r) (execPerstAssert s) :=
  Ends.ite h (Ends.ite (Keeps.mk_iff.mpr h) (State.wr_keeps (State.incSat_keeps (State.hostReset_keeps
    (State.releaseFirst_keeps (Keeps.mk_iff.mpr h))) ..) ..))

theorem execPerstDeassert_keeps : Ends (Keeps r) (execPerstDeassert s) :=
  Ends.ite h (Keeps.ite (State.emit_keeps (Keeps.mk_iff.mpr (Keeps.mk_iff.mpr h)) _) (Keeps.mk_iff.mpr h))

/-! #### The timebase -/

theorem execCalMeasureDone_keeps (fails : List CalLine) : Ends (Keeps r) (execCalMeasureDone fails s) := by
  unfold execCalMeasureDone
  split
  · exact h
  · refine Ends.ite h ?_
    extract_lets edge pins sync _ ended cleared failed n t
    have k₁ : Keeps r ended := Keeps.mk_iff.mpr (State.advance_keeps h _)
    have k₂ : Keeps r cleared := foldl_keeps _ k₁ fun _ _ k => State.wr_keeps k ..
    have k₃ : Keeps r failed := foldl_keeps _ k₂ fun _ _ k => State.wr_keeps k ..
    have k₄ : Keeps r t := State.wrBit_keeps (State.wr_keeps k₃ ..) ..
    exact Keeps.ite k₄ (State.calibEntry_keeps k₄ ..)

theorem execSyncInEdge_keeps (level : Bool) (u : Fin 16) : Ends (Keeps r) (execSyncInEdge level u s) := by
  unfold execSyncInEdge
  refine Ends.ite h (Ends.ite (Keeps.mk_iff.mpr h) ?_)
  extract_lets at_ low sent _ seen _
  have k : Keeps r seen := Keeps.mk_iff.mpr (State.forwardSync_keeps h ..)
  refine Ends.ite (Ends.ite (Keeps.mk_iff.mpr k) (State.syncGlitch_keeps k)) ?_
  split
  · exact k
  · exact Ends.ite (State.syncQualify_keeps k _) (State.syncGlitch_keeps (Keeps.mk_iff.mpr k))

theorem execSyncQualified_keeps : Ends (Keeps r) (execSyncQualified s) := by
  unfold execSyncQualified
  split
  · exact Ends.ite (State.syncQualify_keeps (State.advance_keeps h _) _) h
  · exact h

theorem execPairofsWindow_keeps (sum : Int) : Ends (Keeps r) (execPairofsWindow sum s) := by
  unfold execPairofsWindow
  split
  · exact h
  · exact Ends.ite h (State.wr_keeps (State.wr_keeps (Keeps.mk_iff.mpr h) ..) ..)

theorem execFrescoLatch_keeps : Ends (Keeps r) (execFrescoLatch s) := by
  unfold execFrescoLatch
  refine Ends.ite h ?_
  extract_lets edge _ latched done _ valid raised
  have k₁ : Keeps r latched := Keeps.mk_iff.mpr (State.advanceTo_keeps h _)
  have k₂ : Keeps r done := State.wr_keeps k₁ ..
  have k₃ : Keeps r valid := Keeps.ite (Keeps.mk_iff.mpr k₂) (State.wr_keeps k₂ ..)
  have k₄ : Keeps r raised := State.raiseEvent_keeps k₃ ..
  exact Keeps.ite (State.emit_keeps k₄ _) k₄

theorem execFrescoValuesRecv_keeps (values : Sparse Word) : Ends (Keeps r) (execFrescoValuesRecv values s) :=
  Ends.ite (State.wr_keeps (Keeps.mk_iff.mpr h) ..) h

/-! #### Auxiliary masters -/

theorem execAxTransferDone_keeps (m : Fin 8) (bits : List Bool) : Ends (Keeps r) (execAxTransferDone m bits s) := by
  unfold execAxTransferDone
  refine Ends.ite h ?_
  extract_lets x n ended
  refine Ends.ite h ?_
  have k₁ : Keeps r ended := State.advance_keeps h _
  have k₂ := State.takeFree_keeps k₁
  dsimp only
  have k₃ : ∀ f, Keeps r (((((ended.takeFree.2.modAux m.val f).wr Reg.AX_STAT_DONE 1 m.val).incWrap Reg.AX_CNT_CNT
      m.val).wr Reg.AX_CNT_BITS n m.val)) := fun f =>
    State.wr_keeps (State.incWrap_keeps (State.wr_keeps (State.modAux_keeps k₂ ..) ..) ..) ..
  exact Keeps.ite (State.modAux_keeps (k₃ _) ..) (State.auxRelease_keeps (k₃ _) _)

theorem execAxSelectRelease_keeps (m : Fin 8) : Ends (Keeps r) (execAxSelectRelease m s) := by
  unfold execAxSelectRelease
  refine Ends.ite h ?_
  split
  · exact h
  · extract_lets edge cs released
    have k : Keeps r released := State.emit_keeps (State.modAux_keeps (State.advance_keeps h _) ..) _
    exact Keeps.ite (State.resumeLoad_keeps k) k

theorem execAxHeldTimeout_keeps (m : Fin 8) : Ends (Keeps r) (execAxHeldTimeout m s) :=
  Ends.ite h (Ends.ite h (State.auxError_keeps (State.auxRelease_keeps (State.advance_keeps h _) _) ..))

theorem execDiscoveryDone_keeps (ok : Bool) (major minor : BitVec 8) (dens : BitVec 6) :
    Ends (Keeps r) (execDiscoveryDone ok major minor dens s) := by
  unfold execDiscoveryDone
  refine Ends.ite h (Ends.ite h ?_)
  extract_lets _ ended boot bad t
  have k₁ : Keeps r ended := Keeps.mk_iff.mpr h
  have k₂ : Keeps r bad := State.wr_keeps (State.wr_keeps k₁ ..) ..
  have k₃ : Keeps r t := Keeps.ite (State.wr_keeps (State.wr_keeps (State.wr_keeps (State.wr_keeps k₁ ..) ..) ..) ..)
    (Keeps.ite k₂ (State.auxError_keeps k₂ ..))
  exact Keeps.ite (State.emit_keeps (Keeps.mk_iff.mpr k₃) _) k₃

theorem execFlashBlockLoaded_keeps (words : List Word) : Ends (Keeps r) (execFlashBlockLoaded words s) := by
  unfold execFlashBlockLoaded
  refine Ends.ite h (Ends.ite h ?_)
  extract_lets ended
  have k₁ := State.takeFree_keeps (State.advance_keeps h s.flash.doneAt)
  dsimp only
  have k₂ : ∀ x, Keeps r (State.incWrap { ended.takeFree.2 with flash := x } Reg.AX_FLCNT) := fun x =>
    State.incWrap_keeps (Keeps.mk_iff.mpr k₁) ..
  refine Keeps.ite (State.auxBegin_keeps (State.endHold_keeps ?_) _) ?_ <;>
    exact Keeps.ite (k₂ _) (State.emit_keeps (State.modAux_keeps (k₂ _) ..) _)

theorem execFlashContTimeout_keeps : Ends (Keeps r) (execFlashContTimeout s) :=
  Ends.ite h (Ends.ite h (State.endHold_keeps (State.advance_keeps h _)))

/-! #### Contact units -/

theorem execCuSwitchClosed_keeps (i : Fin 16) : Ends (Keeps r) (execCuSwitchClosed i s) :=
  Ends.ite h (Ends.ite (State.modCu_keeps (State.advance_keeps h _) ..) h)

theorem execCuSwitchOpen_keeps (i : Fin 16) : Ends (Keeps r) (execCuSwitchOpen i s) :=
  Ends.ite h (Ends.ite (State.resolve_keeps (State.modCu_keeps (State.advance_keeps h _) ..) _) h)

theorem execCuRangeOutputZero_keeps (i : Fin 16) : Ends (Keeps r) (execCuRangeOutputZero i s) :=
  Ends.ite h (State.rangeStepAt_keeps h _ _ _ _ fun _ k => State.modCu_keeps k ..)

theorem execCuRangeApply_keeps (i : Fin 16) : Ends (Keeps r) (execCuRangeApply i s) :=
  Ends.ite h (State.rangeStepAt_keeps h _ _ _ _ fun _ k => State.modCu_keeps k ..)

theorem execCuRangeLevelApply_keeps (i : Fin 16) : Ends (Keeps r) (execCuRangeLevelApply i s) :=
  Ends.ite h (State.rangeStepAt_keeps h _ _ _ _ fun _ k => State.cuStartSource_keeps k _)

theorem execCuRangeClose_keeps (i : Fin 16) : Ends (Keeps r) (execCuRangeClose i s) :=
  Ends.ite h (State.rangeStepAt_keeps h _ _ _ _ fun _ k => State.modCu_keeps k ..)

theorem execCuComplianceFault_keeps (i : Fin 16) : Ends (Keeps r) (execCuComplianceFault i s) :=
  Ends.ite h (Ends.ite (State.cuFault_keeps h ..) h)

theorem execCuThermalFault_keeps (i : Fin 16) (temp : BitVec 8) : Ends (Keeps r) (execCuThermalFault i temp s) :=
  Ends.ite h (Ends.ite (State.cuFault_keeps (State.wr_keeps h ..) ..) (State.wr_keeps h ..))

theorem execSineUpdate_keeps (i : Fin 16) : Ends (Keeps r) (execSineUpdate i s) :=
  Ends.ite h (Ends.ite (State.setCu_keeps (State.advance_keeps h _) ..) h)

theorem execWaveSample_keeps (i : Fin 16) : Ends (Keeps r) (execWaveSample i s) :=
  Ends.ite h (Ends.ite (State.setCu_keeps (State.advance_keeps h _) ..) h)

theorem execCuMeasDone_keeps (i : Fin 16) (codes : List (BitVec 18)) : Ends (Keeps r) (execCuMeasDone i codes s) := by
  unfold execCuMeasDone
  refine Ends.ite h ?_
  extract_lets u n xs ended mean ac means result t
  refine Ends.ite h ?_
  have k : Keeps r t := State.wr_keeps (State.wr_keeps (State.wr_keeps (State.advance_keeps h _) ..) ..) ..
  exact State.setCu_keeps (State.wr_keeps (Keeps.ite k (State.wrBit_keeps k ..)) ..) ..

/-! #### Power domains and temperature -/

theorem execOctantIdleEnter_keeps (o : Fin 8) : Ends (Keeps r) (execOctantIdleEnter o s) :=
  Ends.ite (State.safeUnits_keeps (State.holdPorts_keeps (State.modOct_keeps (State.advance_keeps h _) ..) _) _) h

theorem execOctantNapEnter_keeps (o : Fin 8) : Ends (Keeps r) (execOctantNapEnter o s) :=
  Ends.ite (State.holdOct_keeps (State.modOct_keeps (State.advance_keeps h _) ..) _) h

theorem execOctantDarkEnter_keeps (o : Fin 8) : Ends (Keeps r) (execOctantDarkEnter o s) :=
  Ends.ite (State.modOct_keeps (State.advance_keeps h _) ..) h

theorem execOctantEntryDone_keeps (o : Fin 8) : Ends (Keeps r) (execOctantEntryDone o s) := by
  unfold execOctantEntryDone
  refine Ends.ite h ?_
  split
  · extract_lets edge asleep
    have k : Keeps r asleep := State.modOct_keeps (State.advance_keeps h _) ..
    exact Keeps.ite (State.safeLevels_keeps k _) k
  · exact h

theorem execOctantRun_keeps (o : Fin 8) : Ends (Keeps r) (execOctantRun o s) := by
  unfold execOctantRun
  refine Ends.ite h ?_
  extract_lets x
  split
  · exact h
  · extract_lets lat awake caused counted
    refine Ends.ite h ?_
    have k₁ : Keeps r awake := State.advance_keeps h _
    have k₂ : Keeps r caused := State.wr_keeps k₁ ..
    exact State.octRuns_keeps (Keeps.ite k₁ (Keeps.ite (State.incWrap_keeps k₂ ..) k₂)) _

theorem execDomainSleepEnter_keeps (d : Domain) (into : DomState) : Ends (Keeps r) (execDomainSleepEnter d into s) := by
  refine Ends.ite h ?_
  cases d with
  | core => exact Keeps.ite (Keeps.mk_iff.mpr (State.advance_keeps h _)) h
  | host => exact Ends.ite (State.noteSleep_keeps (Keeps.mk_iff.mpr h)) h
  | hinge => exact Keeps.ite (Keeps.mk_iff.mpr h) h
  | mem0 => exact Keeps.ite (State.setMem0_keeps (State.advance_keeps h _) _) h
  | mem1 => exact Keeps.ite (Keeps.mk_iff.mpr (State.advance_keeps h _)) h

theorem execDomainWake_keeps (d : Domain) : Ends (Keeps r) (execDomainWake d s) := by
  refine Ends.ite h ?_
  have k : ∀ n, Keeps r (s.advance n) := State.advance_keeps h
  cases d with
  | core => exact Ends.ite h (Keeps.mk_iff.mpr (k _))
  | host => exact Ends.ite (State.leaveL1_keeps h) (Ends.ite (Keeps.mk_iff.mpr (k _)) h)
  | hinge => exact Ends.ite (Keeps.mk_iff.mpr (k _)) h
  | mem0 => exact Ends.ite h (State.setMem0_keeps (Keeps.mk_iff.mpr (k _)) _)
  | mem1 => exact Ends.ite h (Keeps.mk_iff.mpr (k _))

theorem execThermalWarn_keeps (core sio hbm : BitVec 8) : Ends (Keeps r) (execThermalWarn core sio hbm s) := by
  unfold execThermalWarn
  extract_lets measured hot _ t
  have k₁ : Keeps r measured := State.setTemps_keeps h ..
  have k₂ : Keeps r t := Keeps.ite (Keeps.mk_iff.mpr k₁) k₁
  exact Keeps.ite (State.noteHeat_keeps k₂ _) k₂

theorem execThermalTrip_keeps (die : Fin 7) : Ends (Keeps r) (execThermalTrip die s) :=
  Ends.ite h (Keeps.mk_iff.mpr (State.softReset_keeps (State.releaseFirst_keeps
    (State.wr_keeps (State.incSat_keeps h ..) ..))))

/-! #### The pair -/

theorem execHeartbeatSend_keeps : Ends (Keeps r) (execHeartbeatSend s) :=
  Ends.ite (State.emit_keeps (Keeps.mk_iff.mpr (State.advance_keeps h _)) _) h

theorem execHeartbeatRecv_keeps (x : PairState) (role : Role) (c : Stamp) (epoch busy : Bool) (pos : Option (BitVec 6)) :
    Ends (Keeps r) (execHeartbeatRecv x role c epoch busy pos s) :=
  Ends.ite (Keeps.ite (State.disengage_keeps (Keeps.mk_iff.mpr h)) (Keeps.mk_iff.mpr h)) h

theorem execHeartbeatTimeout_keeps : Ends (Keeps r) (execHeartbeatTimeout s) :=
  Ends.ite (State.hingeDown_keeps (State.advance_keeps h _)) h

theorem execHingeRetraining_keeps : Ends (Keeps r) (execHingeRetraining s) :=
  Ends.ite (Keeps.mk_iff.mpr (State.wr_keeps (State.incSat_keeps (State.takeFree_keeps h) ..) ..)) h

theorem execHingeRetrainTimeout_keeps : Ends (Keeps r) (execHingeRetrainTimeout s) := by
  unfold execHingeRetrainTimeout
  refine Ends.ite h ?_
  split
  · exact State.hingeDown_keeps (Keeps.mk_iff.mpr (State.advance_keeps h _))
  · exact h

theorem execHingeUp_keeps : Ends (Keeps r) (execHingeUp s) :=
  Ends.ite (State.wr_keeps (Keeps.mk_iff.mpr h) ..) h

theorem execEngageRequestRecv_keeps (image : Image) : Ends (Keeps r) (execEngageRequestRecv image s) :=
  Ends.ite (State.adopt_keeps (Keeps.mk_iff.mpr h) _) h

theorem execEngageComplete_keeps : Ends (Keeps r) (execEngageComplete s) := by
  unfold execEngageComplete
  refine Ends.ite ?_ h
  extract_lets engaged _ t
  have k : Keeps r t := Keeps.mk_iff.mpr (State.raiseEvent_keeps (State.wr_keeps (State.setPair_keeps h _) ..) ..)
  exact Keeps.ite (State.suspendAlmanac_keeps k) k

theorem execEngageTimeout_keeps : Ends (Keeps r) (execEngageTimeout s) :=
  Ends.ite (State.abandonEngage_keeps (State.advance_keeps h _) _) h

theorem execDecisionBlockClose_keeps (p : PortIx) : Ends (Keeps r) (execDecisionBlockClose p s) := by
  unfold execDecisionBlockClose
  refine Ends.ite h ?_
  split
  · exact h
  · exact State.emit_keeps (State.modPort_keeps (Keeps.ite h (State.advance_keeps h _)) ..) _

theorem execDecisionBlockRecv_keeps (p : PortIx) (codes : List (List Stamp)) (crc : BitVec 32) :
    Ends (Keeps r) (execDecisionBlockRecv p codes crc s) :=
  Keeps.ite (State.takeBlock_keeps h ..) h

theorem execFullRecordRecv_keeps (f : Full) : Ends (Keeps r) (execFullRecordRecv f s) := by
  refine Ends.ite h ?_
  cases f with
  | record x =>
    exact State.emit_keeps (State.followCapture_keeps (State.followEntry_keeps (State.holdRecord_keeps h _) _) _) _
  | entries p l => exact Ends.ite h (Keeps.mk_iff.mpr (foldl_keeps _ h fun _ _ k => State.adoptEntry_keeps k ..))
  | port p y => exact Keeps.ite h (State.adoptPort_keeps h ..)

theorem execBlockAckRecv_keeps (a : Answer) : Ends (Keeps r) (execBlockAckRecv a s) := by
  cases a with
  | spoiled => exact Keeps.ite (State.incSat_keeps h ..) h
  | block p => exact Keeps.ite (State.modPort_keeps h ..) h
  | mark u k => exact Keeps.ite (Keeps.mk_iff.mpr h) h
  | request p => exact Keeps.ite (State.sendTransfer_keeps h _) h
  | record u =>
    refine Keeps.ite ?_ h
    split
    · exact State.emit_keeps h _
    · exact h

theorem execRecordMarkRecv_keeps (n : RingIx) (x : Rec) : Ends (Keeps r) (execRecordMarkRecv n x s) :=
  Ends.ite h (Ends.ite (State.emit_keeps h _) (State.emit_keeps (State.holdRecord_keeps h _) _))

theorem execHingeDoorbellRecv_keeps (n : RingIx) (v : Word) : Ends (Keeps r) (execHingeDoorbellRecv n v s) :=
  Keeps.ite (State.takeDoorbell_keeps h ..) h

theorem execHingeDescriptorRecv_keeps (d : Desc) : Ends (Keeps r) (execHingeDescriptorRecv d s) :=
  Keeps.ite (State.modPort_keeps (State.wr_keeps (State.modRing_keeps h ..) ..) ..) h

theorem execHingeEventRecv_keeps (p : PortIx) (e : PeerEvent) : Ends (Keeps r) (execHingeEventRecv p e s) := by
  unfold execHingeEventRecv
  refine Ends.ite h ?_
  split
  · exact State.peerWin_keeps h ..
  · exact State.peerEnded_keeps h ..
  · exact State.peerBoundary_keeps h ..
  · exact State.txSwitch_keeps h _

theorem execHingeProvRecv_keeps (p : PortIx) (x : Rec) (serial : Word) (shown : List Shown) :
    Ends (Keeps r) (execHingeProvRecv p x serial shown s) :=
  Ends.ite h (State.noteStaging_keeps (Keeps.mk_iff.mpr (State.modPort_keeps (State.fresh_keeps h) ..)))

theorem execCommitPointRecv_keeps (n : RingIx) (count : Word) : Ends (Keeps r) (execCommitPointRecv n count s) :=
  Ends.ite h (State.commitEntries_keeps (State.unstage_keeps (State.setReg_keeps (State.incWrap_keeps
    (foldl_keeps _ h fun _ _ k => Keeps.ite k (State.modRing_keeps k ..)) ..) ..) _))

theorem execArmStateRecv_keeps (q : PinIx) (m : Monitor) : Ends (Keeps r) (execArmStateRecv q m s) :=
  Ends.ite h (Keeps.ite (Keeps.mk_iff.mpr (State.setMon_keeps h ..)) (State.setMon_keeps h ..))

theorem execReleaseNoticeRecv_keeps : Ends (Keeps r) (execReleaseNoticeRecv s) :=
  Keeps.ite (Keeps.mk_iff.mpr h) h

theorem execReloRelease_keeps : Ends (Keeps r) (execReloRelease s) := by
  unfold execReloRelease
  split
  · exact Keeps.mk_iff.mpr (State.advance_keeps h _)
  · exact h

theorem execReliReleased_keeps : Ends (Keeps r) (execReliReleased s) :=
  Ends.ite h (Keeps.mk_iff.mpr h)

theorem execClaimQualify_keeps : Ends (Keeps r) (execClaimQualify s) := by
  unfold execClaimQualify
  extract_lets hinge
  split
  · exact h
  · refine Ends.ite h ?_
    extract_lets edge take _ held
    have k : Keeps r held := Keeps.mk_iff.mpr (State.advance_keeps h _)
    exact Keeps.ite (State.takeover_keeps k ..) k

theorem execClaimHeld_keeps : Ends (Keeps r) (execClaimHeld s) := by
  unfold execClaimHeld
  refine Ends.ite h ?_
  dsimp only
  split
  · exact h
  · exact Ends.ite (Keeps.mk_iff.mpr (State.advance_keeps h _)) h

theorem execOctantDriverEnable_keeps (o : Fin 8) : Ends (Keeps r) (execOctantDriverEnable o s) := by
  unfold execOctantDriverEnable
  refine Ends.ite h ?_
  split
  · exact h
  · refine Ends.ite h ?_
    extract_lets enabled
    have k : Keeps r enabled := State.enableDrivers_keeps (State.advance_keeps h _) _
    exact Ends.ite k (foldl_keeps _ (Keeps.ite (State.wr_keeps k ..) k) fun _ _ l =>
      Keeps.ite l (State.checkHead_keeps (State.modPort_keeps l ..) _))

theorem execClaimBlocked_keeps : Ends (Keeps r) (execClaimBlocked s) :=
  Ends.ite h (Ends.ite (State.raiseEvent_keeps (State.wr_keeps (Keeps.mk_iff.mpr (Keeps.mk_iff.mpr h)) ..) ..)
    (Keeps.mk_iff.mpr h))

theorem execClaimRetry_keeps : Ends (Keeps r) (execClaimRetry s) := by
  unfold execClaimRetry
  refine Ends.ite h ?_
  split
  · exact Ends.ite h (Keeps.mk_iff.mpr (State.advance_keeps h _))
  · exact h

theorem execVstPFall_keeps : Ends (Keeps r) (execVstPFall s) :=
  Keeps.mk_iff.mpr (State.driversOff_keeps h)

theorem execMirrorWriteRecv_keeps (a : BitVec 12) (i : Nat) (data : List Word) :
    Ends (Keeps r) (execMirrorWriteRecv a i data s) :=
  Ends.ite h (Ends.ite (Keeps.mk_iff.mpr h) (State.takeForwarded_keeps h ..))

theorem execMirrorAckRecv_keeps (status : BitVec 4) : Ends (Keeps r) (execMirrorAckRecv status s) := by
  unfold execMirrorAckRecv
  split
  · exact Keeps.ite (State.takeLate_keeps h) h
  · exact Ends.ite h (Ends.ite (State.takeLate_keeps (State.answerWrite_keeps (State.countMirror_keeps
      (State.applyWrite_keeps (Keeps.mk_iff.mpr h) ..)) ..)) (State.hingeDown_keeps h))

/-! #### Lock, Gesso and boot -/

theorem execFuseReadDone_keeps (corrected failRows : BitVec 16) (failed : List FuseContent) :
    Ends (Keeps r) (execFuseReadDone corrected failRows failed s) :=
  Ends.ite h (State.wrBit_keeps (State.wr_keeps (State.wr_keeps (Keeps.mk_iff.mpr (State.advance_keeps h _)) ..) ..) ..)

theorem execGessoEnd_keeps (sioFail : BitVec 4) (hbmFail : BitVec 2) (sineOk : Bool) :
    Ends (Keeps r) (execGessoEnd sioFail hbmFail sineOk s) := by
  unfold execGessoEnd
  refine Ends.ite h ?_
  extract_lets _ load sine dies mems _ t
  have k₁ : Keeps r dies := foldl_keeps _ (State.wrBit_keeps (Keeps.mk_iff.mpr h) ..) fun _ _ k =>
    Keeps.ite (State.sioFails_keeps k _) k
  have k₂ : Keeps r mems := foldl_keeps _ k₁ fun _ _ k => Keeps.ite (State.hbmFails_keeps k _) k
  have k₃ : Keeps r t := Keeps.ite (State.genesisEntry_keeps (Keeps.mk_iff.mpr k₂)) k₂
  exact State.startLoad_keeps k₃

theorem execSioLinkFail_keeps (d : Fin 4) : Ends (Keeps r) (execSioLinkFail d s) :=
  Keeps.ite (State.sioFails_keeps h _) h

theorem execHbmFault_keeps (d : Fin 2) : Ends (Keeps r) (execHbmFault d s) :=
  Keeps.ite (State.hbmFails_keeps h _) h

theorem execLossOfLock_keeps : Ends (Keeps r) (execLossOfLock s) := by
  refine Ends.ite h (Keeps.mk_iff.mpr (State.incSat_keeps (State.wr_keeps (State.cancelFresco_keeps
    (State.cancelSolstice_keeps (State.wr_keeps (State.cutCaptures_keeps ?_ _) ..))) ..) ..))
  exact foldl_keeps _ (State.release_keeps (State.advance_keeps h _)) fun _ _ k =>
    State.safeUnits_keeps (State.holdOct_keeps k _) _

theorem execImageHeaderCheck_keeps (header : List Byte) : Ends (Keeps r) (execImageHeaderCheck header s) := by
  unfold execImageHeaderCheck
  refine Ends.ite h ?_
  extract_lets edge hd fast _ taken t
  have k₁ : Keeps r edge := State.advance_keeps h _
  split
  · exact State.endLoad_keeps k₁ ..
  · have k₂ : Keeps r t := State.wrBit_keeps (Keeps.mk_iff.mpr k₁) ..
    exact Keeps.ite (State.emit_keeps (State.wr_keeps k₂ ..) _) k₂

theorem execImageReadEnd_keeps (image : List Byte) : Ends (Keeps r) (execImageReadEnd image s) := by
  unfold execImageReadEnd
  split
  · exact h
  · refine Ends.ite h ?_
    extract_lets half edge img
    have k : Keeps r edge := State.advance_keeps h _
    exact Ends.ite (Keeps.mk_iff.mpr (State.endRead_keeps k))
      (Ends.ite (State.emit_keeps (Keeps.mk_iff.mpr (State.wr_keeps k ..)) _) (State.endLoad_keeps k ..))

theorem execSignatureVerified_keeps : Ends (Keeps r) (execSignatureVerified s) := by
  unfold execSignatureVerified
  split
  · exact h
  · exact Ends.ite h (Ends.ite (State.wr_keeps (Keeps.mk_iff.mpr h) ..) (State.endLoad_keeps h ..))

theorem execImageApply_keeps : Ends (Keeps r) (execImageApply s) := by
  unfold execImageApply
  split
  · exact h
  · refine Ends.ite h ?_
    split
    · exact State.endLoad_keeps h ..
    · extract_lets edge id stored done _ loaded shown t
      have k₀ : Keeps r stored.1 := State.storeAll_keeps (State.advance_keeps h _) _
      have k₁ : Keeps r done := State.takeEffect_keeps (State.takeSafe_keeps k₀ _) ..
      have k₂ : Keeps r t := State.configEntry_keeps (State.setReg_keeps (State.wr_keeps (Keeps.mk_iff.mpr k₁) ..) ..) ..
      exact Keeps.ite k₂ (State.startVern_keeps k₂)

theorem execStateDigestDone_keeps : Ends (Keeps r) (execStateDigestDone s) := by
  unfold execStateDigestDone
  split
  · exact h
  · exact Ends.ite h (Keeps.ite (Keeps.mk_iff.mpr (Keeps.mk_iff.mpr h)) (State.configEntry_keeps (Keeps.mk_iff.mpr h) ..))

theorem execVernissage_keeps : Ends (Keeps r) (execVernissage s) := by
  unfold execVernissage
  split
  · exact h
  · exact Ends.ite h (foldl_keeps _ (State.setReg_keeps (Keeps.mk_iff.mpr (State.advance_keeps h _)) ..) fun _ _ k =>
      State.octActive_keeps k _)

theorem execOctantTakePins_keeps (o : Fin 8) : Ends (Keeps r) (execOctantTakePins o s) := by
  unfold execOctantTakePins
  split
  · exact h
  · exact Ends.ite h (foldl_keeps _ (Keeps.mk_iff.mpr (State.advance_keeps h _)) fun _ _ k => State.resolve_keeps k _)

/-! #### The chain -/

theorem execChClkRisingEdge_keeps (din : Bool) : Ends (Keeps r) (execChClkRisingEdge din s) :=
  Keeps.ite (Keeps.mk_iff.mpr h) h

theorem execResponseReady_keeps : Ends (Keeps r) (execResponseReady s) := by
  unfold execResponseReady
  split
  · exact h
  · exact Ends.ite h (Keeps.mk_iff.mpr (State.advance_keeps h _))

theorem execChRstnAssert_keeps : Ends (Keeps r) (execChRstnAssert s) :=
  Ends.ite h (Keeps.mk_iff.mpr (State.wr_keeps (State.chainReset_keeps h) ..))

theorem execChainAssign_keeps (d : Word) : Ends (Keeps r) (execChainAssign d s) :=
  Ends.ite (State.slotAlone_keeps h _ fun _ k => State.runAssign_keeps k ..)
    (Ends.ite h (State.runAssign_keeps (State.rstRise_keeps h) ..))

end

/-- Every command but the four that begin the scale of C anew keeps what `Keeps` says. -/
theorem exec_keeps (i : Instr) (s : State) (h₁ : ∀ r, i ≠ .por r) (h₂ : i ≠ .porNFall) (h₃ : i ≠ .pllLock)
    (h₄ : i ≠ .solsticeApply) : Ends (Keeps s) (exec i s) := by
  have h := Keeps.refl s
  cases i with
  | por x => exact absurd rfl (h₁ x)
  | porNFall => exact absurd rfl h₂
  | pllLock => exact absurd rfl h₃
  | solsticeApply => exact absurd rfl h₄
  | calRun | solArm | solCancel | syncDlyWrite | frArm | frCancel | frRelease | paletteWrite | rxPaletteSelect
  | rxReacq | rxEnable | rxDisable | fmRestart | txEnable | txDisable | txFlush | txResume | cueClrhist | ringEnable
  | ringDisable | hgRoleWrite | hgEngage | hgDisengage | hgRelease | caClrpend | caSourceDisable | stPincfgWrite
  | stUnhold | gpioOutWrite | levelCodeWrite | spanChangeStart | lmForce | lmArm | lmDisarm | cuAttach | cuDetach
  | cuLevelWrite | cuRangeChange | cuFaultClear | cuWdataWrite | cuMeasStart | cuMeasStop | axStart | axDiscover
  | axFladdrWrite | axFldrop | bootSkip | bootReload | bootVernissage | pwCfgWrite | softReset | coreReset
  | hostReset | hingeReset | memReset | octReset | alCut => exact State.writeWord_keeps h ..
  | tbNowRead | syncLastRead | frDataRead | rxperRead | fmResultRead | errlogRead | cuMresRead | flashApertureRead
  | certDataRead | imageidRead | disstampRead | tkstampRead | lmLastRead | alCmtRead => exact State.readWord_keeps h _
  | fuseReadDone corrected failRows failed => exact execFuseReadDone_keeps h ..
  | gessoEnd sioFail hbmFail sineOk => exact execGessoEnd_keeps h ..
  | sioLinkFail d => exact execSioLinkFail_keeps h ..
  | hbmFault d => exact execHbmFault_keeps h ..
  | lossOfLock => exact execLossOfLock_keeps h
  | hostWriteDiscard bar2 offset => exact execHostWriteDiscard_keeps h ..
  | hostReadUnimpl bar2 offset n => exact execHostReadUnimpl_keeps h ..
  | statusMirrorRead offset n => exact execStatusMirrorRead_keeps h ..
  | calMeasureDone fails => exact execCalMeasureDone_keeps h ..
  | syncInEdge level u => exact execSyncInEdge_keeps h ..
  | syncQualified => exact execSyncQualified_keeps h
  | pairofsWindow sum => exact execPairofsWindow_keeps h ..
  | frescoLatch => exact execFrescoLatch_keeps h
  | paletteBoundary p => exact execPaletteBoundary_keeps h ..
  | pinTransition q high glitch x1 x2 => exact execPinTransition_keeps h ..
  | edgeEventAtCore p => exact execEdgeEventAtCore_keeps h ..
  | stopBitCheck p => exact execStopBitCheck_keeps h ..
  | breakDetect p => exact execBreakDetect_keeps h ..
  | edgeOnlyFallback p => exact execEdgeOnlyFallback_keeps h ..
  | fmGateClose p => exact execFmGateClose_keeps h ..
  | provExpire => exact execProvExpire_keeps h
  | doorbell n value => exact execDoorbell_keeps h ..
  | descriptorFetch n bytes => exact execDescriptorFetch_keeps h ..
  | txDataFetched p bytes => exact execTxDataFetched_keeps h ..
  | txCharStart p => exact execTxCharStart_keeps h ..
  | timedDecide p => exact execTimedDecide_keeps h ..
  | txCharEnd p => exact execTxCharEnd_keeps h ..
  | configWrite c => exact execConfigWrite_keeps h ..
  | ringDrainDone n => exact execRingDrainDone_keeps h ..
  | readCompletionFail n status address => exact execReadCompletionFail_keeps h ..
  | recordBuild p => exact execRecordBuild_keeps h ..
  | recordEligible n => exact execRecordEligible_keeps h ..
  | writeOpportunity => exact execWriteOpportunity_keeps h
  | aspmL1Request => exact execAspmL1Request_keeps h
  | linkDown => exact execLinkDown_keeps h
  | linkUp speed width flit => exact execLinkUp_keeps h ..
  | perstAssert => exact execPerstAssert_keeps h
  | perstDeassert => exact execPerstDeassert_keeps h
  | wakeRequest => exact execWakeRequest_keeps h
  | flushReadIssue => exact execFlushReadIssue_keeps h
  | flushReadComplete => exact execFlushReadComplete_keeps h
  | flushReadFail status => exact execFlushReadFail_keeps h ..
  | recordRewrite => exact execRecordRewrite_keeps h
  | breachOpen n => exact execBreachOpen_keeps h ..
  | breachIntervalLimit n => exact execBreachIntervalLimit_keeps h ..
  | fairnessOpen n => exact execFairnessOpen_keeps h ..
  | gapIntervalLimit p partner => exact execGapIntervalLimit_keeps h ..
  | gapPlaceFree n => exact execGapPlaceFree_keeps h ..
  | heartbeatSend => exact execHeartbeatSend_keeps h
  | heartbeatRecv state role c epoch busy pos => exact execHeartbeatRecv_keeps h ..
  | heartbeatTimeout => exact execHeartbeatTimeout_keeps h
  | hingeRetrainTimeout => exact execHingeRetrainTimeout_keeps h
  | hingeUp => exact execHingeUp_keeps h
  | engageRequestRecv image => exact execEngageRequestRecv_keeps h ..
  | engageComplete => exact execEngageComplete_keeps h
  | engageTimeout => exact execEngageTimeout_keeps h
  | reloRelease => exact execReloRelease_keeps h
  | mirrorWriteRecv addr inst data => exact execMirrorWriteRecv_keeps h ..
  | mirrorAckRecv status => exact execMirrorAckRecv_keeps h ..
  | decisionBlockClose p => exact execDecisionBlockClose_keeps h ..
  | decisionBlockRecv p codes crc => exact execDecisionBlockRecv_keeps h ..
  | fullRecordRecv r => exact execFullRecordRecv_keeps h ..
  | blockAckRecv a => exact execBlockAckRecv_keeps h ..
  | recordMarkRecv n r => exact execRecordMarkRecv_keeps h ..
  | hingeDoorbellRecv n value => exact execHingeDoorbellRecv_keeps h ..
  | hingeDescriptorRecv d => exact execHingeDescriptorRecv_keeps h ..
  | hingeEventRecv p e => exact execHingeEventRecv_keeps h ..
  | hingeProvRecv p r serial shown => exact execHingeProvRecv_keeps h ..
  | commitPointRecv n count => exact execCommitPointRecv_keeps h ..
  | armStateRecv q m => exact execArmStateRecv_keeps h ..
  | frescoValuesRecv values => exact execFrescoValuesRecv_keeps h ..
  | releaseNoticeRecv => exact execReleaseNoticeRecv_keeps h
  | reliReleased => exact execReliReleased_keeps h
  | claimQualify => exact execClaimQualify_keeps h
  | claimHeld => exact execClaimHeld_keeps h
  | octantDriverEnable o => exact execOctantDriverEnable_keeps h ..
  | claimBlocked => exact execClaimBlocked_keeps h
  | claimRetry => exact execClaimRetry_keeps h
  | coalesceRipe n => exact execCoalesceRipe_keeps h ..
  | stationInputChange st level => exact execStationInputChange_keeps h ..
  | caSetpend host data => exact execCaSetpend_keeps h ..
  | caPrivSet host data => exact execCaPrivSet_keeps h ..
  | caClaimRead host => exact execCaClaimRead_keeps h ..
  | caEoi host data => exact execCaEoi_keeps h ..
  | messageDecision t => exact execMessageDecision_keeps h ..
  | chainAssign data => exact execChainAssign_keeps h ..
  | chRstnAssert => exact execChRstnAssert_keeps h
  | responseReady => exact execResponseReady_keeps h
  | pinSwitch q => exact execPinSwitch_keeps h ..
  | mismatchDetect q => exact execMismatchDetect_keeps h ..
  | gpinChange q level => exact execGpinChange_keeps h ..
  | spanOldZero g => exact execSpanOldZero_keeps h ..
  | spanApply g => exact execSpanApply_keeps h ..
  | spanCodesLoad g => exact execSpanCodesLoad_keeps h ..
  | samplerResume g levels => exact execSamplerResume_keeps h ..
  | spanChangeEnd g => exact execSpanChangeEnd_keeps h ..
  | monitorTimeout q => exact execMonitorTimeout_keeps h ..
  | monitorArmed q => exact execMonitorArmed_keeps h ..
  | triggerAdmission q => exact execTriggerAdmission_keeps h ..
  | segmentComplete q => exact execSegmentComplete_keeps h ..
  | rearmEnd q => exact execRearmEnd_keeps h ..
  | uploadStart q => exact execUploadStart_keeps h ..
  | cuSwitchClosed u => exact execCuSwitchClosed_keeps h ..
  | cuSwitchOpen u => exact execCuSwitchOpen_keeps h ..
  | cuRangeOutputZero u => exact execCuRangeOutputZero_keeps h ..
  | cuRangeApply u => exact execCuRangeApply_keeps h ..
  | cuRangeLevelApply u => exact execCuRangeLevelApply_keeps h ..
  | cuRangeClose u => exact execCuRangeClose_keeps h ..
  | cuComplianceFault u => exact execCuComplianceFault_keeps h ..
  | cuThermalFault u temp => exact execCuThermalFault_keeps h ..
  | sineUpdate u => exact execSineUpdate_keeps h ..
  | waveSample u => exact execWaveSample_keeps h ..
  | cuMeasDone u codes => exact execCuMeasDone_keeps h ..
  | axTransferDone m bits => exact execAxTransferDone_keeps h ..
  | axSelectRelease m => exact execAxSelectRelease_keeps h ..
  | axHeldTimeout m => exact execAxHeldTimeout_keeps h ..
  | discoveryDone ok major minor dens => exact execDiscoveryDone_keeps h ..
  | flashBlockLoaded words => exact execFlashBlockLoaded_keeps h ..
  | flashContTimeout => exact execFlashContTimeout_keeps h
  | imageHeaderCheck header => exact execImageHeaderCheck_keeps h ..
  | imageReadEnd image => exact execImageReadEnd_keeps h ..
  | signatureVerified => exact execSignatureVerified_keeps h
  | imageApply => exact execImageApply_keeps h
  | stateDigestDone => exact execStateDigestDone_keeps h
  | vernissage => exact execVernissage_keeps h
  | octantTakePins o => exact execOctantTakePins_keeps h ..
  | octantIdleEnter o => exact execOctantIdleEnter_keeps h ..
  | octantNapEnter o => exact execOctantNapEnter_keeps h ..
  | octantDarkEnter o => exact execOctantDarkEnter_keeps h ..
  | octantEntryDone o => exact execOctantEntryDone_keeps h ..
  | octantRun o => exact execOctantRun_keeps h ..
  | domainSleepEnter d into => exact execDomainSleepEnter_keeps h ..
  | domainWake d => exact execDomainWake_keeps h ..
  | lapseReset => exact execLapseReset_keeps h
  | thermalWarn core sio hbm => exact execThermalWarn_keeps h ..
  | thermalTrip die => exact execThermalTrip_keeps h ..
  | lapseQueue => exact execLapseQueue_keeps h
  | checkpointCut => exact execCheckpointCut_keeps h
  | checkpointSigned => exact execCheckpointSigned_keeps h
  | vstPFall => exact execVstPFall_keeps h
  | chClkRisingEdge din => exact execChClkRisingEdge_keeps h ..
  | hingeRetraining => exact execHingeRetraining_keeps h
  | axAbort => exact State.writeBits_keeps h ..
  | watchdogExpire => exact State.release_keeps h
  | frameBegin => exact State.frameBegin_keeps h
  | frameEnd => exact State.frameEnd_keeps h
  | emptyFrame => exact Keeps.ite h (State.frameEnd_keeps (State.frameBegin_keeps h))
  | chainNop => exact Keeps.ite h (State.slotAlone_keeps h _ fun _ k => State.runNop_keeps k _)
  | chainRead => exact State.chainRead_keeps h ..
  | chainWrite => exact State.chainWrite_keeps h ..
  | chainSelect => exact State.slotAlone_keeps h _ fun _ k => State.runSelect_keeps k ..
  | chainrst => exact State.slotAlone_keeps h _ fun _ k => State.runSlot_keeps k ..
  | refclkToggleChange => exact State.wrBit_keeps h ..

/-! ### The canonical form of the register file -/

/-- What no command at all undoes: the queue is as it was, and the register file stays in canonical form. -/
structure KeepsForm (r s : State) : Prop where
  pending : s.pending = r.pending
  wf : Sparse.wf resetWord r.regs = true → Sparse.wf resetWord s.regs = true

theorem KeepsForm.refl (s : State) : KeepsForm s s := ⟨rfl, id⟩

theorem Keeps.form {r s : State} (h : Keeps r s) : KeepsForm r s := ⟨h.pending, h.wf⟩

theorem KeepsForm.trans {r s t : State} (h : KeepsForm r s) (k : KeepsForm s t) : KeepsForm r t :=
  ⟨k.pending.trans h.pending, fun w => k.wf (h.wf w)⟩

/-- Power-on leaves the queue, and registers of their reset values with the role strapped. -/
theorem State.powerOn_form (s : State) (strap : Role) : KeepsForm s (s.powerOn strap) :=
  ⟨rfl, fun _ => State.wr_wf _ _ _ _ rfl⟩

theorem execPorNFall_form (s : State) : Ends (KeepsForm s) (execPorNFall s) := by
  obtain ⟨p, w⟩ := s.powerOn_form s.strap
  exact ⟨p, w⟩

theorem execPllLock_form (s : State) : Ends (KeepsForm s) (execPllLock s) := by
  unfold execPllLock
  refine Ends.ite (KeepsForm.refl s) (Ends.ite ?_ ?_)
  · exact (State.startSync_keeps (Keeps.mk_iff.mpr (Keeps.refl s))).form
  · refine KeepsForm.trans ?_ (State.startSync_keeps (Keeps.refl _)).form
    exact ⟨rfl, id⟩

theorem execSolsticeApply_form (s : State) : Ends (KeepsForm s) (execSolsticeApply s) := by
  unfold execSolsticeApply
  split
  · exact KeepsForm.refl s
  · extract_lets edge _ loaded marked t
    refine Ends.ite (KeepsForm.refl s) ?_
    have k₁ : KeepsForm s edge := (State.advance_keeps (Keeps.refl s) _).form
    have k₂ : KeepsForm edge loaded := ⟨rfl, id⟩
    have k₃ : Keeps loaded t := State.cancelFresco_keeps
      (State.wr_keeps (State.wr_keeps (State.wr_keeps (Keeps.refl _) ..) ..) ..)
    exact (k₁.trans k₂).trans (State.raiseEvent_keeps (State.epochEntry_keeps k₃ _) ..).form

/-- Every command ends in a next state, with the queue as it was and the register file in canonical form. -/
theorem exec_form (i : Instr) (s : State) : Ends (KeepsForm s) (exec i s) := by
  by_cases h₁ : ∃ r, i = .por r
  · obtain ⟨r, rfl⟩ := h₁
    exact s.powerOn_form r
  by_cases h₂ : i = .porNFall
  · subst h₂
    exact execPorNFall_form s
  by_cases h₃ : i = .pllLock
  · subst h₃
    exact execPllLock_form s
  by_cases h₄ : i = .solsticeApply
  · subst h₄
    exact execSolsticeApply_form s
  exact (exec_keeps i s (fun r e => h₁ ⟨r, e⟩) h₂ h₃ h₄).imp fun _ k => k.form

/-- A step keeps the canonical form: with a command waiting, by what that command keeps; with none, only time passes. -/
theorem step_wf {s t : State} (w : s.regsWf = true) (e : step s = .next t) : t.regsWf = true := by
  unfold step at e
  split at e
  · exact ((exec_form _ _).of_next e).wf w
  · split at e
    · cases e
      exact (State.advance_keeps (Keeps.refl s) _).wf w
    · cases e
      exact w

/-- Settles O3: each command keeps the canonical form, by what the operations of its meaning keep. -/
theorem everyStepKeepsTheRegisterFile : Obligations.EveryStepKeepsTheRegisterFile := fun _ _ => step_wf

end Sys2Proof.Machine
end

section
namespace Sys2Proof.Machine

/-! ### A field that an accepted write does not store

CA_SCFG_SENSE is an RW field, but the sense of a source other than a station's is fixed (R272): the field of an event source
reads 1, only 1 is taken when it is written, and the stored field stays 0, since the read shows the fixed sense instead. -/

/-- A device past boot with its chain position, whose CA_SEL stands at its reset value: event source 1. -/
def eventSourceSelected : State :=
  { clk := { locked := true, once := true }, boot := { stage := .ready, fusesRead := true, vAt := some 0, octTaken := 8 },
    chain := { assigned := true }, now := 100000, c := 1600000#64 }

/-- A word of CA_SCFG with the sense that an event source has. -/
def eventSense : Word := Reg.CA_SCFG_SENSE.set 0 1

theorem eventSense_taken : eventSourceSelected.takesOne (0x201 : BitVec 12).toNat eventSense = true := by decide +kernel

theorem eventSense_field : Reg.CA_SCFG_SENSE ∈ wordFields (0x201 : BitVec 12).toNat := by decide +kernel

/-- The state after the write holds SENSE 0 for the source. -/
theorem eventSense_stored : (eventSourceSelected.writeWord 0x201 eventSense).rd Reg.CA_SCFG_SENSE
    (eventSourceSelected.selOf (0x201 : BitVec 12).toNat) = 0 := by decide +kernel

/-- Refutes O20: a write of CA_SCFG with SENSE 1 is taken for event source 1, whose stored SENSE stays 0. -/
theorem not_acceptedWriteStoresItsFields : ¬ Obligations.AcceptedWriteStoresItsFields := by
  unfold Obligations.AcceptedWriteStoresItsFields
  intro h
  obtain ⟨t, e, k⟩ := h (.caSourceDisable eventSense) 0x201 eventSense eventSourceSelected rfl eventSense_taken
  have e : Host.Outcome.next (eventSourceSelected.writeWord 0x201 eventSense) = .next t := e
  injection e with e
  subst e
  have stored := k Reg.CA_SCFG_SENSE eventSense_field rfl
  rw [eventSense_stored] at stored
  have given : Reg.CA_SCFG_SENSE.get eventSense = 1 := by decide
  omega

end Sys2Proof.Machine
end

section
namespace Sys2Proof.Machine

/-! ### Every command completes -/

/-- Settles O2: every command ends in a next state that keeps the queue. -/
theorem everyCommandCompletes : Obligations.EveryCommandCompletes := by
  intro i s
  obtain ⟨t, e, k⟩ := (exec_form i s).exists_next
  exact ⟨t, e, k.pending⟩

end Sys2Proof.Machine
end

section
namespace Sys2Proof.Machine

/-! ### Faults of dies and stacks, and a loss of lock

The flags of GL_DIESTAT are the last registers a failing die or stack writes, and the source is raised after them, which writes
no word of GL_; a loss of lock ends with TB_STAT and GL_CLKSTAT. So each flag is read from the last writes alone, whatever the
stops before them did. -/

/-- Raising or releasing a level source leaves every field outside the commit-gated words alone. -/
theorem State.rd_raiseLevel (s : State) (n : Nat) (b : Bool) (detail : Nat) (f : Fld) (i : Nat) (hw : f.word < 4096)
    (hg : gatedWord f.word = false) : (s.raiseLevel n b detail).rd f i = s.rd f i := by
  simp only [State.rd, s.raiseLevel_reg n b detail i f.word hw hg]

theorem State.rd_lt (s : State) (f : Fld) (i : Nat) : s.rd f i < 2 ^ f.width := f.get_lt _

/-- A store to a field touches the registers alone. -/
theorem State.wr_frame (s : State) (f : Fld) (x i : Nat) : s.wr f x i = { s with regs := (s.wr f x i).regs } := rfl

/-- A store to a field leaves every other register alone. -/
theorem State.wr_regsSameBut (s : State) (f : Fld) (x i : Nat) (h : f.word < 4096) :
    s.regsSameBut (s.wr f x i) [(i, f.word)] := by
  intro j w hw other
  refine s.reg_setReg_other i f.word j w _ fun e => other ?_
  obtain ⟨rfl, rfl⟩ : j = i ∧ w = f.word := by omega
  exact List.mem_singleton_self _

/-- A one-bit field reads back the bit stored to it. -/
theorem State.on_wrBit_self (s : State) (f : Fld) (b : Bool) (i : Nat) (h : f.fits) (w : f.width = 1) :
    (s.wrBit f b i).on f i = b := by
  rw [State.on, State.wrBit_eq, s.rd_wr_self f _ i h, w]
  cases b <;> rfl

/-- An OR with one bit, cut to a width above it, has that bit. -/
theorem testBit_or_two_pow_mod (x : Nat) {k n : Nat} (h : k < n) : ((x ||| 2 ^ k) % 2 ^ n).testBit k = true := by
  simp [Nat.testBit_mod_two_pow, h]

/-- An AND with a mask that lacks one bit, cut to any width, lacks that bit. -/
theorem testBit_and_mask_mod (x n : Nat) {m k : Nat} (h : m.testBit k = false) : ((x &&& m) % 2 ^ n).testBit k = false := by
  simp [Nat.testBit_mod_two_pow, h]

/-- The flags of a die that fails, and its source: what `State.sioFails` ends with. -/
def State.flagDie (s : State) (d : Nat) : State :=
  let t := s.wr Reg.GL_DIESTAT_SIO_OK (s.rd Reg.GL_DIESTAT_SIO_OK &&& (15 - 2 ^ d))
  (t.wr Reg.GL_DIESTAT_SIO_FAULT (t.rd Reg.GL_DIESTAT_SIO_FAULT ||| 2 ^ d)).raiseLevel (260 + d) true d

theorem State.sioFails_ends (s : State) (d : Nat) : ∃ u : State, s.sioFails d = u.flagDie d := by
  unfold State.sioFails
  extract_lets u
  exact ⟨u, rfl⟩

/-- A die that fails has its FAULT bit set, its OK bit clear and its source asserted (R13). -/
theorem State.flagDie_flags (s : State) (d : Fin 4) :
    ((s.flagDie d).rd Reg.GL_DIESTAT_SIO_FAULT).testBit d = true ∧
    ((s.flagDie d).rd Reg.GL_DIESTAT_SIO_OK).testBit d = false ∧ ((s.flagDie d).src (260 + d)).input = true := by
  have mask : (15 - 2 ^ d.val).testBit d.val = false := by revert d; decide
  unfold State.flagDie
  refine ⟨?_, ?_, State.raiseLevel_input ..⟩
  · simp (disch := decide) only [State.rd_raiseLevel, State.rd_wr_self]
    exact testBit_or_two_pow_mod _ d.isLt
  · simp (disch := decide) only [State.rd_raiseLevel, State.rd_wr_apart, State.rd_wr_self]
    exact testBit_and_mask_mod _ _ mask

/-- A stack that fails has its FAULT bit set, its OK bit clear and its source asserted, and the flags of the dies stay (R14). -/
theorem State.hbmFails_flags (s : State) (h : Fin 2) :
    (s.hbmFails h).rd Reg.GL_DIESTAT_HBM_FAULT = s.rd Reg.GL_DIESTAT_HBM_FAULT ||| 2 ^ h.val ∧
    ((s.hbmFails h).rd Reg.GL_DIESTAT_HBM_OK).testBit h = false ∧ ((s.hbmFails h).src (264 + h)).input = true ∧
    (s.hbmFails h).rd Reg.GL_DIESTAT_SIO_OK = s.rd Reg.GL_DIESTAT_SIO_OK ∧
    (s.hbmFails h).rd Reg.GL_DIESTAT_SIO_FAULT = s.rd Reg.GL_DIESTAT_SIO_FAULT := by
  have mask : (3 - 2 ^ h.val).testBit h.val = false := by revert h; decide
  have fits : s.rd Reg.GL_DIESTAT_HBM_FAULT ||| 2 ^ h.val < 2 ^ 2 :=
    Nat.or_lt_two_pow (s.rd_lt _ _) (Nat.pow_lt_pow_right (by decide) h.isLt)
  unfold State.hbmFails
  refine ⟨?_, ?_, State.raiseLevel_input .., ?_, ?_⟩
  · simp (disch := decide) only [State.rd_raiseLevel, State.rd_wr_apart, State.rd_wr_self]
    exact Nat.mod_eq_of_lt fits
  · simp (disch := decide) only [State.rd_raiseLevel, State.rd_wr_apart, State.rd_wr_self]
    exact testBit_and_mask_mod _ _ mask
  · simp (disch := decide) only [State.rd_raiseLevel, State.rd_wr_apart]
  · simp (disch := decide) only [State.rd_raiseLevel, State.rd_wr_apart]

/-- Cancelling a Fresco leaves none pending (R56). -/
theorem State.cancelFresco_pending (s : State) : s.cancelFresco.on Reg.TB_STAT_FR_PENDING = false := by
  unfold State.cancelFresco
  split
  · simp (disch := decide) only [State.on, State.rd_wr_apart, State.rd_wr_self]
    rfl
  · exact Bool.eq_false_iff.mpr ‹_›

/-- Cancelling a Fresco leaves EPOCH_VALID, a field of the word it writes, alone. -/
theorem State.cancelFresco_epoch (s : State) : s.cancelFresco.rd Reg.TB_STAT_EPOCH_VALID = s.rd Reg.TB_STAT_EPOCH_VALID := by
  unfold State.cancelFresco
  split
  · simp (disch := decide) only [State.rd_wr_apart]
  · rfl

theorem State.cancelFresco_tb (s : State) : s.cancelFresco.tb = s.tb := by
  unfold State.cancelFresco
  split
  · simp only [State.wr_tb]
  · rfl

/-- The registers at the end of a loss of lock: the epoch, an armed Solstice and a pending Fresco go, and LOCK_LOST is set (R19,
R52, R56). -/
def State.flagLock (s : State) : State :=
  ((s.wr Reg.TB_STAT_EPOCH_VALID 0).cancelSolstice.cancelFresco.wr Reg.GL_CLKSTAT_LOCK_LOST 1).incSat Reg.GL_CLKSTAT_LOSS_CNT

/-- Then lock itself goes, and the engines stop: what `execLossOfLock` ends with. -/
def State.loseLock (s : State) : State :=
  { s.flagLock with clk := { s.flagLock.clk with locked := false, stopped := true } }

theorem execLossOfLock_ends (s : State) (h : s.clk.locked = true) : ∃ u : State, execLossOfLock s = .next u.loseLock := by
  unfold execLossOfLock
  rw [if_neg (by simp [h])]
  extract_lets _ _ _ u
  exact ⟨u, rfl⟩

/-- Registers read alike whatever the clock does. -/
theorem State.on_setClk (s : State) (c : Clock) (f : Fld) : ({ s with clk := c } : State).on f = s.on f := rfl

theorem State.loseLock_on (s : State) (f : Fld) : s.loseLock.on f = s.flagLock.on f := s.flagLock.on_setClk _ f

theorem State.loseLock_lockLost (s : State) : s.loseLock.on Reg.GL_CLKSTAT_LOCK_LOST = true := by
  rw [State.loseLock_on]
  simp (disch := decide) only [State.flagLock, State.on, State.incSat_eq, State.rd_wr_apart, State.rd_wr_self]
  rfl

theorem State.loseLock_epoch (s : State) : s.loseLock.on Reg.TB_STAT_EPOCH_VALID = false := by
  have cancelled (t : State) : t.cancelSolstice.rd Reg.TB_STAT_EPOCH_VALID = t.rd Reg.TB_STAT_EPOCH_VALID := rfl
  rw [State.loseLock_on]
  simp (disch := decide) only [State.flagLock, State.on, State.incSat_eq, State.rd_wr_word, State.cancelFresco_epoch,
    cancelled, State.rd_wr_self]
  rfl

theorem State.loseLock_fresco (s : State) : s.loseLock.on Reg.TB_STAT_FR_PENDING = false := by
  rw [State.loseLock_on]
  simp (disch := decide) only [State.flagLock, State.on, State.incSat_eq, State.rd_wr_word]
  exact State.cancelFresco_pending _

theorem State.loseLock_tb (s : State) : s.loseLock.tb = { s.tb with armedAt := none, commit := none } := by
  simp only [State.loseLock, State.flagLock, State.incSat_eq, State.wr_tb, State.cancelFresco_tb, State.cancelSolstice]

/-- REFCLK alone changes when its toggling does (R33). -/
theorem execRefclkToggleChange_shows (ok : Bool) (s : State) : ∃ t, exec (.refclkToggleChange ok) s = .next t ∧
    t = { s with regs := t.regs } ∧ t.on Reg.GL_CLKSTAT_REFCLK = ok ∧
    t.rd Reg.GL_CLKSTAT_LOSS_CNT = s.rd Reg.GL_CLKSTAT_LOSS_CNT ∧
    t.on Reg.GL_CLKSTAT_LOCK_LOST = s.on Reg.GL_CLKSTAT_LOCK_LOST ∧ s.regsSameBut t [(0, 0x003)] := by
  refine ⟨s.wrBit Reg.GL_CLKSTAT_REFCLK ok, rfl, s.wr_frame _ _ _, s.on_wrBit_self _ ok 0 (by decide) rfl, ?_, ?_,
    s.wr_regsSameBut _ _ _ (by decide)⟩
  · exact s.rd_wr_apart _ _ _ _ _ rfl (by decide) (by decide)
  · exact congrArg (· == 1) (s.rd_wr_apart _ _ _ _ _ rfl (by decide) (by decide))

/-- Settles O12: the flags that failing dies and stacks and a loss of lock write last. -/
theorem faultsOfDiesAndClock : Obligations.FaultsOfDiesAndClock := by
  refine ⟨fun s run => ⟨fun d ok => ?_, fun h ok => ?_, fun d bad => ?_, fun h bad => ?_⟩,
    fun s => ⟨fun lock => ?_, fun ok => ?_⟩⟩
  · obtain ⟨u, e⟩ := s.sioFails_ends d
    exact ⟨u.flagDie d, congrArg Host.Outcome.next ((if_pos (by simp [run, ok])).trans e), u.flagDie_flags d⟩
  · exact ⟨s.hbmFails h, congrArg Host.Outcome.next (if_pos (by simp [run, ok])), s.hbmFails_flags h⟩
  · exact congrArg Host.Outcome.next (if_neg (by simp [bad]))
  · exact congrArg Host.Outcome.next (if_neg (by simp [bad]))
  · obtain ⟨u, e⟩ := execLossOfLock_ends s lock
    have lost := u.loseLock_lockLost
    refine ⟨u.loseLock, e, lost, rfl, rfl, rfl, ?_, u.loseLock_epoch, u.loseLock_fresco, ?_, ?_⟩
    · simp [State.attn, lost]
    · rw [u.loseLock_tb]
    · rw [u.loseLock_tb]
  · exact execRefclkToggleChange_shows ok s

end Sys2Proof.Machine
end

section
namespace Sys2Proof.Machine

/-! ### Host reads: the words they touch -/

/-- The words that a read of `n` bytes from an offset touches, by what stands at each place. -/
def wordsAt (f : Nat → Word) (offset n : Nat) : List Word :=
  (List.range ((offset + n + 3) / 4 - offset / 4)).map (fun k => f (offset / 4 + k))

@[simp] theorem wordsAt_length (f : Nat → Word) (offset n : Nat) :
    (wordsAt f offset n).length = (offset + n + 3) / 4 - offset / 4 := by simp [wordsAt]

theorem wordsAt_getElem? (f : Nat → Word) (offset n : Nat) {k : Nat} (h : k < (wordsAt f offset n).length) :
    (wordsAt f offset n)[k]? = some (f (offset / 4 + k)) := by
  rw [wordsAt_length] at h
  simp [wordsAt, h]

theorem exec_statusMirrorRead (s : State) (offset n : Nat) (run : s.running = true) (up : s.link.up = true) :
    exec (.statusMirrorRead offset n) s = .next (s.emit (.readData (wordsAt s.mirrorWord offset n))) :=
  if_pos (by simp [run, up])

theorem exec_hostReadUnimpl (s : State) (bar2 : Bool) (offset n : Nat) (up : s.link.up = true)
    (here : readElsewhere bar2 (offset / 4) ((offset + n + 3) / 4) = false) :
    exec (.hostReadUnimpl bar2 offset n) s = .next (s.emit (.readData (wordsAt (s.barWord bar2) offset n))) :=
  congrArg Host.Outcome.next (if_neg (by simp [up, here]))

/-! ### The status mirror by its regions (R172) -/

variable (s : State)

theorem State.mirrorWord_reg {w : Nat} (h : w < 0x300) : s.mirrorWord w = s.mirrorReg w := if_pos h

theorem State.mirrorWord_ring (r : RingIx) (j : Fin 4) :
    s.mirrorWord (0x400 + 4 * r.val + j.val) = s.view r.val ([0x507, 0x508, 0x509, 0x50B].getD j.val 0x507) := by
  have hr : (0x400 + 4 * r.val + j.val - 0x400) / 4 = r.val := by omega
  have hj : (0x400 + 4 * r.val + j.val - 0x400) % 4 = j.val := by omega
  rw [State.mirrorWord, if_neg (by omega), if_pos (by omega), hr, hj]

theorem State.mirrorWord_port (p : PortIx) (j : Fin 4) :
    s.mirrorWord (0x2000 + 4 * p.val + j.val) = s.view p.val ([0x403, 0x40D, 0x416, 0x417].getD j.val 0x403) := by
  have hp : (0x2000 + 4 * p.val + j.val - 0x2000) / 4 = p.val := by omega
  have hj : (0x2000 + 4 * p.val + j.val - 0x2000) % 4 = j.val := by omega
  rw [State.mirrorWord, if_neg (by omega), if_neg (by omega), if_pos (by omega), hp, hj]

theorem State.mirrorWord_outside {w : Nat} (h : (0x300 ≤ w ∧ w < 0x400) ∨ (0x800 ≤ w ∧ w < 0x2000) ∨ 0x4000 ≤ w) :
    s.mirrorWord w = 0 := by
  rw [State.mirrorWord, if_neg (by omega), if_neg (by omega), if_neg (by omega)]

theorem State.mirrorReg_hidden {w : Nat} (h : w = 0x228 ∨ w = 0x094 ∨ implemented w = false ∨ s.selAll w = true) :
    s.mirrorReg w = 0 := by
  refine if_pos ?_
  rcases h with h | h | h | h <;> simp [h]

theorem State.mirrorReg_nowHi : s.mirrorReg 0x082 = (s.c >>> 32).truncate 32 := by
  have here : implemented 0x082 = true := by decide +kernel
  have one : s.selAll 0x082 = false := rfl
  rw [State.mirrorReg, if_neg (by simp [here, one]), if_pos rfl]

theorem State.mirrorReg_view {w : Nat} (here : implemented w = true) (one : s.selAll w = false) (h₁ : w ≠ 0x228)
    (h₂ : w ≠ 0x094) (h₃ : w ≠ 0x082) : s.mirrorReg w = s.view (s.selOf w) w := by
  rw [State.mirrorReg, if_neg (by simp [here, one, h₁, h₂]), if_neg h₃]

/-! ### The pages of rings and targets (R170, R172, R283, R288) -/

theorem State.barWord_doorbell (n : Nat) {j : Nat} (h : j < 1024) : s.barWord false (1024 * n + j) = s.doorbellWord n j := by
  have hn : (1024 * n + j) / 0x400 = n := by omega
  have hj : (1024 * n + j) % 0x400 = j := by omega
  rw [State.barWord, if_neg (by decide), hn, hj]

theorem State.barWord_target (t : Fin 16) {j : Nat} (h : j < 1024) :
    s.barWord true (1024 * t.val + j) = if j = 3 then s.privWord t.val else if j = 4 then s.tstatWord t.val else 0 := by
  have ht : (1024 * t.val + j) / 0x400 = t.val := by omega
  have hj : (1024 * t.val + j) % 0x400 = j := by omega
  rw [State.barWord, if_pos rfl, State.targetWord, if_pos (by omega), ht, hj]
  split
  · rfl
  · rfl
  · rw [if_neg ‹_›, if_neg ‹_›]

theorem State.barWord_msix (t : Fin 16) (j : Fin 4) :
    s.barWord true (0x8000 + 4 * t.val + j.val) = s.reg t.val (0x224 + j.val) := by
  have ht : (0x8000 + 4 * t.val + j.val - 0x8000) / 4 = t.val := by omega
  have hj : (0x8000 + 4 * t.val + j.val) % 4 = j.val := by omega
  rw [State.barWord, if_pos rfl, State.targetWord, if_neg (by omega), if_pos (by omega), ht, hj, State.msixWord]

theorem State.barWord_beyond {k : Nat} (h : 0x8040 ≤ k) (pba : k ≠ 0x8400) : s.barWord true k = 0 := by
  rw [State.barWord, if_pos rfl, State.targetWord, if_neg (by omega), if_neg (by omega), if_neg pba]

/-- A word that collects one bit for each number below `n` that satisfies `f` holds those bits. -/
theorem foldl_bits_getLsbD (f : Nat → Bool) (n k : Nat) (h : k < 32) :
    ((List.range n).foldl (fun a t => if f t then a ||| (1#32 <<< t) else a) 0).getLsbD k = (decide (k < n) && f k) := by
  induction n with
  | zero => simp
  | succ n ih =>
    rw [List.range_succ, List.foldl_append, List.foldl_cons, List.foldl_nil]
    have bit : (1#32 <<< n).getLsbD k = decide (k = n) := by
      rw [BitVec.getLsbD_shiftLeft, BitVec.getLsbD_one]
      by_cases e : k = n
      · simp [e]; omega
      · simp [e]; omega
    split
    · rw [BitVec.getLsbD_or, ih, bit]
      by_cases e : k = n
      · simp [e, ‹f n = true›]
      · simp [e, show k < n + 1 ↔ k < n by omega]
    · rw [ih]
      by_cases e : k = n
      · simp [e, ‹¬ f n = true›]
      · simp [show k < n + 1 ↔ k < n by omega]

theorem State.pbaWord_getLsbD (t : Fin 16) : s.pbaWord.getLsbD t.val = s.messageWaits t.val := by
  rw [State.pbaWord, foldl_bits_getLsbD _ _ _ (by omega)]
  simp

/-! ### Host writes outside the writable words -/

/-- A write that is not one whole DWORD at a doorbell, or at one of the four writable words of a target page. -/
theorem hostWritable_eq_false (bar2 : Bool) (w : HostWrite)
    (h : w.full = false ∨ (bar2 = false ∧ w.offset % 4096 ≠ 0) ∨ (bar2 = false ∧ 0x100000 ≤ w.offset) ∨
      (bar2 = true ∧ (16 ≤ w.offset % 4096 ∨ w.offset % 4 ≠ 0)) ∨ (bar2 = true ∧ 0x10000 ≤ w.offset)) :
    hostWritable bar2 w = false := by
  unfold hostWritable
  rcases h with full | ⟨rfl, h⟩ | ⟨rfl, h⟩ | ⟨rfl, h⟩ | ⟨rfl, h⟩
  · simp [full]
  · simp [h]
  · simp [Nat.not_lt.mpr h]
  · have : ¬ w.offset % 0x1000 ∈ [0, 4, 8, 12] := by simp; omega
    simp [this]
  · simp [Nat.not_lt.mpr h]

/-- Such a write is counted in GL_HOSTDROP, up to its largest value, and changes nothing else (R24). -/
theorem exec_hostWriteDiscard (bar2 : Bool) (w : HostWrite) (up : s.link.up = true) (h : hostWritable bar2 w = false) :
    ∃ t, exec (.hostWriteDiscard bar2 w) s = .next t ∧ t = { s with regs := t.regs } ∧ s.regsSameBut t [(0, 0x004)] ∧
      t.rd Reg.GL_HOSTDROP_CNT = min (s.rd Reg.GL_HOSTDROP_CNT + 1) 0xFFFFFFFF := by
  refine ⟨s.incSat Reg.GL_HOSTDROP_CNT, congrArg Host.Outcome.next (if_neg (by simp [up, h])), s.wr_frame _ _ _,
    s.wr_regsSameBut _ _ _ (by decide), ?_⟩
  rw [State.incSat_eq, s.rd_wr_self _ _ _ (by decide)]
  exact Nat.mod_eq_of_lt (Nat.lt_of_le_of_lt (Nat.min_le_right _ _) (by decide))

end Sys2Proof.Machine
end

section
namespace Sys2Proof.Machine

/-- Settles O13: a host write is counted, and each word of a read is the word of its page, table or region. -/
theorem hostAccessOutsideTheMap : Obligations.HostAccessOutsideTheMap := by
  refine fun s bar2 up => ⟨fun w h => exec_hostWriteDiscard s bar2 w up (hostWritable_eq_false bar2 w h),
    fun offset n here => ⟨_, exec_hostReadUnimpl s bar2 offset n up here, wordsAt_length .., fun k hk => ?_⟩,
    fun offset n run => ⟨_, exec_statusMirrorRead s offset n run up, fun k w hk hw out => ?_⟩⟩
  · rw [wordsAt_getElem? _ _ _ hk]
    refine ⟨?_, ?_, ?_, ?_, ?_⟩
    · rintro r j rfl e hj
      rw [e, s.barWord_doorbell r.val hj]
      match j with
      | 0 | 1 | 2 | _ + 3 => rfl
    · rintro t j rfl e hj
      rw [e, s.barWord_target t hj]
    · rintro t j rfl e
      rw [e, s.barWord_msix t j]
    · rintro v rfl e hv t
      rw [e] at hv
      cases hv
      exact s.pbaWord_getLsbD t
    · rintro rfl e pba
      rw [s.barWord_beyond e pba]
  · rw [wordsAt_getElem? _ _ _ hk, ← hw]
    rcases out with ⟨low, none⟩ | out
    · rw [s.mirrorWord_reg low, s.mirrorReg_hidden (.inr (.inr (.inl none)))]
    · rw [s.mirrorWord_outside out]

/-- Settles O14: each word of the answer is the mirror's word at its place. -/
theorem statusMirrorShowsTheChainView : Obligations.StatusMirrorShowsTheChainView := by
  refine fun s offset n run up => ⟨_, exec_statusMirrorRead s offset n run up, wordsAt_length .., ?_, ?_, ?_⟩
  · intro k w hk hw low
    rw [wordsAt_getElem? _ _ _ hk, ← hw, s.mirrorWord_reg low]
    refine ⟨fun here one h₁ h₂ h₃ => ?_, ?_, fun hidden => ?_⟩
    · rw [s.mirrorReg_view here one h₁ h₂ h₃]
    · rintro rfl
      rw [s.mirrorReg_nowHi]
    · rw [s.mirrorReg_hidden hidden]
  · intro k r j hk hw
    rw [wordsAt_getElem? _ _ _ hk, hw, s.mirrorWord_ring]
    match j with
    | 0 | 1 | 2 | 3 => rfl
  · intro k p j hk hw
    rw [wordsAt_getElem? _ _ _ hk, hw, s.mirrorWord_port]
    match j with
    | 0 | 1 | 2 | 3 => rfl

end Sys2Proof.Machine
end

section
namespace Sys2Proof.Machine

/-! ### An event that is still on its way during a replay

During a replay one entry of the recorder is passed per 2 DCLK (R93), but no entry reaches the core before the 16 DCLK from its
sampling edge are over (R21): the replay has then caught up with the live transitions. -/

/-- A start transition of port 0, sampled at the present edge. -/
def startSampledNow : PinEvent := { high := false, glitch := false, s1 := 1599990, s2 := 1599998, edge := 100000 }

/-- A device in service whose port 0, in TRACK after mark, replays its recorder up to that transition. -/
def replayCatchesUp : State :=
  { clk := { locked := true, once := true }, boot := { stage := .ready, fusesRead := true, vAt := some 0, octTaken := 8 },
    now := 100000, c := 1600000#64,
    ports := [(0, { rx := .track, replay := true, trk := { period := 1677721600, sawMark := true } })],
    pins := [(1, { recorder := [startSampledNow], fresh := 1 })] }

/-- The transition reaches the core 16 DCLK after its sampling edge, not 2 DCLK after the present one. -/
theorem replayCatchesUp_now : Ends (fun t => t.now = 100016) (exec (.edgeEventAtCore 0) replayCatchesUp) := rfl

/-- Refutes O26: at the end of a replay an entry takes the 16 DCLK of a live transition. -/
theorem not_eventsReachTheTracker : ¬ Obligations.EventsReachTheTracker := by
  unfold Obligations.EventsReachTheTracker
  intro h
  obtain ⟨start, -⟩ := h replayCatchesUp 0 startSampledNow [] (by decide) (by decide) (by decide) (by decide) (by decide)
  obtain ⟨t, e, -, -, now, -⟩ := start (by decide) (by decide) (by decide) (.inl (by decide))
  have late : t.now = 100016 := replayCatchesUp_now.of_next e
  have two : t.now = 100002 := now
  omega

end Sys2Proof.Machine
end

section
namespace Sys2Proof.Machine

/-! ### Time and the step -/

/-- Settles O5: C and the edges go together in what every command but those four keeps (`exec_keeps`). -/
theorem counterAdvancesSixteenPerEdge : Obligations.CounterAdvancesSixteenPerEdge := by
  intro i s t e h₁ h₂ h₃ h₄
  have k := (exec_keeps i s h₁ h₂ h₃ h₄).of_next e
  exact ⟨k.mono, k.scale⟩

/-- One DCLK edge is 16 ticks of C (R35). -/
theorem State.advance_one (s : State) : s.advance (s.now + 1) = { s with now := s.now + 1, c := s.c + 16 } := by
  rw [State.advance, if_pos s.now.lt_succ_self, Nat.add_sub_cancel_left]
  rfl

/-- Settles O1: by the cases of a step, on the queue and on whether DCLK is valid. -/
theorem stepRunsTheFrontCommandOrPassesOneEdge : Obligations.StepRunsTheFrontCommandOrPassesOneEdge := by
  refine ⟨fun s c rest front => ?_, fun s idle => ⟨fun on => ?_, fun off => ?_⟩⟩
  · simp only [step, front]
  · simp only [step, idle, on, if_true, s.advance_one]
  · simp only [step, idle, off, Bool.false_eq_true, if_false]

end Sys2Proof.Machine
end

section
namespace Sys2Proof.Machine

/-! ### What an answer determines -/

/-- An answer has one word of data. -/
theorem State.answers_data {t : State} {c d : Code} {x y : Word} (h : t.answers c x) (k : t.answers d y) : x = y := by
  obtain ⟨r, e, -, hx⟩ := h
  obtain ⟨q, f, -, hy⟩ := k
  rw [← hx, ← hy, Option.some.inj (e.symm.trans f)]

/-- An answer has one code. -/
theorem State.answers_code {t : State} {c d : Code} {x y : Word} (h : t.answers c x) (k : t.answers d y) : c = d := by
  obtain ⟨r, e, hc, -⟩ := h
  obtain ⟨q, f, hd, -⟩ := k
  rw [← hc, ← hd, Option.some.inj (e.symm.trans f)]

end Sys2Proof.Machine
end

section
namespace Sys2Proof.Machine

/-! ### A snapshot of a level group

TB_FR_ADDR_INST names what the SEL of the word's window would: for a word of a level group (0x610 to 0x615) it names
a station, and the group is the one that station lies in, 16 stations to a group. The snapshot read back is the group's, not
one kept under the number of the station. -/

/-- A device whose snapshot holds ST_LGSTAT of the groups 1 and 16, with TB_FR_ADDR at station 16, which lies in group 1. -/
def snapshotOfGroup : State :=
  { eventSourceSelected with
    regs := [(0x080, Reg.TB_STAT_FR_VALID.set 0 1),
             (0x093, Reg.TB_FR_ADDR_INST.set (Reg.TB_FR_ADDR_WORD.set 0 0x615) 16)],
    tb := { snap := [(1 * 4096 + 0x615, 1), (16 * 4096 + 0x615, 2)] } }

/-- The read answers what the snapshot holds of group 1. -/
theorem snapshotOfGroup_read : ∃ t, exec .frDataRead snapshotOfGroup = .next t ∧ t.answers Code.ok 1 := by
  have taken : snapshotOfGroup.takesRead (0x094 : BitVec 12).toNat = true := by decide +kernel
  have shown : snapshotOfGroup.readValue false (snapshotOfGroup.selOf (0x094 : BitVec 12).toNat) (0x094 : BitVec 12).toNat = 1 := by
    decide +kernel
  refine ⟨_, rfl, ?_⟩
  rw [State.readWord_takes _ _ taken, shown]
  exact State.respond_answers ..

/-- Refutes O9: the statement takes the word kept under number 16 where the read answers that of group 1. -/
theorem not_readsLatchWhatTheyShow : ¬ Obligations.ReadsLatchWhatTheyShow := by
  unfold Obligations.ReadsLatchWhatTheyShow
  rintro ⟨-, -, snapshot, -⟩
  obtain ⟨valid, -⟩ := snapshot snapshotOfGroup (by decide) (by decide)
  obtain ⟨t, e, claimed, -⟩ := valid (by decide +kernel)
  obtain ⟨u, f, shown⟩ := snapshotOfGroup_read
  obtain rfl : t = u := Host.Outcome.next.inj (e.symm.trans f)
  exact absurd (State.answers_data shown claimed) (by decide +kernel)

end Sys2Proof.Machine
end

section
namespace Sys2Proof.Machine

/-! ### The word a start of the calibration answers

TB_CAL_CTL has one field, the strobe RUN: a write stores nothing, and the read that gives the response data (R320) shows the
stored word as it stands. That this word is 0 holds from reset on, but the statement is about every state. -/

/-- A device in service, with a bit in the stored word of TB_CAL_CTL that no field holds. -/
def strobeWordHolds : State := { eventSourceSelected with regs := [(0x08C, 2)] }

/-- The measurement starts, and the response shows that bit. -/
theorem strobeWordHolds_run : ∃ t, exec (.calRun 1) strobeWordHolds = .next t ∧ t.answers Code.ok 2 := by
  have taken : strobeWordHolds.takesWrite (0x08C : BitVec 12).toNat 1 = true := by decide +kernel
  have stays : (strobeWordHolds.applyWrite [((0x08C : BitVec 12).toNat, 1)] []).chain.assigned = true := by decide +kernel
  have shown : (strobeWordHolds.applyWrite [((0x08C : BitVec 12).toNat, 1)] []).afterWrite (0x08C : BitVec 12).toNat = 2 := by
    decide +kernel
  refine ⟨_, rfl, ?_⟩
  rw [State.writeWord_takes _ _ _ taken, ← shown]
  exact State.answerWrite_answers _ _ _ _ stays

/-- Refutes O15: the answer of an accepted RUN is the stored word, 2 in this state, and not 0. -/
theorem not_calibrationRunsAndReports : ¬ Obligations.CalibrationRunsAndReports := by
  unfold Obligations.CalibrationRunsAndReports
  rintro ⟨runs, -⟩
  obtain ⟨starts, -⟩ := runs strobeWordHolds (by decide)
  obtain ⟨t, e, claimed, -⟩ := starts (by decide +kernel) rfl (by decide +kernel) rfl
  obtain ⟨u, f, shown⟩ := strobeWordHolds_run
  obtain rfl : t = u := Host.Outcome.next.inj (e.symm.trans f)
  exact absurd (State.answers_data shown claimed) (by decide)

end Sys2Proof.Machine
end

section
namespace Sys2Proof.Machine

/-! ### A burst that runs past the map

A burst read whose words reach past 0xFFF answers E_RANGE with the words that it has (R318, R321). One from TB_NOW_LO does so
from 3,968 words on. CH_LEN_K allows no such length, but the statement is about every length in force. -/

/-- A state that lets every word be read refuses no burst. -/
theorem State.burstRefusal_eq_ok (s : State) (a n : Nat) (h : ∀ w, s.readCode (s.selOf w) w = Code.ok) :
    s.burstRefusal a n = Code.ok := by
  unfold State.burstRefusal
  generalize (List.range n).map (· + a) = l
  induction l with
  | nil => rfl
  | cons w l ih => simpa only [List.foldl_cons, h, ite_self, Code.andThen] using ih

/-- A burst past the map that the state does not refuse answers E_RANGE. -/
theorem State.readBurst_far (s : State) (head : BitVec 64) (a : BitVec 12) (n : Nat) (h : s.burstRefusal a.toNat n = Code.ok)
    (far : 0x1000 < a.toNat + n) :
    s.readBurst head a n = (s.burstWords a.toNat n).2.respond head Code.range ((s.burstWords a.toNat n).1.headD 0)
      (s.burstWords a.toNat n).1.tail (48 + 4 * n) := by
  simp only [State.readBurst, h, far, ne_eq, not_true_eq_false, if_false, decide_true, if_true]

/-- A READ of as many words as the slot holds, two or more, is a burst read. -/
theorem State.chainRead_burst (s : State) (a : BitVec 12) (n : Nat) (on : s.chainOn = true) (free : s.hinge.mirror = none)
    (due : s.chain.lenNext = none) (mode : s.chain.mode ≠ .broadcast) (more : 2 ≤ n) (len : s.chain.len = n) :
    s.chainRead a n = s.readBurst (slotHead 1 a 0) a n := by
  have count : n = max 1 n := by omega
  have long : ¬ n = 0 := by omega
  simp only [State.chainRead, State.slotLong, State.slotAlone, State.chainBusy, State.ownFrame, State.runRead, on, free, due, len,
    ← count, State.chainDue_eq s due, mode]
  simp [long]

/-- A device in service whose slots hold 4,000 words, with a snapshot to read. -/
def beyondTheMap : State :=
  { eventSourceSelected with chain := { assigned := true, len := 4000 }, regs := [(0x080, Reg.TB_STAT_FR_VALID.set 0 1)] }

/-- Its snapshot stands, no master is busy, and no aperture shows the flash block. -/
theorem beyondTheMap_readable (w : Nat) : beyondTheMap.readCode (beyondTheMap.selOf w) w = Code.ok := by
  unfold State.readCode
  split
  · decide +kernel
  · have idle (i : Nat) : beyondTheMap.flashView i = false := by
      by_cases h : i = 0
      · subst h
        decide +kernel
      · simp [State.flashView, h]
    unfold axRead
    split
    · rfl
    · rw [idle]
      rfl

/-- The word that steers a window is a SEL word (R9). -/
theorem windowSel_isSel (w : Nat) : (windowSel w).all isSel = true := by
  unfold windowSel
  repeat' split
  all_goals rfl

/-- None of its SEL words names all instances. -/
theorem beyondTheMap_selAll (w : Nat) : beyondTheMap.selAll w = false := by
  have sels : ∀ x ∈ [0x0A0, 0x200, 0x220, 0x300, 0x400, 0x500, 0x600, 0x700, 0x800, 0x880, 0x900],
      (beyondTheMap.reg 0 x == 0xFFFF#32) = false := by decide +kernel
  have sel := windowSel_isSel w
  unfold State.selAll
  cases h : windowSel w with
  | none => rfl
  | some x =>
    rw [h] at sel
    exact sels x (List.contains_iff_mem.mp sel)

/-- Refutes O60: a burst of 4,000 words from TB_NOW_LO answers E_RANGE. -/
theorem not_theTimeReadsConsistently : ¬ Obligations.TheTimeReadsConsistently := by
  unfold Obligations.TheTimeReadsConsistently
  intro h
  obtain ⟨-, -, burst⟩ := h beyondTheMap
  have refused : beyondTheMap.burstRefusal (0x081 : BitVec 12).toNat 4000 = Code.ok :=
    State.burstRefusal_eq_ok _ _ _ beyondTheMap_readable
  obtain ⟨t, r, e, resp, ok, -⟩ := burst 4000 (by decide) rfl rfl (by decide) (by decide) rfl refused
    (fun w _ _ => beyondTheMap_selAll w)
  have range : ∃ x, t.answers Code.range x := by
    rw [← Host.Outcome.next.inj e, beyondTheMap.chainRead_burst 0x081 4000 (by decide) rfl rfl (by decide) (by decide) rfl,
      State.readBurst_far _ _ _ _ refused (by decide)]
    exact ⟨_, State.respond_answers ..⟩
  obtain ⟨x, range⟩ := range
  exact absurd (State.answers_code range ⟨r, resp, ok, rfl⟩) (by decide)

end Sys2Proof.Machine
end

section
namespace Sys2Proof.Machine

/-! ### Frames of the operations the timebase uses -/

variable (s : State)

/-- Letting time pass touches the edge count and C alone. -/
theorem State.advance_eq (n : Nat) : ∃ x, s.advance n = { s with now := max s.now n, c := x } := by
  unfold State.advance
  split
  · exact ⟨_, by rw [Nat.max_eq_right (by omega)]⟩
  · exact ⟨s.c, by rw [Nat.max_eq_left (by omega)]⟩

@[simp] theorem State.advance_now (n : Nat) : (s.advance n).now = max s.now n := by
  obtain ⟨x, e⟩ := s.advance_eq n
  rw [e]

@[simp] theorem State.advance_regs (n : Nat) : (s.advance n).regs = s.regs := by
  obtain ⟨x, e⟩ := s.advance_eq n
  rw [e]

@[simp] theorem State.advance_tb (n : Nat) : (s.advance n).tb = s.tb := by
  obtain ⟨x, e⟩ := s.advance_eq n
  rw [e]

@[simp] theorem State.advance_hinge (n : Nat) : (s.advance n).hinge = s.hinge := by
  obtain ⟨x, e⟩ := s.advance_eq n
  rw [e]

@[simp] theorem State.advance_out (n : Nat) : (s.advance n).out = s.out := by
  obtain ⟨x, e⟩ := s.advance_eq n
  rw [e]

@[simp] theorem State.rd_advance (n : Nat) (f : Fld) (i : Nat) : (s.advance n).rd f i = s.rd f i :=
  s.rd_congr _ (s.advance_regs n) f i

/-- Registers read alike whatever the timebase holds. -/
theorem State.rd_setTb (x : Timebase) (f : Fld) (i : Nat) : ({ s with tb := x } : State).rd f i = s.rd f i := rfl

@[simp] theorem State.raiseEvent_tb (n detail : Nat) (port : Option Nat) : (s.raiseEvent n detail port).tb = s.tb := by
  obtain ⟨t, x, h, e⟩ := s.raiseEvent_eq n detail port
  rw [e]
  exact h.tb

@[simp] theorem State.raiseEvent_now (n detail : Nat) (port : Option Nat) : (s.raiseEvent n detail port).now = s.now := by
  obtain ⟨t, x, h, e⟩ := s.raiseEvent_eq n detail port
  rw [e]
  exact h.now

@[simp] theorem State.raiseEvent_c (n detail : Nat) (port : Option Nat) : (s.raiseEvent n detail port).c = s.c := by
  obtain ⟨t, x, h, e⟩ := s.raiseEvent_eq n detail port
  rw [e]
  exact h.c

/-- Raising an event leaves every field outside the commit-gated words alone. -/
theorem State.rd_raiseEvent (n detail : Nat) (port : Option Nat) (f : Fld) (i : Nat) (hw : f.word < 4096)
    (hg : gatedWord f.word = false) : (s.raiseEvent n detail port).rd f i = s.rd f i := by
  simp only [State.rd, s.raiseEvent_reg n detail port i f.word hw hg]

/-! ### What records put out

Forming records puts out messages to the peer alone, so that raising an event leaves SYNC_OUT as it is. -/

/-- What `s` has put out since `r` is no change of SYNC_OUT. -/
def NoSyncOut (r s : State) : Prop := ∃ l, s.out = r.out ++ l ∧ ∀ b n, Out.syncOut b n ∉ l

namespace NoSyncOut

variable {r s t : State}

theorem of_out_eq (h : s.out = r.out) : NoSyncOut r s := ⟨[], by simp [h], by simp⟩

theorem trans (h : NoSyncOut r s) (k : NoSyncOut s t) : NoSyncOut r t := by
  obtain ⟨l, e, hl⟩ := h
  obtain ⟨m, f, hm⟩ := k
  exact ⟨l ++ m, by rw [f, e, List.append_assoc], fun b n => by simp [hl b n, hm b n]⟩

theorem hinge (m : HingeMsg) : NoSyncOut s (s.emit (.hinge m)) := ⟨[.hinge m], rfl, by simp⟩

theorem setTb (x : Timebase) : NoSyncOut s { s with tb := x } := of_out_eq rfl

end NoSyncOut

theorem State.move_out (g : Gated) : (s.move g).out = s.out := by
  unfold State.move
  split
  · rfl
  · split <;> rfl

theorem State.settle_out : s.settle.out = s.out := by
  unfold State.settle
  exact List.foldlRecOn (motive := fun t : State => t.out = s.out) _ _ rfl (fun t h g _ => (t.move_out g).trans h)

theorem State.count_out (m : Move) (f : Fld) (i n : Nat) (waits : List Nat) (own : Bool) :
    (s.count m f i n waits own).out = s.out := State.settle_out _

theorem State.noteStaging_out : s.noteStaging.out = s.out := by
  unfold State.noteStaging
  dsimp only
  split
  · rfl
  · split <;> rfl

theorem State.srcEvent_out (n : Nat) (stamp : Stamp) (rec : Option Nat) : (s.srcEvent n stamp rec).out = s.out := by
  obtain ⟨x, e⟩ := s.srcEvent_eq n stamp rec
  rw [e]

theorem State.raiseMute_out (x : Rec) : (s.raiseMute x).out = s.out := by
  unfold State.raiseMute
  split
  · exact State.srcEvent_out _ _ _ _
  · rfl

theorem State.gapLoss_out (l : Loss) : (s.gapLoss l).2.out = s.out := by
  unfold State.gapLoss
  split <;> rfl

theorem State.stage_out (x : Rec) : (s.stage x).out = s.out := State.noteStaging_out _

theorem State.sendMark_noSyncOut (x : Rec) : NoSyncOut s (s.sendMark x) := by
  unfold State.sendMark
  split
  · exact .hinge _
  · exact .of_out_eq rfl

/-- A record mark is all that forming a record puts out (R242). -/
theorem State.form_noSyncOut (x : Rec) (since : Option Nat) : NoSyncOut s (s.form x since).2 := by
  have staged (t : State) (h : t.out = s.out) (y : Rec) : NoSyncOut s ((t.stage y).sendMark y) :=
    (NoSyncOut.of_out_eq ((t.stage_out y).trans h)).trans ((t.stage y).sendMark_noSyncOut y)
  unfold State.form
  dsimp only
  refine staged _ ?_ _
  rfl

theorem State.formPlace_noSyncOut (x : Rec) : NoSyncOut s (s.formPlace x).2 :=
  (s.form_noSyncOut _ none).trans (.of_out_eq (State.raiseMute_out _ _))

theorem State.formGap_noSyncOut (w : GapWait) : NoSyncOut s (s.formGap w) := by
  unfold State.formGap
  dsimp only
  have closed : NoSyncOut s ((s.noteHp w.ring).gapLoss w.loss).2 := .of_out_eq ((s.noteHp w.ring).gapLoss_out w.loss)
  have formed (x : Rec) : NoSyncOut s (((s.noteHp w.ring).gapLoss w.loss).2.formPlace x).2 :=
    closed.trans (State.formPlace_noSyncOut _ x)
  have counted (t : State) (h : NoSyncOut s t) (m : Move) (f : Fld) (i n : Nat) (waits : List Nat) :
      NoSyncOut s (t.count m f i n waits) := h.trans (.of_out_eq (t.count_out m f i n waits true))
  refine counted _ (counted _ ?_ _ _ _ _ _) _ _ _ _ _
  split
  · exact counted _ (formed _) _ _ _ _ _
  · exact formed _

theorem State.dueGap_noSyncOut (w : GapWait) : NoSyncOut s (s.dueGap w) := by
  unfold State.dueGap
  split
  · exact .of_out_eq rfl
  · exact s.formGap_noSyncOut w

theorem State.eventRecord_noSyncOut (n detail : Nat) (port : Option Nat) : NoSyncOut s (s.eventRecord n detail port) := by
  unfold State.eventRecord
  split
  · exact .of_out_eq rfl
  extract_lets ring closed
  split
  · exact .of_out_eq rfl
  refine NoSyncOut.trans ?_ (State.form_noSyncOut _ _ _)
  unfold closed
  split
  · exact .of_out_eq rfl
  · exact State.dueGap_noSyncOut _ _

theorem State.raiseEvent_noSyncOut (n detail : Nat) (port : Option Nat) : NoSyncOut s (s.raiseEvent n detail port) :=
  (s.eventRecord_noSyncOut n detail port).trans (.of_out_eq (State.srcEvent_out _ _ _ _))

end Sys2Proof.Machine
end

section
namespace Sys2Proof.Machine

/-! ### SYNC: what is forwarded (R44) -/

variable (s : State)

theorem State.sendSync_other (level : Bool) (h : s.tb.syncOut = !level) :
    s.sendSync level = { s with tb := { s.tb with syncOut := level, syncSent := true },
                                out := s.out ++ [.syncOut level (s.rd Reg.TB_PASS_THRU)] } := by
  have differs : (s.tb.syncOut != level) = true := by simp [h]
  simp only [State.sendSync, differs, if_true]
  rfl

theorem State.sendSync_same (level : Bool) (h : s.tb.syncOut = level) :
    s.sendSync level = { s with tb := { s.tb with syncOut := level, syncSent := false } } := by
  simp [State.sendSync, h]

theorem State.sendSync_eq (level : Bool) :
    ∃ sent l, s.sendSync level = { s with tb := { s.tb with syncOut := level, syncSent := sent }, out := l } := by
  by_cases h : s.tb.syncOut = level
  · exact ⟨false, s.out, s.sendSync_same level h⟩
  · exact ⟨true, _, s.sendSync_other level (Bool.eq_not.mpr h)⟩

/-- Forwarding touches what stands on SYNC_OUT alone. -/
theorem State.forwardSync_eq (level : Bool) (at_ : Nat) :
    ∃ sent l, s.forwardSync level at_ = { s with tb := { s.tb with syncOut := level, syncSent := sent }, out := l } := by
  unfold State.forwardSync
  split
  · obtain ⟨sent, l, e⟩ := State.sendSync_eq
      { s with out := dropSyncOut s.out, tb := { s.tb with syncOut := !s.tb.syncOut } } level
    exact ⟨sent, l, e⟩
  · exact s.sendSync_eq level

/-- A level that has stood for 2 DCLK is followed. -/
theorem State.forwardSync_long (level : Bool) {at_ : Nat} (long : s.tb.syncAt + 32 ≤ at_) (h : s.tb.syncOut = !level) :
    (s.forwardSync level at_).out = s.out ++ [.syncOut level (s.rd Reg.TB_PASS_THRU)] := by
  have : ¬ at_ < s.tb.syncAt + 32 := by omega
  simp only [State.forwardSync, this, decide_false, Bool.false_and, Bool.false_eq_true, if_false, s.sendSync_other level h]

/-- A pulse shorter than that is taken back. -/
theorem State.forwardSync_short (level : Bool) {at_ : Nat} (short : at_ < s.tb.syncAt + 32) (sent : s.tb.syncSent = true)
    (h : s.tb.syncOut = !level) : (s.forwardSync level at_).out = dropSyncOut s.out := by
  simp only [State.forwardSync, short, sent, decide_true, Bool.and_self, if_true]
  rw [State.sendSync_same _ level (by simp [h])]

/-- SYNC_IN has changed at an instant and the change has been forwarded: the state in which the change is then judged. -/
def State.syncSeen (level : Bool) (at_ : Nat) : State :=
  { s.forwardSync level at_ with tb := { (s.forwardSync level at_).tb with syncIn := level, syncAt := at_ } }

theorem State.syncSeen_eq (level : Bool) (at_ : Nat) :
    ∃ sent l, s.syncSeen level at_ = { s with
      tb := { s.tb with syncIn := level, syncAt := at_, syncOut := level, syncSent := sent }, out := l } := by
  obtain ⟨sent, l, e⟩ := s.forwardSync_eq level at_
  exact ⟨sent, l, by rw [State.syncSeen, e]⟩

/-- What SYNC_IN and SYNC_OUT show of a change of SYNC_IN at an instant (R44). -/
structure SyncFollowed (s t : State) (level : Bool) (at_ : Nat) : Prop where
  syncIn : t.tb.syncIn = level
  syncAt : t.tb.syncAt = at_
  syncOut : t.tb.syncOut = level
  long : s.tb.syncAt + 32 ≤ at_ → s.tb.syncOut = !level →
    ∃ l, t.out = s.out ++ .syncOut level (s.rd Reg.TB_PASS_THRU) :: l
  short : at_ < s.tb.syncAt + 32 → s.tb.syncSent = true → s.tb.syncOut = !level →
    ∃ l, t.out = dropSyncOut s.out ++ l ∧ ∀ b n, Out.syncOut b n ∉ l

theorem State.syncSeen_followed (level : Bool) (at_ : Nat) : SyncFollowed s (s.syncSeen level at_) level at_ := by
  refine ⟨rfl, rfl, ?_, fun long h => ⟨[], s.forwardSync_long level long h⟩, fun short sent h => ⟨[], ?_, by simp⟩⟩
  · obtain ⟨sent, l, e⟩ := s.syncSeen_eq level at_
    rw [e]
  · rw [List.append_nil, ← s.forwardSync_short level short sent h]
    rfl

theorem SyncFollowed.trans {s t u : State} {level : Bool} {at_ : Nat} (h : SyncFollowed s t level at_)
    (hi : u.tb.syncIn = t.tb.syncIn) (ha : u.tb.syncAt = t.tb.syncAt) (ho : u.tb.syncOut = t.tb.syncOut)
    (out : NoSyncOut t u) : SyncFollowed s u level at_ := by
  obtain ⟨m, e, hm⟩ := out
  refine ⟨hi.trans h.syncIn, ha.trans h.syncAt, ho.trans h.syncOut, fun long k => ?_, fun short sent k => ?_⟩
  · obtain ⟨l, f⟩ := h.long long k
    exact ⟨l ++ m, by rw [e, f, List.append_assoc, List.cons_append]⟩
  · obtain ⟨l, f, hl⟩ := h.short short sent k
    exact ⟨l ++ m, by rw [e, f, List.append_assoc], fun b n => by simp [hl b n, hm b n]⟩

/-! ### SYNC: glitches and counted edges (R45) -/

/-- `t` has counted one more glitch than `s`, and shows it. -/
def State.countsGlitch (t : State) : Prop :=
  t.rd Reg.TB_SYNC_CNT_GLITCH = min (s.rd Reg.TB_SYNC_CNT_GLITCH + 1) 0xFFFF ∧ t.on Reg.TB_STAT_SYNC_GLITCH = true

theorem State.syncGlitch_counts : s.countsGlitch s.syncGlitch := by
  unfold State.syncGlitch State.countsGlitch State.on
  simp (disch := decide) only [State.rd_raiseEvent, State.incSat_eq, State.rd_wr_word, State.rd_wr_self, State.rd_advance]
  exact ⟨Nat.mod_eq_of_lt (Nat.lt_of_le_of_lt (Nat.min_le_right _ _) (by decide)), rfl⟩

theorem State.syncGlitch_tb : s.syncGlitch.tb = s.tb := by
  simp only [State.syncGlitch, State.raiseEvent_tb, State.incSat_eq, State.wr_tb, State.advance_tb]

theorem State.syncGlitch_noSyncOut : NoSyncOut s s.syncGlitch := by
  refine .trans (.of_out_eq ?_) (State.raiseEvent_noSyncOut _ _ _ _)
  simp only [State.incSat_eq, State.wr_out, State.advance_out]

/-- `t` has counted one more edge than `s`, and holds the origin-referred time of the edge. -/
def State.countsEdge (t : State) (e : SyncEdge) : Prop :=
  t.rd Reg.TB_SYNC_CNT_EDGES = (s.rd Reg.TB_SYNC_CNT_EDGES + 1) % 2 ^ 16 ∧
  t.tb.syncLast = e.c + ticks e.u - ticks (s.rd Reg.TB_SYNC_DLY) - ticks (s.rd Reg.TB_PASS_IN)

theorem State.rd_syncQualify (e : SyncEdge) (f : Fld) (i : Nat) :
    (s.syncQualify e).rd f i = (s.incWrap Reg.TB_SYNC_CNT_EDGES).rd f i := by
  simp only [State.syncQualify, State.rd_setTb]

theorem State.syncQualify_counts (e : SyncEdge) : s.countsEdge (s.syncQualify e) e := by
  refine ⟨?_, ?_⟩
  · rw [s.rd_syncQualify, State.incWrap_eq, s.rd_wr_self _ _ _ (by decide)]
    rfl
  · simp (disch := decide) only [State.syncQualify, State.syncDly, State.passIn, State.incWrap_eq, State.rd_wr_word]

theorem State.syncQualify_tb (e : SyncEdge) :
    ∃ c x, (s.syncQualify e).tb = { s.tb with syncEdge := none, commit := c, syncLast := x } := ⟨_, _, rfl⟩

theorem State.syncQualify_out (e : SyncEdge) : (s.syncQualify e).out = s.out := by
  simp only [State.syncQualify, State.incWrap_eq, State.wr_out]

theorem State.syncQualify_now (e : SyncEdge) : (s.syncQualify e).now = s.now := by
  simp only [State.syncQualify, State.incWrap_eq, State.wr_now]

/-- A Solstice armed before the sampling edge is committed on it (R50). -/
theorem State.syncQualify_commit (e : SyncEdge) {a : Nat} (armed : s.tb.armedAt = some a) (h : a < e.n + 1)
    (free : s.tb.commit = none) : (s.syncQualify e).tb.commit = some e := by
  simp [State.syncQualify, armed, h, free]

theorem State.syncQualify_unarmed (e : SyncEdge) (h : s.tb.armedAt = none) : (s.syncQualify e).tb.commit = s.tb.commit := by
  simp [State.syncQualify, h]

/-! ### SYNC: the commands -/

theorem State.syncSeen_now (level : Bool) (at_ : Nat) : (s.syncSeen level at_).now = s.now := by
  obtain ⟨sent, l, e⟩ := s.syncSeen_eq level at_
  rw [e]

theorem State.syncSeen_c (level : Bool) (at_ : Nat) : (s.syncSeen level at_).c = s.c := by
  obtain ⟨sent, l, e⟩ := s.syncSeen_eq level at_
  rw [e]

theorem State.syncSeen_regs (level : Bool) (at_ : Nat) : (s.syncSeen level at_).regs = s.regs := by
  obtain ⟨sent, l, e⟩ := s.syncSeen_eq level at_
  rw [e]

theorem State.syncSeen_syncEdge (level : Bool) (at_ : Nat) : (s.syncSeen level at_).tb.syncEdge = s.tb.syncEdge := by
  obtain ⟨sent, l, e⟩ := s.syncSeen_eq level at_
  rw [e]

theorem State.rd_syncSeen (level : Bool) (at_ : Nat) (f : Fld) (i : Nat) : (s.syncSeen level at_).rd f i = s.rd f i :=
  s.rd_congr _ (s.syncSeen_regs level at_) f i

theorem exec_syncInEdge_same (level : Bool) (u : Fin 16) (h : s.tb.syncIn = level) :
    exec (.syncInEdge level u) s = .next s := if_pos (by simp [h])

section
variable {s} (on : s.clocked = true) (u : Fin 16)
include on

theorem exec_syncRise_low (h : s.tb.syncIn = false) (low : s.tb.syncAt + 256 ≤ 16 * s.now + u.val) (t : State)
    (seen : t = s.syncSeen true (16 * s.now + u.val)) :
    exec (.syncInEdge true u) s = .next { t with tb := { t.tb with syncEdge := some ⟨t.now, u.val, t.c⟩ } } := by
  subst seen
  exact (if_neg (by simp [h])).trans ((if_neg (by simp [on])).trans ((if_pos rfl).trans (if_pos (decide_eq_true low))))

theorem exec_syncRise_glitch (h : s.tb.syncIn = false) (low : 16 * s.now + u.val < s.tb.syncAt + 256) :
    exec (.syncInEdge true u) s = .next (s.syncSeen true (16 * s.now + u.val)).syncGlitch :=
  (if_neg (by simp [h])).trans ((if_neg (by simp [on])).trans ((if_pos rfl).trans (if_neg (by simp; omega))))

theorem exec_syncFall (h : s.tb.syncIn = true) (t : State) (seen : t = s.syncSeen false (16 * s.now + u.val)) :
    exec (.syncInEdge false u) s =
      match s.tb.syncEdge with
      | none => .next t
      | some e =>
        if e.n + 17 ≤ s.now then .next (t.syncQualify e)
        else .next (({ t with tb := { t.tb with syncEdge := none } } : State).syncGlitch) := by
  have sn := s.syncSeen_now false (16 * s.now + u.val)
  have se := s.syncSeen_syncEdge false (16 * s.now + u.val)
  rw [← seen] at sn se
  rw [← sn, ← se, seen]
  exact (if_neg (by simp [h])).trans ((if_neg (by simp [on])).trans (if_neg (by decide)))

/-- A rise of SYNC_IN begins to qualify after 16 DCLK of low, and is a glitch otherwise. -/
theorem exec_syncRise (h : s.tb.syncIn = false) :
    ∃ t, exec (.syncInEdge true u) s = .next t ∧ SyncFollowed s t true (16 * s.now + u.val) ∧
      (s.tb.syncAt + 256 ≤ 16 * s.now + u.val → t.tb.syncEdge = some ⟨s.now, u.val, s.c⟩ ∧ t.regs = s.regs) ∧
      (16 * s.now + u.val < s.tb.syncAt + 256 → s.countsGlitch t) := by
  have followed := s.syncSeen_followed true (16 * s.now + u.val)
  by_cases low : s.tb.syncAt + 256 ≤ 16 * s.now + u.val
  · refine ⟨_, exec_syncRise_low on u h low _ rfl, followed.trans rfl rfl rfl (.setTb _), fun _ => ⟨?_, ?_⟩,
      fun short => by omega⟩
    · dsimp only
      rw [s.syncSeen_now, s.syncSeen_c]
    · exact s.syncSeen_regs ..
  · have tb := State.syncGlitch_tb (s.syncSeen true (16 * s.now + u.val))
    refine ⟨_, exec_syncRise_glitch on u h (by omega), followed.trans ?_ ?_ ?_ (State.syncGlitch_noSyncOut _),
      fun long => absurd long low, fun _ => ?_⟩
    · rw [tb]
    · rw [tb]
    · rw [tb]
    · simpa only [State.countsGlitch, s.rd_syncSeen] using State.syncGlitch_counts (s.syncSeen true (16 * s.now + u.val))

/-- A fall of SYNC_IN ends the rise in qualification: as a glitch before N + 17, as a counted edge from there on. -/
theorem exec_syncFall_ends (h : s.tb.syncIn = true) :
    ∃ t, exec (.syncInEdge false u) s = .next t ∧ SyncFollowed s t false (16 * s.now + u.val) ∧
      ∀ e, s.tb.syncEdge = some e → t.tb.syncEdge = none ∧ (s.now < e.n + 17 → s.countsGlitch t) ∧
        (e.n + 17 ≤ s.now → s.countsEdge t e) := by
  have run := exec_syncFall on u h _ rfl
  have followed := s.syncSeen_followed false (16 * s.now + u.val)
  cases edge : s.tb.syncEdge with
  | none =>
    rw [edge] at run
    exact ⟨_, run, followed, nofun⟩
  | some e =>
    rw [edge] at run
    dsimp only at run
    split at run
    · rename_i late
      obtain ⟨c, x, tb⟩ := State.syncQualify_tb (s.syncSeen false (16 * s.now + u.val)) e
      refine ⟨_, run, followed.trans ?_ ?_ ?_ (.of_out_eq (State.syncQualify_out _ e)), ?_⟩
      · rw [tb]
      · rw [tb]
      · rw [tb]
      · rintro _ ⟨⟩
        refine ⟨by rw [tb], fun early => by omega, fun _ => ?_⟩
        simpa only [State.countsEdge, s.rd_syncSeen] using State.syncQualify_counts (s.syncSeen false (16 * s.now + u.val)) e
    · rename_i early
      refine ⟨_, run, followed.trans ?_ ?_ ?_ (.trans (.setTb _) (State.syncGlitch_noSyncOut _)), ?_⟩
      · rw [State.syncGlitch_tb]
      · rw [State.syncGlitch_tb]
      · rw [State.syncGlitch_tb]
      · rintro _ ⟨⟩
        refine ⟨by rw [State.syncGlitch_tb], fun _ => ?_, fun late => absurd late early⟩
        simpa only [State.countsGlitch, State.rd_setTb, s.rd_syncSeen] using State.syncGlitch_counts
          { s.syncSeen false (16 * s.now + u.val) with
            tb := { (s.syncSeen false (16 * s.now + u.val)).tb with syncEdge := none } }

omit u in
theorem exec_syncQualified {e : SyncEdge} (edge : s.tb.syncEdge = some e) :
    exec .syncQualified s = .next ((s.advance (e.n + 17)).syncQualify e) := by
  show execSyncQualified s = _
  simp only [execSyncQualified, edge, on, if_true]

end

end Sys2Proof.Machine
end

section
namespace Sys2Proof.Machine

/-- Settles O16: a rise and a fall by what `exec_syncRise` and `exec_syncFall_ends` say, a qualified rise by
`State.syncQualify_counts`. -/
theorem syncEdgesQualify : Obligations.SyncEdgesQualify := by
  refine fun s on => ⟨fun u level h => ?_, fun u level h => exec_syncInEdge_same s level u h, fun e edge => ?_⟩
  · cases level with
    | true =>
      obtain ⟨t, run, followed, low, glitch⟩ := exec_syncRise on u h
      exact ⟨t, run, followed.syncIn, followed.syncAt, followed.syncOut, followed.long, followed.short, fun _ => low,
        fun _ => glitch, nofun⟩
    | false =>
      obtain ⟨t, run, followed, ends⟩ := exec_syncFall_ends on u h
      exact ⟨t, run, followed.syncIn, followed.syncAt, followed.syncOut, followed.long, followed.short, nofun, nofun,
        fun e _ edge => ends e edge⟩
  · obtain ⟨counted, last⟩ := (s.advance (e.n + 17)).syncQualify_counts e
    obtain ⟨c, x, tb⟩ := (s.advance (e.n + 17)).syncQualify_tb e
    simp only [State.rd_advance] at counted last
    refine ⟨_, exec_syncQualified on edge, (State.syncQualify_now _ e).trans (s.advance_now _), counted, last, by rw [tb], fun a armed before free => ?_,
      fun unarmed => ?_⟩
    · exact State.syncQualify_commit _ e (by rw [s.advance_tb, armed]) before (by rw [s.advance_tb, free])
    · rw [State.syncQualify_unarmed _ e (by rw [s.advance_tb, unarmed]), s.advance_tb]

end Sys2Proof.Machine
end

section
namespace Sys2Proof.Machine

variable (s : State)

/-! ### An Almanac entry leaves the timebase alone -/

/-- Registers read alike whatever the Almanac holds. -/
theorem State.rd_setAlmanac (x : Almanac) (f : Fld) (i : Nat) : ({ s with almanac := x } : State).rd f i = s.rd f i := rfl

theorem State.formEntry_tb (kind nrec port : Nat) (body : List Byte) : (s.formEntry kind nrec port body).tb = s.tb := by
  unfold State.formEntry
  dsimp only
  split
  · rfl
  · split
    · simp only [State.incSat_eq, State.wr_tb]
    · rfl

theorem State.formEntry_now (kind nrec port : Nat) (body : List Byte) : (s.formEntry kind nrec port body).now = s.now := by
  unfold State.formEntry
  dsimp only
  split
  · rfl
  · split
    · simp only [State.incSat_eq, State.wr_now]
    · rfl

theorem State.formEntry_c (kind nrec port : Nat) (body : List Byte) : (s.formEntry kind nrec port body).c = s.c := by
  unfold State.formEntry
  dsimp only
  split
  · rfl
  · split
    · simp only [State.incSat_eq, State.wr_c]
    · rfl

/-- AL_NOTFORMED is the one register that forming an entry writes (R452). -/
theorem State.rd_formEntry (kind nrec port : Nat) (body : List Byte) (f : Fld) (i : Nat) (hw : f.word < 4096)
    (h : f.word ≠ Reg.AL_NOTFORMED.word) : (s.formEntry kind nrec port body).rd f i = s.rd f i := by
  unfold State.formEntry
  dsimp only
  split
  · rfl
  · split
    · rw [State.rd_setAlmanac, State.incSat_eq, s.rd_wr_word _ _ _ _ _ (by decide) hw h]
    · rfl

/-! ### A cancelled Fresco (R56) -/

theorem State.cancelFresco_now : s.cancelFresco.now = s.now := by
  unfold State.cancelFresco
  split
  · simp only [State.wr_now]
  · rfl

theorem State.cancelFresco_c : s.cancelFresco.c = s.c := by
  unfold State.cancelFresco
  split
  · simp only [State.wr_c]
  · rfl

/-- Cancelling a Fresco leaves the other fields of TB_STAT alone. -/
theorem State.rd_cancelFresco_apart (f : Fld) (i : Nat) (hw : f.word = 0x080) (hp : f.apart Reg.TB_STAT_FR_PENDING)
    (hc : f.apart Reg.TB_STAT_FR_CANCELLED) : s.cancelFresco.rd f i = s.rd f i := by
  unfold State.cancelFresco
  split
  · rw [State.rd_wr_apart _ _ _ _ _ _ hw (by decide) hc, State.rd_wr_apart _ _ _ _ _ _ hw (by decide) hp]
  · rfl

/-- Cancelling a Fresco leaves every other word alone. -/
theorem State.rd_cancelFresco_word (f : Fld) (i : Nat) (hw : f.word < 4096) (h : f.word ≠ 0x080) :
    s.cancelFresco.rd f i = s.rd f i := by
  unfold State.cancelFresco
  split
  · rw [State.rd_wr_word _ _ _ _ _ _ (by decide) hw h, State.rd_wr_word _ _ _ _ _ _ (by decide) hw h]
  · rfl

/-- A pending Fresco is shown as cancelled. -/
theorem State.cancelFresco_cancelled : s.cancelFresco.on Reg.TB_STAT_FR_CANCELLED =
    (s.on Reg.TB_STAT_FR_PENDING || s.on Reg.TB_STAT_FR_CANCELLED) := by
  unfold State.cancelFresco
  split
  · rename_i pending
    simp (disch := decide) only [State.on, State.rd_wr_self] at pending ⊢
    rw [pending]
    rfl
  · rename_i pending
    simp [pending]

/-! ### Solstice: the load at N + 20 -/

/-- C and the parts of the timebase as a Solstice loads them, at the edge that has come (R50). -/
def State.solsticeLoaded (e : SyncEdge) : State :=
  { s with c := s.solsticeC e,
           tb := { s.tb with syncLast := s.solE, armedAt := none, commit := none, pairFrozen := false } }

/-- Then the flags of TB_STAT and the pair offset (R50, R54), and no Fresco is pending (R56). -/
def State.solsticeShown (e : SyncEdge) : State :=
  ((((s.solsticeLoaded e).wr Reg.TB_STAT_EPOCH_VALID 1).wr Reg.TB_STAT_SOL_DONE 1).wr Reg.TB_PAIROFS_OFS 0).cancelFresco

/-- Last, its EPOCH entry and source 266. -/
def State.solsticeTold : State := (s.epochEntry s.solE).raiseEvent 266 (s.reg 0 0x083).toNat

theorem State.solsticeTold_now : s.solsticeTold.now = s.now := by
  rw [State.solsticeTold, State.raiseEvent_now, State.epochEntry, State.formEntry_now]

theorem State.solsticeTold_c : s.solsticeTold.c = s.c := by
  rw [State.solsticeTold, State.raiseEvent_c, State.epochEntry, State.formEntry_c]

theorem State.solsticeTold_tb : s.solsticeTold.tb = s.tb := by
  rw [State.solsticeTold, State.raiseEvent_tb, State.epochEntry, State.formEntry_tb]

theorem State.rd_solsticeTold (f : Fld) (i : Nat) (hw : f.word < 4096) (hg : gatedWord f.word = false)
    (h : f.word ≠ Reg.AL_NOTFORMED.word) : s.solsticeTold.rd f i = s.rd f i := by
  rw [State.solsticeTold, State.rd_raiseEvent _ _ _ _ _ _ hw hg, State.epochEntry, State.rd_formEntry _ _ _ _ _ _ _ hw h]

theorem State.rd_solsticeLoaded (e : SyncEdge) (f : Fld) (i : Nat) : (s.solsticeLoaded e).rd f i = s.rd f i := rfl

theorem State.solsticeShown_now (e : SyncEdge) : (s.solsticeShown e).now = s.now := by
  simp only [State.solsticeShown, State.cancelFresco_now, State.wr_now, State.solsticeLoaded]

theorem State.solsticeShown_c (e : SyncEdge) : (s.solsticeShown e).c = s.solsticeC e := by
  simp only [State.solsticeShown, State.cancelFresco_c, State.wr_c, State.solsticeLoaded]

theorem State.solsticeShown_tb (e : SyncEdge) : (s.solsticeShown e).tb = (s.solsticeLoaded e).tb := by
  simp only [State.solsticeShown, State.cancelFresco_tb, State.wr_tb]

/-- The flags of a Solstice (R50, R54, R56). -/
theorem State.solsticeShown_flags (e : SyncEdge) :
    (s.solsticeShown e).rd Reg.TB_STAT_EPOCH_VALID = 1 ∧ (s.solsticeShown e).rd Reg.TB_STAT_SOL_DONE = 1 ∧
    (s.solsticeShown e).on Reg.TB_STAT_FR_PENDING = false ∧ (s.solsticeShown e).rd Reg.TB_PAIROFS_OFS = 0 ∧
    (s.solsticeShown e).on Reg.TB_STAT_FR_CANCELLED = (s.on Reg.TB_STAT_FR_PENDING || s.on Reg.TB_STAT_FR_CANCELLED) := by
  unfold State.solsticeShown
  refine ⟨?_, ?_, State.cancelFresco_pending _, ?_, ?_⟩
  · simp (disch := decide) only [State.rd_cancelFresco_apart, State.rd_wr_word, State.rd_wr_apart, State.rd_wr_self]
    rfl
  · simp (disch := decide) only [State.rd_cancelFresco_apart, State.rd_wr_word, State.rd_wr_self]
    rfl
  · simp (disch := decide) only [State.rd_cancelFresco_word, State.rd_wr_self]
    rfl
  · rw [State.cancelFresco_cancelled]
    simp (disch := decide) only [State.on, State.rd_wr_word, State.rd_wr_apart, State.rd_solsticeLoaded]

theorem State.exec_solsticeApply (e : SyncEdge) (on : s.clocked = true) (commit : s.tb.commit = some e) :
    exec .solsticeApply s = .next (((s.advance (e.n + 20)).solsticeShown e).solsticeTold) := by
  show execSolsticeApply s = _
  unfold execSolsticeApply
  rw [commit]
  exact if_neg (by simp [on])

/-! ### The pair offset -/

/-- TB_PAIROFS_OFS after a window: the mean at first, then a tick toward it (R53). -/
def State.nextPairOfs (mean : Int) : Int :=
  let old := (BitVec.ofNat 16 (s.rd Reg.TB_PAIROFS_OFS)).toInt
  if !s.on Reg.TB_PAIROFS_VALID then mean else if old < mean then old + 1 else if mean < old then old - 1 else old

/-- TB_PAIROFS holds an offset, and is valid. -/
def State.withPairOfs (ofs : Int) : State :=
  (s.wr Reg.TB_PAIROFS_OFS (BitVec.ofInt 16 ofs).toNat).wr Reg.TB_PAIROFS_VALID 1

theorem State.rd_withPairOfs (ofs : Int) : (s.withPairOfs ofs).rd Reg.TB_PAIROFS_OFS = (BitVec.ofInt 16 ofs).toNat := by
  unfold State.withPairOfs
  simp (disch := decide) only [State.rd_wr_apart, State.rd_wr_self]
  exact Nat.mod_eq_of_lt (BitVec.ofInt 16 ofs).isLt

theorem State.withPairOfs_valid (ofs : Int) : (s.withPairOfs ofs).on Reg.TB_PAIROFS_VALID = true := by
  unfold State.withPairOfs
  simp (disch := decide) only [State.on, State.rd_wr_self]
  rfl

theorem State.withPairOfs_regsSameBut (ofs : Int) : s.regsSameBut (s.withPairOfs ofs) [(0, 0x08B)] :=
  fun i w hw other => (State.wr_regsSameBut _ Reg.TB_PAIROFS_VALID 1 0 (by decide) i w hw other).trans
    (s.wr_regsSameBut Reg.TB_PAIROFS_OFS _ 0 (by decide) i w hw other)

theorem State.withPairOfs_frame (ofs : Int) : s.withPairOfs ofs = { s with regs := (s.withPairOfs ofs).regs } := by
  rw [State.withPairOfs, State.wr_frame, State.wr_frame]

theorem State.exec_pairofsWindow (sum : Int) (rest : List Int) (windows : s.tb.pairWindows = sum :: rest)
    (run : s.running = true) (shadow : s.engagedShadow = true) :
    exec (.pairofsWindow sum) s = .next (({ s with tb := { s.tb with pairWindows := rest } } : State).withPairOfs
      (s.nextPairOfs (roundDivInt sum 1024))) := by
  show execPairofsWindow sum s = _
  unfold execPairofsWindow
  rw [windows]
  exact if_neg (by simp [run, shadow])

theorem State.exec_pairofsWindow_other (sum : Int) (h : s.engagedShadow = false) : exec (.pairofsWindow sum) s = .next s := by
  show execPairofsWindow sum s = _
  unfold execPairofsWindow
  split
  · rfl
  · exact if_pos (by simp [h])

/-- TB_PAIROFS_OFS, read as a signed number and stored again, is what it was. -/
theorem State.pairOfs_toInt_toNat : (BitVec.ofInt 16 (BitVec.ofNat 16 (s.rd Reg.TB_PAIROFS_OFS)).toInt).toNat =
    s.rd Reg.TB_PAIROFS_OFS := by
  rw [BitVec.ofInt_toInt, BitVec.toNat_ofNat]
  exact Nat.mod_eq_of_lt (s.rd_lt Reg.TB_PAIROFS_OFS 0)

/-! ### What a Solstice and a window do -/

/-- A committed Solstice is applied at N + 20 (R50, R54, R56). -/
theorem State.solstice_loads (e : SyncEdge) (on : s.clocked = true) (commit : s.tb.commit = some e) (early : s.now ≤ e.n + 20) :
    ∃ t, exec .solsticeApply s = .next t ∧ t.now = e.n + 20 ∧
      t.c = s.solE + ticks (s.rd Reg.TB_SYNC_DLY) + ticks (s.rd Reg.TB_PASS_IN) + 320 - ticks e.u ∧
      t.tb.syncLast = s.solE ∧ t.tb.armedAt = none ∧ t.tb.commit = none ∧
      t.on Reg.TB_STAT_EPOCH_VALID = true ∧ t.on Reg.TB_STAT_SOL_DONE = true ∧ t.on Reg.TB_STAT_FR_PENDING = false ∧
      t.rd Reg.TB_PAIROFS_OFS = 0 ∧
      (s.on Reg.TB_STAT_FR_PENDING = true → t.on Reg.TB_STAT_FR_CANCELLED = true) := by
  obtain ⟨epoch, done, fresco, ofs, cancelled⟩ := (s.advance (e.n + 20)).solsticeShown_flags e
  have same : (s.advance (e.n + 20)).solE = s.solE := by
    simp only [State.solE, State.reg_congr s _ (s.advance_regs _)]
  have tb := ((s.advance (e.n + 20)).solsticeShown e).solsticeTold_tb.trans (State.solsticeShown_tb _ e)
  refine ⟨_, s.exec_solsticeApply e on commit, ?_, ?_, ?_, ?_, ?_, ?_, ?_, ?_, ?_, fun pending => ?_⟩
  · rw [State.solsticeTold_now, State.solsticeShown_now, s.advance_now, Nat.max_eq_right early]
  · rw [State.solsticeTold_c, State.solsticeShown_c, State.solsticeC, State.syncDly, State.passIn, same, s.rd_advance,
      s.rd_advance]
  · rw [tb]
    exact same
  · rw [tb]
    rfl
  · rw [tb]
    rfl
  all_goals simp (disch := decide) only [State.on, State.rd_solsticeTold] at *
  · rw [epoch]; rfl
  · rw [done]; rfl
  · exact fresco
  · exact ofs
  · rw [cancelled, s.rd_advance, pending]; rfl

/-- A window that closes moves TB_PAIROFS in an engaged shadow (R53). -/
theorem State.pairofsWindow_moves (sum : Int) (rest : List Int) (windows : s.tb.pairWindows = sum :: rest)
    (run : s.running = true) (shadow : s.engagedShadow = true) :
    ∃ t, exec (.pairofsWindow sum) s = .next t ∧ t.on Reg.TB_PAIROFS_VALID = true ∧
      (s.on Reg.TB_PAIROFS_VALID = false → t.rd Reg.TB_PAIROFS_OFS = (BitVec.ofInt 16 (roundDivInt sum 1024)).toNat) ∧
      (s.on Reg.TB_PAIROFS_VALID = true → ∀ ofs : Int, ofs = (BitVec.ofNat 16 (s.rd Reg.TB_PAIROFS_OFS)).toInt →
        (ofs < roundDivInt sum 1024 → t.rd Reg.TB_PAIROFS_OFS = (BitVec.ofInt 16 (ofs + 1)).toNat) ∧
        (roundDivInt sum 1024 < ofs → t.rd Reg.TB_PAIROFS_OFS = (BitVec.ofInt 16 (ofs - 1)).toNat) ∧
        (ofs = roundDivInt sum 1024 → t.rd Reg.TB_PAIROFS_OFS = s.rd Reg.TB_PAIROFS_OFS)) ∧
      s.regsSameBut t [(0, 0x08B)] ∧ t = { s with regs := t.regs, tb := { s.tb with pairWindows := rest } } := by
  refine ⟨_, s.exec_pairofsWindow sum rest windows run shadow, State.withPairOfs_valid _ _, fun first => ?_,
    fun later ofs old => ⟨fun below => ?_, fun above => ?_, fun there => ?_⟩, State.withPairOfs_regsSameBut _ _,
    State.withPairOfs_frame _ _⟩
  · rw [State.rd_withPairOfs, State.nextPairOfs, first]
    rfl
  · rw [State.rd_withPairOfs, State.nextPairOfs, later, ← old]
    simp [below]
  · rw [State.rd_withPairOfs, State.nextPairOfs, later, ← old]
    simp [above, Int.not_lt.mpr (Int.le_of_lt above)]
  · rw [State.rd_withPairOfs, State.nextPairOfs, later, ← old, ← there]
    simp only [Bool.not_true, Bool.false_eq_true, if_false, Int.lt_irrefl]
    rw [old, s.pairOfs_toInt_toNat]

end Sys2Proof.Machine
end

section
namespace Sys2Proof.Machine

/-- Settles O18: the load by `State.solstice_loads`, the window by `State.pairofsWindow_moves`. -/
theorem solsticeLoadAndPairOffset : Obligations.SolsticeLoadAndPairOffset :=
  ⟨fun s e => s.solstice_loads e, fun s sum => ⟨s.pairofsWindow_moves sum, s.exec_pairofsWindow_other sum⟩⟩

end Sys2Proof.Machine
end

section
namespace Sys2Proof.Machine

variable (s : State)

/-! ### Fresco: single writes of TB_FR_CTL (R318) -/

/-- A single write that passes every check before the last is taken or refused by the state (R318). -/
theorem State.checkWrite_byState (w : Nat) (d : Word) (ready : s.notReady w d = false) (low : w < 0x1000)
    (value : s.valueCode true w d = Code.ok) (cross : (s.storeWord 0 w d).1.crossFault (s.storeWord 0 w d).2 = none) :
    s.checkWrite w [d] true = if s.wordState w d = Code.ok then none else some (s.wordState w d, 0) := by
  have inMap : ¬ 0x1000 < w + 1 := by omega
  have stored : (s.storeAll [(w, d)]).1.crossFault (s.storeAll [(w, d)]).2 = none := by
    simpa [State.storeAll, State.storeFrom] using cross
  unfold State.checkWrite State.validate
  rw [writeWords_one]
  simp only [List.findIdx?_cons, List.findIdx?_nil, List.length_singleton, ready, Bool.false_eq_true, if_false, Option.map_none,
    inMap, State.checkFrom, value, cross, stored, Option.isNone_none, Bool.or_true, Code.unless, Code.andThen, if_true]
  split
  · rename_i h
    split at h
    · cases h
    · rename_i refused
      rw [if_neg refused, h]
  · rename_i h
    split at h
    · rename_i taken
      rw [if_pos taken]
    · cases h

/-- TB_FR_CTL has no SEL: there is one of it, and it is written. -/
theorem State.writable_frCtl : s.writable 0x092 = [0] := by
  have here : implemented 0x092 = true := by decide +kernel
  have strobes : (wordFields 0x092).all (fun f => f.acc == .ro) = false := by decide +kernel
  have plain : isAperture 0x092 = false := by decide
  have one : s.instances 0x092 = [0] := rfl
  simp [State.writable, State.readOnly, here, strobes, plain, one]

/-- Outside ENGAGING, the state checks of R55 decide on a write of its fields. -/
theorem State.checkWrite_frCtl (d : Word) (pair : s.hinge.state ≠ .engaging) (fits : d &&& ~~~ fieldMask 0x092 = 0) :
    s.checkWrite 0x092 [d] true =
      if tbState s 0x092 d = Code.ok then none else some (tbState s 0x092 d, 0) := by
  have here : implemented 0x092 = true := by decide +kernel
  have state : s.wordState 0x092 d = tbState s 0x092 d := by
    simp [State.wordState, s.writable_frCtl, stateCode, Code.andThen]
  have written : (s.instances 0x092).all (fun i => s.readOnly i 0x092) = false := by
    have taken : 0 ∈ s.writable 0x092 := by simp [s.writable_frCtl]
    simp only [State.writable, here, if_true, List.mem_filter, Bool.not_eq_true'] at taken
    simp only [List.all_eq_false]
    exact ⟨0, taken.1, by simp [taken.2]⟩
  rw [← state]
  refine s.checkWrite_byState 0x092 d ?_ (by decide) ?_ ?_
  · simp [State.notReady, imageBlock, pair]
  · simp [State.valueCode, here, written, fits, s.writable_frCtl, valueOk, tbValue, Code.unless]
  · simp [State.storeWord, s.writable_frCtl, State.crossFault, crossOk]

theorem State.takesWrite_frCtl (d : Word) (ready : s.slotReady = true) (h₁ : s.hinge.state ≠ .engaging)
    (h₂ : s.hinge.state ≠ .engaged) (h₃ : s.hinge.state ≠ .degraded) (fits : d &&& ~~~ fieldMask 0x092 = 0)
    (ok : tbState s 0x092 d = Code.ok) : s.takesWrite 0x092 d = true := by
  simp [State.takesWrite, ready, s.checkWrite_frCtl d h₁ fits, ok, h₂, h₃]

theorem State.refusesWrite_frCtl (d : Word) (c : Code) (ready : s.slotReady = true) (h₁ : s.hinge.state ≠ .engaging)
    (fits : d &&& ~~~ fieldMask 0x092 = 0) (refused : tbState s 0x092 d = c) (hc : c ≠ Code.ok) :
    s.refusesWrite 0x092 d c = true := by
  simp [State.refusesWrite, ready, s.checkWrite_frCtl d h₁ fits, refused, hc]

/-! ### Fresco: what a taken write of TB_FR_CTL leaves -/

/-- A register stored as it stands reads as before everywhere. -/
theorem State.reg_setReg_same (i w j u : Nat) : (s.setReg i w (s.reg i w)).reg j u = s.reg j u := by
  by_cases h : j * 4096 + u = i * 4096 + w
  · have there (t : State) : t.reg j u = t.reg i w := by rw [State.reg, State.reg, h]
    rw [there, there, State.reg_setReg_self]
  · exact s.reg_setReg_other i w j u _ h

/-- So does every field. -/
theorem State.rd_setReg_same (i w : Nat) (f : Fld) (j : Nat) : (s.setReg i w (s.reg i w)).rd f j = s.rd f j := by
  rw [State.rd, State.rd, s.reg_setReg_same]

/-- A write of TB_FR_CTL stores nothing: its fields are strobes. -/
theorem State.mergeWord_frCtl (d : Word) : mergeWord s 0 0x092 d = s.reg 0 0x092 := by
  have noRw : accessMask [.rw] 0x092 = 0#32 := by decide +kernel
  have noW1c : accessMask [.w1c] 0x092 = 0#32 := by decide +kernel
  simp only [mergeWord, noRw, noW1c, BitVec.and_zero, BitVec.or_zero, BitVec.not_zero, BitVec.and_allOnes]

/-- A taken write does what its strobes do, and leaves its response. -/
theorem State.writeWord_frCtl (d : Word) (h : s.takesWrite 0x092 d = true) (u : State)
    (hu : u = tbAct (s.setReg 0 0x092 (s.reg 0 0x092)) 0x092 d) (i w : Nat) (hw : i * 4096 + w ≠ 0x047) :
    (s.writeWord 0x092 d).reg i w = u.reg i w := by
  have act : u = actWord [] (applyWord (s.setReg 0 0x092 (mergeWord s 0 0x092 d)) 0 0x092 (s.reg 0 0x092)) 0 0x092 d := by
    have none : settingOct 0 0x092 = none := by decide +kernel
    rw [hu, s.mergeWord_frCtl]
    simp [applyWord, applyBlock, tbApply, none, actWord]
  obtain ⟨_, _, _, -, same⟩ := s.writeWord_one 0x092 d h rfl (by decide) (by decide) u act
  exact same i w hw

theorem State.rd_writeWord_frCtl (d : Word) (h : s.takesWrite 0x092 d = true) (u : State)
    (hu : u = tbAct (s.setReg 0 0x092 (s.reg 0 0x092)) 0x092 d) (f : Fld) (i : Nat) (hw : f.word < 4096) (hf : f.word ≠ 0x047) :
    (s.writeWord 0x092 d).rd f i = u.rd f i := by
  rw [State.rd, State.rd, s.writeWord_frCtl d h u hu i f.word (by omega)]

theorem State.writeWord_frCtl_regsSameBut (d : Word) (h : s.takesWrite 0x092 d = true) (u : State)
    (hu : u = tbAct (s.setReg 0 0x092 (s.reg 0 0x092)) 0x092 d)
    (stat : (s.setReg 0 0x092 (s.reg 0 0x092)).regsSameBut u [(0, 0x080)]) :
    s.regsSameBut (s.writeWord 0x092 d) [(0, 0x047), (0, 0x080)] := by
  intro i w hw other
  simp only [List.mem_cons, Prod.mk.injEq, List.not_mem_nil, or_false, not_or] at other
  obtain ⟨lastst, tbstat⟩ := other
  rw [s.writeWord_frCtl d h u hu i w (by omega), stat i w hw (by simpa using tbstat), s.reg_setReg_same]

/-! ### Fresco: the strobes (R55, R56, R59) -/

theorem State.tbState_frArm : tbState s 0x092 (Reg.TB_FR_CTL_ARM.set 0 1) = (Code.unless s.frFar Code.value).andThen
    (Code.unless (s.on Reg.TB_STAT_EPOCH_VALID && !s.on Reg.TB_STAT_FR_PENDING && !s.on Reg.TB_STAT_FR_VALID) Code.state) := by
  unfold tbState
  exact if_pos (by decide)

theorem State.tbAct_frArm : tbAct s 0x092 (Reg.TB_FR_CTL_ARM.set 0 1) = s.wr Reg.TB_STAT_FR_PENDING 1 := rfl

theorem State.tbAct_frCancel : tbAct s 0x092 (Reg.TB_FR_CTL_CANCEL.set 0 1) = s.cancelFresco := rfl

theorem State.tbAct_frRelease : tbAct s 0x092 (Reg.TB_FR_CTL_RELEASE.set 0 1) = s.wr Reg.TB_STAT_FR_VALID 0 := rfl

theorem State.tbState_frCancel : tbState s 0x092 (Reg.TB_FR_CTL_CANCEL.set 0 1) = Code.ok := rfl

theorem State.tbState_frRelease : tbState s 0x092 (Reg.TB_FR_CTL_RELEASE.set 0 1) = Code.ok := rfl

/-- The strobes are bits of fields of the word. -/
theorem frCtl_fits : Reg.TB_FR_CTL_ARM.set 0 1 &&& ~~~ fieldMask 0x092 = 0 ∧
    Reg.TB_FR_CTL_CANCEL.set 0 1 &&& ~~~ fieldMask 0x092 = 0 ∧
    Reg.TB_FR_CTL_RELEASE.set 0 1 &&& ~~~ fieldMask 0x092 = 0 := by decide +kernel

section
variable {s} (ready : s.slotReady = true) (h₁ : s.hinge.state ≠ .engaging)
include ready h₁

/-- An ARM is refused by its value while F is near, and else while the epoch is not valid, one is pending, or a snapshot
stands (R55, R318). -/
theorem State.frArm_refused :
    (s.frFar = false → s.refusesWrite 0x092 (Reg.TB_FR_CTL_ARM.set 0 1) Code.value = true) ∧
    (s.frFar = true →
      s.on Reg.TB_STAT_EPOCH_VALID = false ∨ s.on Reg.TB_STAT_FR_PENDING = true ∨ s.on Reg.TB_STAT_FR_VALID = true →
        s.refusesWrite 0x092 (Reg.TB_FR_CTL_ARM.set 0 1) Code.state = true) := by
  obtain ⟨fits, -, -⟩ := frCtl_fits
  refine ⟨fun near => s.refusesWrite_frCtl _ _ ready h₁ fits ?_ (by decide),
    fun far why => s.refusesWrite_frCtl _ _ ready h₁ fits ?_ (by decide)⟩
  · rw [s.tbState_frArm, near]
    rfl
  · have busy : (s.on Reg.TB_STAT_EPOCH_VALID && !s.on Reg.TB_STAT_FR_PENDING && !s.on Reg.TB_STAT_FR_VALID) = false := by
      rcases why with h | h | h <;> simp [h]
    rw [s.tbState_frArm, far, busy]
    rfl

variable (h₂ : s.hinge.state ≠ .engaged) (h₃ : s.hinge.state ≠ .degraded)
include h₂ h₃

/-- Any other ARM is taken (R55). -/
theorem State.frArm_taken (far : s.frFar = true) (valid : s.on Reg.TB_STAT_EPOCH_VALID = true)
    (free : s.on Reg.TB_STAT_FR_PENDING = false) (empty : s.on Reg.TB_STAT_FR_VALID = false) :
    ∃ t, exec (.frArm (Reg.TB_FR_CTL_ARM.set 0 1)) s = .next t ∧ t.on Reg.TB_STAT_FR_PENDING = true ∧
      s.regsSameBut t [(0, 0x047), (0, 0x080)] := by
  have ok : tbState s 0x092 (Reg.TB_FR_CTL_ARM.set 0 1) = Code.ok := by
    rw [s.tbState_frArm, far, valid, free, empty]
    rfl
  have taken := s.takesWrite_frCtl _ ready h₁ h₂ h₃ frCtl_fits.1 ok
  refine ⟨_, rfl, ?_, s.writeWord_frCtl_regsSameBut _ taken _ rfl ?_⟩
  · rw [State.on, s.rd_writeWord_frCtl _ taken _ rfl _ _ (by decide) (by decide), State.tbAct_frArm,
      State.rd_wr_self _ _ _ _ (by decide)]
    rfl
  · rw [State.tbAct_frArm]
    exact State.wr_regsSameBut _ _ _ _ (by decide)

/-- CANCEL is taken in every state that executes it (R56). -/
theorem State.frCancel_taken :
    ∃ t, exec (.frCancel (Reg.TB_FR_CTL_CANCEL.set 0 1)) s = .next t ∧ t.on Reg.TB_STAT_FR_PENDING = false ∧
      t.on Reg.TB_STAT_FR_CANCELLED = (s.on Reg.TB_STAT_FR_PENDING || s.on Reg.TB_STAT_FR_CANCELLED) := by
  have taken := s.takesWrite_frCtl _ ready h₁ h₂ h₃ frCtl_fits.2.1 s.tbState_frCancel
  have shown (f : Fld) (hw : f.word = 0x080) : (s.writeWord 0x092 (Reg.TB_FR_CTL_CANCEL.set 0 1)).on f =
      (s.setReg 0 0x092 (s.reg 0 0x092)).cancelFresco.on f := by
    rw [State.on, s.rd_writeWord_frCtl _ taken _ rfl f 0 (by omega) (by omega), State.tbAct_frCancel, State.on]
  refine ⟨_, rfl, ?_, ?_⟩
  · rw [shown _ rfl, State.cancelFresco_pending]
  · rw [shown _ rfl, State.cancelFresco_cancelled]
    simp only [State.on, s.rd_setReg_same]

/-- So is RELEASE (R59). -/
theorem State.frRelease_taken :
    ∃ t, exec (.frRelease (Reg.TB_FR_CTL_RELEASE.set 0 1)) s = .next t ∧ t.on Reg.TB_STAT_FR_VALID = false ∧
      t.on Reg.TB_STAT_FR_PENDING = s.on Reg.TB_STAT_FR_PENDING ∧ s.regsSameBut t [(0, 0x047), (0, 0x080)] := by
  have taken := s.takesWrite_frCtl _ ready h₁ h₂ h₃ frCtl_fits.2.2 s.tbState_frRelease
  have shown (f : Fld) (hw : f.word = 0x080) : (s.writeWord 0x092 (Reg.TB_FR_CTL_RELEASE.set 0 1)).on f =
      ((s.setReg 0 0x092 (s.reg 0 0x092)).wr Reg.TB_STAT_FR_VALID 0).on f := by
    rw [State.on, s.rd_writeWord_frCtl _ taken _ rfl f 0 (by omega) (by omega), State.tbAct_frRelease, State.on]
  refine ⟨_, rfl, ?_, ?_, s.writeWord_frCtl_regsSameBut _ taken _ rfl ?_⟩
  · rw [shown _ rfl, State.on, State.rd_wr_self _ _ _ _ (by decide)]
    rfl
  · rw [shown _ rfl]
    simp (disch := decide) only [State.on, State.rd_wr_apart, s.rd_setReg_same]
  · rw [State.tbAct_frRelease]
    exact State.wr_regsSameBut _ _ _ _ (by decide)

end

/-! ### Fresco: the latch (R56, R58, R226)

What the latch does with a snapshot is said for any snapshot, so that no proof computes one. -/

/-- The bank holds a snapshot. -/
def State.withSnap (m : Sparse Word) : State := { s with tb := { s.tb with snap := m } }

/-- The snapshot waits for the primary's values (R226). -/
def State.awaitValues : State := { s with tb := { s.tb with frWaits := true } }

theorem State.rd_withSnap (m : Sparse Word) (f : Fld) (i : Nat) : (s.withSnap m).rd f i = s.rd f i := rfl

theorem State.awaitValues_now : s.awaitValues.now = s.now := rfl

theorem State.awaitValues_snap : s.awaitValues.tb.snap = s.tb.snap := rfl

theorem State.rd_awaitValues (f : Fld) (i : Nat) : s.awaitValues.rd f i = s.rd f i := rfl

/-- The bank holds the snapshot, and no Fresco is pending. -/
def State.frescoTaken (m : Sparse Word) : State := (s.withSnap m).wr Reg.TB_STAT_FR_PENDING 0

/-- Then the snapshot is valid, or waits in an engaged shadow. -/
def State.frescoShown (m : Sparse Word) : State :=
  if (s.frescoTaken m).engagedShadow then (s.frescoTaken m).awaitValues else (s.frescoTaken m).wr Reg.TB_STAT_FR_VALID 1

/-- Then source 267 is raised, and a primary sends the commit-gated values (R226). -/
def State.frescoTold (m : Sparse Word) : State :=
  let t := (s.frescoShown m).raiseEvent 267 ((s.frescoShown m).reg 0 0x090).toNat
  if t.engagedPrimary then t.emit (.hinge (.fresco (gatedValues t.tb.snap))) else t

/-- The snapshot is that of the edge that time passes to (R56). -/
theorem State.exec_frescoLatch (run : s.running = true) (pending : s.on Reg.TB_STAT_FR_PENDING = true) (t : State)
    (edge : t = s.advanceTo (s.frF + s.pairOfs)) : exec .frescoLatch s = .next (t.frescoTold t.snapshot) := by
  subst edge
  show execFrescoLatch s = _
  exact if_neg (by simp [run, pending])

variable (m : Sparse Word)

theorem State.frescoTold_tb : (s.frescoTold m).tb = (s.frescoShown m).tb := by
  unfold State.frescoTold
  dsimp only
  split
  · rw [State.emit_tb, State.raiseEvent_tb]
  · rw [State.raiseEvent_tb]

theorem State.frescoTold_now : (s.frescoTold m).now = (s.frescoShown m).now := by
  unfold State.frescoTold
  dsimp only
  split
  · rw [State.emit_now, State.raiseEvent_now]
  · rw [State.raiseEvent_now]

theorem State.rd_emit (o : Out) (f : Fld) (i : Nat) : (s.emit o).rd f i = s.rd f i := rfl

theorem State.rd_frescoTold (f : Fld) (i : Nat) (hw : f.word < 4096) (hg : gatedWord f.word = false) :
    (s.frescoTold m).rd f i = (s.frescoShown m).rd f i := by
  unfold State.frescoTold
  dsimp only
  split
  · rw [State.rd_emit, State.rd_raiseEvent _ _ _ _ _ _ hw hg]
  · rw [State.rd_raiseEvent _ _ _ _ _ _ hw hg]

theorem State.frescoTaken_now : (s.frescoTaken m).now = s.now := by
  rw [State.frescoTaken, State.wr_now, State.withSnap]

theorem State.frescoTaken_snap : (s.frescoTaken m).tb.snap = m := by
  rw [State.frescoTaken, State.wr_tb, State.withSnap]

theorem State.frescoTaken_engagedShadow : (s.frescoTaken m).engagedShadow = s.engagedShadow := by
  simp (disch := decide) only [State.engagedShadow, State.isShadow, State.frescoTaken, State.rd_wr_word, State.rd_withSnap,
    State.wr_hinge]
  rfl

/-- In an engaged shadow the snapshot waits, and TB_STAT_FR_VALID stands as it was (R226). -/
theorem State.frescoShown_shadow (h : s.engagedShadow = true) :
    (s.frescoShown m).rd Reg.TB_STAT_FR_PENDING = 0 ∧ (s.frescoShown m).now = s.now ∧ (s.frescoShown m).tb.snap = m ∧
    (s.frescoShown m).rd Reg.TB_STAT_FR_VALID = s.rd Reg.TB_STAT_FR_VALID ∧ (s.frescoShown m).tb.frWaits = true := by
  rw [State.frescoShown, if_pos ((s.frescoTaken_engagedShadow m).trans h)]
  rw [State.awaitValues_now, State.awaitValues_snap]
  refine ⟨?_, s.frescoTaken_now m, s.frescoTaken_snap m, ?_, rfl⟩
  · rw [State.rd_awaitValues, State.frescoTaken, State.rd_wr_self _ _ _ _ (by decide)]
    rfl
  · simp (disch := decide) only [State.rd_awaitValues, State.frescoTaken, State.rd_wr_apart, State.rd_withSnap]

/-- In any other member the snapshot is valid (R56). -/
theorem State.frescoShown_alone (h : s.engagedShadow = false) :
    (s.frescoShown m).rd Reg.TB_STAT_FR_PENDING = 0 ∧ (s.frescoShown m).now = s.now ∧ (s.frescoShown m).tb.snap = m ∧
    (s.frescoShown m).rd Reg.TB_STAT_FR_VALID = 1 := by
  rw [State.frescoShown, if_neg (by rw [s.frescoTaken_engagedShadow, h]; decide)]
  rw [State.wr_now, State.wr_tb]
  refine ⟨?_, s.frescoTaken_now m, s.frescoTaken_snap m, ?_⟩
  · simp (disch := decide) only [State.frescoTaken, State.rd_wr_apart, State.rd_wr_self]
    rfl
  · rw [State.rd_wr_self _ _ _ _ (by decide)]
    rfl

/-- What the latch leaves in the bank and in TB_STAT (R56, R226). -/
theorem State.frescoTold_latched :
    (s.frescoTold m).on Reg.TB_STAT_FR_PENDING = false ∧ (s.frescoTold m).now = s.now ∧ (s.frescoTold m).tb.snap = m ∧
    (s.engagedShadow = false → (s.frescoTold m).on Reg.TB_STAT_FR_VALID = true) ∧
    (s.engagedShadow = true → (s.frescoTold m).on Reg.TB_STAT_FR_VALID = s.on Reg.TB_STAT_FR_VALID ∧
      (s.frescoTold m).tb.frWaits = true) := by
  simp (disch := decide) only [State.on, State.rd_frescoTold, State.frescoTold_now, State.frescoTold_tb]
  cases shadow : s.engagedShadow with
  | true =>
    obtain ⟨pending, now, snap, valid, waits⟩ := s.frescoShown_shadow m shadow
    rw [pending, valid]
    exact ⟨rfl, now, snap, nofun, fun _ => ⟨rfl, waits⟩⟩
  | false =>
    obtain ⟨pending, now, snap, valid⟩ := s.frescoShown_alone m shadow
    rw [pending, valid]
    exact ⟨rfl, now, snap, fun _ => rfl, nofun⟩

theorem State.engagedShadow_advanceTo (t : Stamp) : (s.advanceTo t).engagedShadow = s.engagedShadow := by
  simp only [State.advanceTo, State.engagedShadow, State.isShadow, State.rd_advance, State.advance_hinge]

theorem State.on_advanceTo (t : Stamp) (f : Fld) : (s.advanceTo t).on f = s.on f := by
  simp only [State.advanceTo, State.on, State.rd_advance]

/-- Time passes to the first edge at which C is there; it may be the present one. -/
theorem State.advanceTo_now (t : Stamp) : (s.advanceTo t).now = s.edgeAt t := by
  have later : s.now ≤ s.edgeAt t := by
    unfold State.edgeAt
    split <;> omega
  rw [State.advanceTo, s.advance_now, Nat.max_eq_right later]

end Sys2Proof.Machine
end

section
namespace Sys2Proof.Machine

/-- Settles O19: each strobe of TB_FR_CTL by its lemma, the latch by `State.frescoTold_latched` at its edge. -/
theorem frescoArmLatchRelease : Obligations.FrescoArmLatchRelease := by
  refine ⟨fun s ready h₁ h₂ h₃ => ?_, fun s run pending => ?_⟩
  · obtain ⟨near, busy⟩ := State.frArm_refused ready h₁
    exact ⟨near, fun far => ⟨busy far, State.frArm_taken ready h₁ h₂ h₃ far⟩, State.frCancel_taken ready h₁ h₂ h₃,
      State.frRelease_taken ready h₁ h₂ h₃⟩
  · obtain ⟨done, now, snap, alone, shadow⟩ := State.frescoTold_latched (s.advanceTo (s.frF + s.pairOfs)) _
    rw [s.advanceTo_now] at now
    rw [s.engagedShadow_advanceTo] at alone shadow
    rw [s.on_advanceTo] at shadow
    exact ⟨_, s.exec_frescoLatch run pending _ rfl, done, now, snap, alone, shadow⟩

end Sys2Proof.Machine
end

section
namespace Sys2Proof.Machine

/-! ### What an event reaches beside the extractor of its pin -/

variable (s : State)

/-- The pins and the present edge of `s` are those of `r`. -/
structure LeavesPins (r s : State) : Prop where
  pins : s.pins = r.pins
  now : s.now = r.now

namespace LeavesPins

variable {r s t : State}

theorem refl (s : State) : LeavesPins s s := ⟨rfl, rfl⟩

theorem trans (h : LeavesPins r s) (k : LeavesPins s t) : LeavesPins r t := ⟨k.pins.trans h.pins, k.now.trans h.now⟩

theorem ite {c : Prop} [Decidable c] (h : LeavesPins r s) (k : LeavesPins r t) : LeavesPins r (if c then s else t) := by
  split
  · exact h
  · exact k

theorem of_records (h : RecordsOnly r s) : LeavesPins r s := ⟨h.pins, h.now⟩

theorem pin (h : LeavesPins r s) (q : Nat) : s.pin q = r.pin q := by
  rw [State.pin, State.pin, h.pins]

end LeavesPins

theorem State.srcLevel_leavesPins (n : Nat) (b : Bool) (stamp : Stamp) : LeavesPins s (s.srcLevel n b stamp) := by
  obtain ⟨x, e⟩ := s.srcLevel_eq n b stamp
  rw [e]
  exact ⟨rfl, rfl⟩

theorem State.eventRecord_leavesPins (n detail : Nat) (port : Option Nat) : LeavesPins s (s.eventRecord n detail port) :=
  .of_records (State.eventRecord_recordsOnly (.refl s) n detail port)

theorem State.setAlert_leavesPins (p : Nat) (f : Fld) (source : Nat) : LeavesPins s (s.setAlert p f source) := by
  have set : LeavesPins s (s.wr f 1 p) := ⟨s.wr_pins f 1 p, s.wr_now f 1 p⟩
  exact .ite (.refl s) ((set.trans (State.eventRecord_leavesPins _ _ _ _)).trans (State.srcLevel_leavesPins _ _ _ _))

theorem State.countPort_leavesPins (m : Move) (f : Fld) (p n : Nat) : LeavesPins s (s.countPort m f p n) :=
  .of_records (State.countPort_recordsOnly (.refl s) m f p n)

theorem State.modPort_leavesPins (p : Nat) (f : Port → Port) : LeavesPins s (s.modPort p f) := ⟨rfl, rfl⟩

theorem State.wakeOct_leavesPins (o cause : Nat) : LeavesPins s (s.wakeOct o cause) := by
  obtain ⟨x, e⟩ := s.wakeOct_eq o cause
  rw [e]
  exact ⟨rfl, rfl⟩

theorem State.wakeByPin_leavesPins (q : Nat) : LeavesPins s (s.wakeByPin q) := by
  have port : LeavesPins s (if s.receives q then s.wakeOct (octOfPin q) 1 else s) := .ite (s.wakeOct_leavesPins _ _) (.refl s)
  exact .ite (port.trans (State.wakeOct_leavesPins _ _ _)) port

theorem State.noteBlock_leavesPins (p : Nat) (e : BlockEntry) : LeavesPins s (s.noteBlock p e) :=
  .ite (s.modPort_leavesPins _ _) (.refl s)

theorem State.noteOwn_leavesPins (p : Nat) (o : Own) : LeavesPins s (s.noteOwn p o) :=
  .ite (s.modPort_leavesPins _ _) (.refl s)

theorem State.shadowStart_leavesPins (p : Nat) (e : PinEvent) : LeavesPins s (s.shadowStart p e) := by
  refine .ite ?_ (.refl s)
  extract_lets seen
  have k : LeavesPins s seen := s.modPort_leavesPins _ _
  split
  · exact k.trans (State.noteOwn_leavesPins _ _ _)
  · exact k

theorem State.ownStart_leavesPins (p : Nat) (e : PinEvent) : LeavesPins s (s.ownStart p e) := by
  unfold State.ownStart
  extract_lets before seen
  have k : LeavesPins s seen := s.modPort_leavesPins _ _
  split
  · exact k.trans (State.noteBlock_leavesPins _ _ _)
  · exact k

theorem State.observeEvent_leavesPins (q : Nat) (e : PinEvent) : LeavesPins s (s.observeEvent q e) :=
  .ite (.ite (s.shadowStart_leavesPins _ _) (.ite (s.ownStart_leavesPins _ _) (.refl s))) (.refl s)

theorem State.trigger_leavesPins (q edge : Nat) (met : List Met) : LeavesPins s (s.trigger q edge met) := by
  unfold State.trigger
  split
  · exact .refl s
  · refine .ite (.refl s) ?_
    extract_lets m mask t joined
    split
    · exact ⟨s.setMon_pins _ _, s.setMon_now _ _⟩
    · rw [State.incSat_eq]
      exact ⟨s.wr_pins _ _ _, s.wr_now _ _ _⟩

/-! ### What an event leaves in the extractor of its pin (R41, R72, R92) -/

/-- The event that two crossings make at a pin, by the stamps and the levels of the present edge. -/
def State.pinEvent (q : Nat) (high glitch : Bool) (x1 x2 : Stamp) : PinEvent :=
  { high := high, glitch := glitch, s1 := s.toPin q x1, s2 := s.toPin q x2, edge := s.edgeOf (x2 + 1),
    prev := if glitch then none else if high then (s.pin q).lastLow else (s.pin q).lastHigh }

theorem Pin.extract_level (x : Pin) (e : PinEvent) (b : Bool) (n : Nat) : (x.extract e b n).level = some e.high := rfl

theorem Pin.extract_sample (x : Pin) (e : PinEvent) (b : Bool) (n : Nat) :
    (x.extract e b n).sample = if e.high then .high else .low := rfl

/-- The event is the newest entry of the recorder. -/
theorem Pin.extract_recorder_last (x : Pin) (e : PinEvent) (b : Bool) (n : Nat) :
    (x.extract e b n).recorder.getLast? = some e := by
  simp [Pin.extract, Pin.record]

/-- An event changes its own pin alone, as the extractor says, and takes no time. -/
theorem State.edgeEvent_extracts (q : Nat) (high glitch : Bool) (x1 x2 : Stamp) :
    ∃ b n t, LeavesPins s t ∧
      LeavesPins (t.setPin q ((s.pin q).extract (s.pinEvent q high glitch x1 x2) b n)) (s.edgeEvent q high glitch x1 x2) := by
  unfold State.edgeEvent
  extract_lets x prev e n1 alerted taken seen met shown
  have before : LeavesPins s alerted :=
    .ite ((s.setAlert_leavesPins _ _ _).trans (State.countPort_leavesPins _ _ _ _ _)) (.refl s)
  refine ⟨alerted.receives q, n1, alerted, before, ?_⟩
  have activity : LeavesPins (alerted.setPin q (x.extract e (alerted.receives q) n1)) taken := ⟨rfl, rfl⟩
  have reached : LeavesPins taken seen :=
    (LeavesPins.ite (.refl taken) (taken.wakeByPin_leavesPins q)).trans (State.observeEvent_leavesPins _ q e)
  have monitored : LeavesPins seen shown := ⟨rfl, rfl⟩
  exact ((activity.trans reached).trans monitored).trans (State.trigger_leavesPins _ _ _ _)

theorem State.edgeEvent_pin (q : Nat) (high glitch : Bool) (x1 x2 : Stamp) :
    ∃ b n, (s.edgeEvent q high glitch x1 x2).pin q = (s.pin q).extract (s.pinEvent q high glitch x1 x2) b n := by
  obtain ⟨b, n, t, -, k⟩ := s.edgeEvent_extracts q high glitch x1 x2
  exact ⟨b, n, (k.pin q).trans (t.pin_setPin_self _ _)⟩

theorem State.edgeEvent_otherPin (q r : Nat) (h : r ≠ q) (high glitch : Bool) (x1 x2 : Stamp) :
    (s.edgeEvent q high glitch x1 x2).pin r = s.pin r := by
  obtain ⟨b, n, t, l, k⟩ := s.edgeEvent_extracts q high glitch x1 x2
  exact ((k.pin r).trans (t.pin_setPin_other _ _ _ h)).trans (l.pin r)

theorem State.edgeEvent_now (q : Nat) (high glitch : Bool) (x1 x2 : Stamp) :
    (s.edgeEvent q high glitch x1 x2).now = s.now := by
  obtain ⟨b, n, t, l, k⟩ := s.edgeEvent_extracts q high glitch x1 x2
  exact k.now.trans l.now

/-! ### PIN_TRANSITION -/

/-- Time passes to an edge, and nothing else happens. -/
theorem State.advanceTo_eq (t : Stamp) : ∃ n x, s.advanceTo t = { s with now := n, c := x } := by
  obtain ⟨x, e⟩ := s.advance_eq (s.edgeAt t)
  exact ⟨_, x, e⟩

theorem State.pin_advanceTo (t : Stamp) (q : Nat) : (s.advanceTo t).pin q = s.pin q := by
  obtain ⟨n, x, e⟩ := s.advanceTo_eq t
  rw [e, State.pin, State.pin]

/-- The stamps of a crossing do not depend on the edge at which it is known (R41). -/
theorem State.toPin_advanceTo (t : Stamp) (q : Nat) (x : Stamp) : (s.advanceTo t).toPin q x = s.toPin q x := by
  simp only [State.toPin, State.pairOfs, State.advanceTo, State.rd_advance]

variable {s} {q : PinIx} (high glitch : Bool) (x1 x2 : Stamp)

theorem exec_pinTransition_frozen (h : s.samples q.val = false) : exec (.pinTransition q high glitch x1 x2) s = .next s :=
  if_pos (by simp [h])

theorem exec_pinTransition_sampled (h : s.samples q.val = true) (t : State) (edge : t = s.advanceTo (x2 + 1)) :
    exec (.pinTransition q high glitch x1 x2) s =
      match (s.pin q.val).level with
      | none => .next (t.firstLevel q.val high)
      | some l => if (l == high) == glitch then .next (t.edgeEvent q.val high glitch x1 x2) else .next t := by
  rw [← s.pin_advanceTo (x2 + 1) q.val, edge]
  exact if_neg (by simp [h])

theorem exec_pinTransition_event (h : s.samples q.val = true)
    (level : (s.pin q.val).level = some (if glitch then high else !high)) :
    exec (.pinTransition q high glitch x1 x2) s = .next ((s.advanceTo (x2 + 1)).edgeEvent q.val high glitch x1 x2) := by
  have agrees : ((if glitch then high else !high) == high) = glitch := by cases glitch <;> cases high <;> rfl
  rw [exec_pinTransition_sampled high glitch x1 x2 h _ rfl, level]
  exact if_pos (by rw [agrees, beq_self_eq_true])

theorem exec_pinTransition_first (h : s.samples q.val = true) (level : (s.pin q.val).level = none) :
    exec (.pinTransition q high glitch x1 x2) s = .next ((s.advanceTo (x2 + 1)).firstLevel q.val high) := by
  rw [exec_pinTransition_sampled high glitch x1 x2 h _ rfl, level]

end Sys2Proof.Machine
end

section
namespace Sys2Proof.Machine

/-- Settles O25: an event by what `State.edgeEvent_extracts` says of the pins, a first level by its own update. -/
theorem pinTransitionIsExtracted : Obligations.PinTransitionIsExtracted := by
  refine fun s q high glitch x1 x2 => ⟨fun run level => ?_, fun run level => ?_, exec_pinTransition_frozen high glitch x1 x2⟩
  · obtain ⟨b, n, pin⟩ := (s.advanceTo (x2 + 1)).edgeEvent_pin q.val high glitch x1 x2
    refine ⟨_, (s.advanceTo (x2 + 1)).pinEvent q.val high glitch x1 x2,
      exec_pinTransition_event high glitch x1 x2 run level, ?_, ?_, rfl, rfl, s.toPin_advanceTo _ _ _,
      s.toPin_advanceTo _ _ _, ?_, ?_, ?_, fun r other => ?_⟩
    · rw [pin, Pin.extract_level]
      rfl
    · rw [pin, Pin.extract_sample]
      rfl
    · rw [State.pinEvent, s.pin_advanceTo]
    · rw [pin, Pin.extract_recorder_last]
    · rw [State.edgeEvent_now, s.advanceTo_now]
    · rw [State.edgeEvent_otherPin _ _ _ other, s.pin_advanceTo]
  · obtain ⟨n, x, edge⟩ := s.advanceTo_eq (x2 + 1)
    refine ⟨_, exec_pinTransition_first high glitch x1 x2 run level, ?_, ?_, ?_, ?_⟩
    · rw [State.firstLevel, State.modPin_eq, State.pin_setPin_self]
    · rw [State.firstLevel, State.modPin_eq, State.pin_setPin_self, s.pin_advanceTo]
    · rw [edge]
      rfl
    · rw [edge]
      rfl

end Sys2Proof.Machine
end

section
namespace Sys2Proof.Machine

/-! ### A palette change that waits in a degraded shadow

The shadow of a pair waits for the primary's boundary while it follows a primary: in ENGAGING and in DEGRADED as in ENGAGED
(R248; log entry 35). -/

/-- A degraded shadow whose port 0, in TRACK between characters, has accepted a palette change. -/
def degradedShadowWaits : State :=
  { eventSourceSelected with
    hinge := { state := .degraded }
    regs := [(0x180, Reg.HG_CFG_ROLE.set (resetWord 0x180) 2)]
    ports := [(0, { rx := .track, trk := { period := 1677721600, sawMark := true }, palWaits := true })] }

/-- It follows its primary, although it is not engaged. -/
theorem degradedShadowWaits_shadowing : degradedShadowWaits.shadowing = true ∧ degradedShadowWaits.engagedShadow = false := by
  decide +kernel

/-- The change still waits after the boundary of a port on its own. -/
theorem degradedShadowWaits_boundary :
    Ends (fun t => (t.port 0).palWaits = true) (exec (.paletteBoundary 0) degradedShadowWaits) := by
  rfl

/-- Refutes O24: a degraded shadow applies no change at the boundary, although it is not engaged. -/
theorem not_portSettingsChange : ¬ Obligations.PortSettingsChange := by
  unfold Obligations.PortSettingsChange
  rintro ⟨-, boundary⟩
  obtain ⟨applies, -⟩ := boundary degradedShadowWaits 0 (by decide) (by decide) (by decide) (by decide) (by decide)
  obtain ⟨t, e, -, applied, -⟩ := applies (by decide) (by decide) (by decide) degradedShadowWaits_shadowing.2
  have waits : (t.port 0).palWaits = true := degradedShadowWaits_boundary.of_next e
  exact Bool.false_ne_true (applied.symm.trans waits)

end Sys2Proof.Machine
end

section
namespace Sys2Proof.Machine

/-! ### A character that starts before the last palette boundary

A character whose start transition lies at or before the boundary keeps the settings from before it (R69): its last stop-bit
centre, and so the edge of its check, are theirs. -/

/-- Settings with two stop bits. -/
def twoStopBits : Settings := { frame := Reg.PL_FRAME_STOP.set 8 2 }

/-- A start transition that was still on its way to the core when the boundary came. -/
def startBeforeBoundary : Frame := { t0 := 1590000, stamp := 1590000 }

/-- A device in service whose port 0 tracks that character, with the settings before the boundary kept for it. Its input path
is without delay. -/
def tracksAcrossBoundary : State :=
  { eventSourceSelected with
    regs := [(rxPin 0 * 4096 + Reg.TB_PINPATH_IN_PATH.word, 0)]
    ports := [(0, { rx := .track, setOld := some (1590100, twoStopBits),
                    trk := { period := 1677721600, cur := some startBeforeBoundary } })] }

/-- Under the settings after the boundary, its check would be at this edge. -/
theorem tracksAcrossBoundary_edgeAfter : max tracksAcrossBoundary.now (tracksAcrossBoundary.coreEdge 0
    (startBeforeBoundary.centre (tracksAcrossBoundary.port 0).set (tracksAcrossBoundary.port 0).trk.period)) = 114591 := by
  decide +kernel

/-- It is checked one bit period later, behind the second stop bit of the settings it started under. -/
theorem tracksAcrossBoundary_checked :
    Ends (fun t => t.now = 116191) (exec (.stopBitCheck 0) tracksAcrossBoundary) := by
  change ((tracksAcrossBoundary.ripen 0).runCheck 0).now = 116191
  decide +kernel

/-- Refutes O27: the check of a character that started before the last palette boundary follows the settings from before it
(R69), the statement's edge those after it. -/
theorem not_charactersAndBreaksEnd : ¬ Obligations.CharactersAndBreaksEnd := by
  unfold Obligations.CharactersAndBreaksEnd
  rintro ⟨ends, -⟩
  obtain ⟨t, e, edge, -⟩ := ends tracksAcrossBoundary 0 startBeforeBoundary (by decide) (by decide) (by decide) (by decide)
    (by decide) (by decide) (by decide) (by decide)
  have late : t.now = 116191 := tracksAcrossBoundary_checked.of_next e
  have early : t.now = 114591 := edge.trans tracksAcrossBoundary_edgeAfter
  omega

end Sys2Proof.Machine
end

section
namespace Sys2Proof.Machine

/-! ### A transmitter enabled while its last character is still on the line

PT_TXCFG_EN from 1 to 0 lets the character in flight end, and only then is the port OFF (R140). An enable before that end
leaves the character, and its end, as they are. -/

/-- A word of PT_TXCFG that enables a transmitter. -/
def enablesTx : Word := Reg.PT_TXCFG_EN.set 0 1

/-- Transmitter 0 is disabled, and sends its last character to the end. -/
def stopsAfterCharacter : State :=
  { eventSourceSelected with
    pins := [(0, { owner := .tx, pad := .drive, driven := some true, switchWaits := true })]
    ports := [(0, { tx := .send, stopAfter := some 5,
                    flowFlight := some ⟨true, 0x13, 1599000, 1855000, 1677721600⟩ })] }

/-- The enabling write is accepted. -/
theorem stopsAfterCharacter_taken : stopsAfterCharacter.takesOne 0x414 enablesTx = true := by decide +kernel

/-- The transmitter is not enabled before it. -/
theorem stopsAfterCharacter_off : stopsAfterCharacter.on Reg.PT_TXCFG_EN (stopsAfterCharacter.selOf 0x414) = false := by decide +kernel

/-- The enable leaves the stop behind the character. -/
theorem stopsAfterCharacter_stays :
    Ends (fun t => (t.port (stopsAfterCharacter.selOf 0x414)).stopAfter = some 5) (exec (.txEnable enablesTx) stopsAfterCharacter) := by
  change ((stopsAfterCharacter.writeWord 0x414 enablesTx).port (stopsAfterCharacter.selOf 0x414)).stopAfter = some 5
  decide +kernel

/-- Refutes O21: TX_ENABLE does not take back the stop of a transmitter whose last character is in flight (R140). -/
theorem not_portRingAndPairWritesAct : ¬ Obligations.PortRingAndPairWritesAct := by
  unfold Obligations.PortRingAndPairWritesAct
  intro h
  obtain ⟨-, tx, -⟩ := h stopsAfterCharacter enablesTx
  obtain ⟨t, e, -, -, stop, -⟩ := tx _ rfl stopsAfterCharacter_taken
  have gone : (t.port (stopsAfterCharacter.selOf 0x414)).stopAfter = none := stop (by decide) stopsAfterCharacter_off
  have stays : (t.port (stopsAfterCharacter.selOf 0x414)).stopAfter = some 5 := stopsAfterCharacter_stays.of_next e
  exact Option.some_ne_none 5 (stays.symm.trans gone)

end Sys2Proof.Machine
end

section
namespace Sys2Proof.Machine

/-! ### A commit point of the Almanac's ring

The records of a CHECKPOINT are counted events of AL_CPCOUNT: the count shows the checkpoint once all of them are committed
(R216, R460). An engaged shadow holds the primary's entries (R457), so the commit point of their ring moves its AL_CPCOUNT too
(R248; log entry 115). No move waits in `State.gated` for it: the count follows the Almanac queue. -/

/-- The primary's first CHECKPOINT, of CPCOUNT 1, whose records carry event 5. -/
def firstCheckpoint : AlEntry :=
  { index := 1, stamp := 1500000, kind := 7, nrec := 4, port := 0, since := 99000, ready := true, signed := true, built := some 5,
    bytes := alBytes 1 1500000 7 4 0 [] (leBytes 8 1 ++ leBytes 8 0) }

/-- Record `k` of it, as a shadow holds it in full (R450, R457). -/
def firstCheckpointRecord (k : Nat) : Rec :=
  { uid := k + 1, ring := 0, type := .almanac, seq := 1, base := firstCheckpoint.stamp, since := firstCheckpoint.since, order := k,
    held := true, events := [k + 1, 5],
    body := .raw ([BitVec.ofNat 8 k, 4] ++ leBytes 6 0 ++ slice firstCheckpoint.bytes (40 * k) 40) }

/-- An engaged shadow that holds the four records of that entry, none committed, in ring 0: the Almanac's, of kind event. -/
def shadowHoldsCheckpoint : State :=
  { eventSourceSelected with
    hinge := { state := .engaged, up := true }
    regs := [(0x180, Reg.HG_CFG_ROLE.set (resetWord 0x180) 2), (0x1C0, Reg.AL_CFG_EN.set (resetWord 0x1C0) 1),
             (0x501, Reg.RG_CFG_KIND.set (Reg.RG_CFG_EN.set (resetWord 0x501) 1) 2)]
    rings := [(0, { state := .active })]
    staging := (List.range 4).map firstCheckpointRecord
    nextUid := 6
    nextOrder := 4
    almanac := Almanac.suspend {} { index := 2, hash := sha256 firstCheckpoint.bytes, cpcount := 1, cpFrom := 2,
                                    queue := [firstCheckpoint] } }

/-- It follows its primary, and no counter field waits for a record. -/
theorem shadowHoldsCheckpoint_follows : shadowHoldsCheckpoint.follows = true ∧ shadowHoldsCheckpoint.gated = [] := by
  decide +kernel

/-- No checkpoint is committed yet. -/
theorem shadowHoldsCheckpoint_cpcount : shadowHoldsCheckpoint.reg 0 Reg.AL_CPCOUNT.word = 0 := by decide +kernel

/-- The commit point behind the four records makes it the first committed checkpoint. -/
theorem shadowHoldsCheckpoint_commit :
    Ends (fun t => t.reg 0 Reg.AL_CPCOUNT.word = 1) (exec (.commitPointRecv 0 4) shadowHoldsCheckpoint) := by
  simp only [exec, execCommitPointRecv, shadowHoldsCheckpoint_follows, Bool.not_true, Bool.false_eq_true, if_false]
  unfold Ends
  decide +kernel

/-- Refutes O40: a commit point that commits a CHECKPOINT moves AL_CPCOUNT beside the two counts of its ring. -/
theorem not_theShadowFollows : ¬ Obligations.TheShadowFollows := by
  unfold Obligations.TheShadowFollows
  intro h
  obtain ⟨follows, gated⟩ := shadowHoldsCheckpoint_follows
  obtain ⟨taken, -⟩ := h shadowHoldsCheckpoint
  obtain ⟨-, -, -, -, -, -, -, commit, -⟩ := taken follows
  obtain ⟨t, e, -, same, -⟩ := commit 0 4 gated
  have stays : t.reg 0 Reg.AL_CPCOUNT.word = 0 :=
    (same 0 Reg.AL_CPCOUNT.word (by decide) (by decide)).trans shadowHoldsCheckpoint_cpcount
  have moved : t.reg 0 Reg.AL_CPCOUNT.word = 1 := shadowHoldsCheckpoint_commit.of_next e
  exact absurd (stays.symm.trans moved) (by decide)

end Sys2Proof.Machine
end

section
namespace Sys2Proof.Machine

/-! ### A counter move that names a fault bit

A failed read completion sets RG_STAT_FAULT_RD and then raises source 272 (R208, R271). The EVENT record of that source may be
the next one behind a loss, and forming the GAP record of the loss applies the counter moves that wait for nothing (R216,
R236). The statement asks nothing of the moves that wait: one that names the fault bit itself takes the bit back. No operation
of the model queues such a move (RG_STAT_BREACH and RG_STAT_GAP are the bits of RG_STAT that moves name), so this is a state
that the statement admits and no run reaches. -/

/-- An ACTIVE submission ring 0, and ring 1, the event ring, with a loss. A move that clears RG_STAT_FAULT_RD of ring 0 waits
for no event. -/
def clearingMoveWaits : State :=
  { eventSourceSelected with
    regs := [(0x501, Reg.RG_CFG_KIND.set (Reg.RG_CFG_EN.set (resetWord 0x501) 1) 0),
             (0x5F0, Reg.RG_EVRING_RING.set (Reg.RG_EVRING_EN.set (resetWord 0x5F0) 1) 1),
             (4096 + 0x501, Reg.RG_CFG_KIND.set (Reg.RG_CFG_EN.set (resetWord 0x501) 1) 2)]
    rings := [(0, { state := .active }), (1, { state := .active, loss := some { others := 1, first := 1500000, last := 1500000 } })]
    gated := [⟨Reg.RG_STAT_FAULT_RD.word, Reg.RG_STAT_FAULT_RD.lo, Reg.RG_STAT_FAULT_RD.width, 0, .set, 0, [], true⟩] }

/-- The ring has entered FAULT with its RD bit, and source 272 is raised (R208). -/
def State.readFailed (s : State) (n : RingIx) (status : BitVec 3) : State :=
  ((s.modRing n.val (fun r => { r with state := if r.state = .active then .fault else r.state })).wr
    Reg.RG_STAT_FAULT_RD 1 n.val).raiseEvent 272 (n.val + 256 * status.toNat)

/-- Where no port holds a descriptor, a failed read does no more. -/
theorem exec_readCompletionFail_alone (s : State) (n : RingIx) (status : BitVec 3) (address : BitVec 64) (run : s.running = true)
    (on : (s.ring n.val).state ≠ .off) (kind : s.rd Reg.RG_CFG_KIND n.val = 0) (alone : (s.readFailed n status).ports = []) :
    exec (.readCompletionFail n status address) s = .next (s.readFailed n status) := by
  unfold State.readFailed at alone ⊢
  simp only [exec, execReadCompletionFail, run, on, kind, alone, Bool.not_true, Bool.false_eq_true, if_false, ne_eq,
    not_false_eq_true, and_self, if_true, List.flatMap_nil, List.filter_nil, List.find?_nil]

theorem clearingMoveWaits_submits : clearingMoveWaits.running = true ∧
    (clearingMoveWaits.ring (0 : RingIx).val).state ≠ .off ∧ clearingMoveWaits.rd Reg.RG_CFG_KIND (0 : RingIx).val = 0 ∧
    (clearingMoveWaits.readFailed 0 0).ports = [] := by decide +kernel

/-- The failed read leaves the fault bit clear. -/
theorem clearingMoveWaits_cleared : (clearingMoveWaits.readFailed 0 0).on Reg.RG_STAT_FAULT_RD (0 : RingIx).val = false := by
  decide +kernel

/-- Refutes O33: a failed read completion applies the counter moves that wait for nothing, whichever field they name. -/
theorem not_recordsAndRingsMove : ¬ Obligations.RecordsAndRingsMove := by
  unfold Obligations.RecordsAndRingsMove
  intro h
  obtain ⟨run, on, kind, alone⟩ := clearingMoveWaits_submits
  obtain ⟨-, rings⟩ := h
  obtain ⟨-, -, fails⟩ := rings clearingMoveWaits 0 run
  obtain ⟨t, e, -, -, flag, -⟩ := fails 0 0 on kind
  have out : t = clearingMoveWaits.readFailed 0 0 :=
    Host.Outcome.next.inj (e.symm.trans (exec_readCompletionFail_alone clearingMoveWaits 0 0 0 run on kind alone))
  rw [out] at flag
  exact Bool.false_ne_true (clearingMoveWaits_cleared.symm.trans flag)

end Sys2Proof.Machine
end

section
namespace Sys2Proof.Machine

/-! ### What a completion forms (R137, R139, R200) -/

variable (s : State)

theorem State.formTx_recordsOnly {r₀ s₀ : State} (h₀ : RecordsOnly r₀ s₀) (x : Rec) : RecordsOnly r₀ (s₀.formTx x).2 := by
  unfold State.formTx
  split
  · exact State.form_recordsOnly h₀ x none
  · exact RecordsOnly.mk_iff.mpr h₀

theorem State.txDone_recordsOnly {r₀ s₀ : State} (h₀ : RecordsOnly r₀ s₀) (p : Nat) (d : Desc) (status cause : Nat)
    (sd : Option Sending) : RecordsOnly r₀ (s₀.txDone p d status cause sd) := by
  have formed := State.formTx_recordsOnly h₀
  exact .ite (State.count_recordsOnly (formed _) ..) (.ite (State.count_recordsOnly (formed _) ..) (formed _))

theorem State.move_records (g : Gated) : (s.move g).staging = s.staging ∧ (s.move g).unbuilt = s.unbuilt := by
  unfold State.move
  split
  · exact ⟨rfl, rfl⟩
  · split <;> exact ⟨rfl, rfl⟩

theorem State.settle_records : s.settle.staging = s.staging ∧ s.settle.unbuilt = s.unbuilt := by
  unfold State.settle
  extract_lets held ready
  generalize s.gated.filter ready = moves
  have begun : ({ s with gated := s.gated.filter (fun g => !ready g) } : State).staging = s.staging ∧
      ({ s with gated := s.gated.filter (fun g => !ready g) } : State).unbuilt = s.unbuilt := ⟨rfl, rfl⟩
  generalize ({ s with gated := s.gated.filter (fun g => !ready g) } : State) = t at begun
  induction moves generalizing t with
  | nil => exact begun
  | cons g rest ih =>
    obtain ⟨staging, unbuilt⟩ := t.move_records g
    exact ih _ ⟨staging.trans begun.1, unbuilt.trans begun.2⟩

/-- A record is in staging, or waits for room there. -/
def State.hasRec (x : Rec) : Prop := x ∈ s.staging ∨ x ∈ s.unbuilt

theorem State.hasRec_congr {t : State} (h : t.staging = s.staging ∧ t.unbuilt = s.unbuilt) (x : Rec) :
    t.hasRec x ↔ s.hasRec x := by
  unfold State.hasRec
  rw [h.1, h.2]

theorem State.hasRec_count (m : Move) (f : Fld) (i n : Nat) (waits : List Nat) (own : Bool) (x : Rec) :
    (s.count m f i n waits own).hasRec x ↔ s.hasRec x :=
  s.hasRec_congr (State.settle_records { s with gated := s.gated ++ [⟨f.word, f.lo, f.width, i, m, n, waits, own⟩] }) x

theorem State.noteStaging_records : s.noteStaging.staging = s.staging ∧ s.noteStaging.unbuilt = s.unbuilt := by
  unfold State.noteStaging
  dsimp only
  split
  · exact ⟨rfl, rfl⟩
  · split <;> exact ⟨rfl, rfl⟩

theorem State.sendMark_records (x : Rec) : (s.sendMark x).staging = s.staging ∧ (s.sendMark x).unbuilt = s.unbuilt := by
  unfold State.sendMark
  split <;> exact ⟨rfl, rfl⟩

theorem State.hasRec_stage (x y : Rec) : (s.stage x).hasRec y ↔ s.hasRec y ∨ y = x := by
  unfold State.stage
  rw [State.hasRec_congr _ (State.noteStaging_records _)]
  simp only [State.hasRec, List.mem_append, List.mem_singleton]
  exact or_right_comm

/-- A transmit record that is formed keeps its type, number, port and flags, and no other record goes. -/
theorem State.formTx_forms (x : Rec) {u : Nat} {t : State} (formed : s.formTx x = (u, t)) :
    (∃ y, t.hasRec y ∧ y.type = x.type ∧ y.seq = x.seq ∧ y.port = x.port ∧ y.late = x.late) ∧
      ∀ y, s.hasRec y → t.hasRec y := by
  obtain rfl : (s.formTx x).2 = t := congrArg Prod.snd formed
  unfold State.formTx
  split
  · unfold State.form
    extract_lets u r
    have staged (y : Rec) := (State.hasRec_congr _ (State.sendMark_records _ r) y).trans
      (State.hasRec_stage { s with nextUid := u + 1, nextOrder := s.nextOrder + 1 } r y)
    exact ⟨⟨r, (staged r).mpr (.inr rfl), rfl, rfl, rfl, rfl⟩, fun y had => (staged y).mpr (.inl had)⟩
  · exact ⟨⟨_, .inr (List.mem_append_right _ (List.mem_singleton_self _)), rfl, rfl, rfl, rfl⟩,
      fun y had => had.imp_right (List.mem_append_left _)⟩

/-- A descriptor completes with a TXDONE record under its tag; no record goes. -/
theorem State.txDone_forms (p : Nat) (d : Desc) (status cause : Nat) (sd : Option Sending) :
    (∃ y, (s.txDone p d status cause sd).hasRec y ∧ y.type = .txdone ∧ y.seq = d.tag ∧ y.port = p ∧ y.late = (status == 1)) ∧
      ∀ y, s.hasRec y → (s.txDone p d status cause sd).hasRec y := by
  unfold State.txDone
  extract_lets sent first obs base cfl ring
  split
  rename_i u t formed
  have forms := s.formTx_forms _ formed
  split
  · simpa only [State.hasRec_count] using forms
  · split
    · simpa only [State.hasRec_count] using forms
    · exact forms

end Sys2Proof.Machine
end

section
namespace Sys2Proof.Machine

/-! ### A character begins (R129, R133, R134) -/

variable (s : State) (p : Nat)

/-- A job's next character in flight from launch stamp `t` on, with value `v`. -/
def Sending.inFlight (sd : Sending) (set : Settings) (v : BitVec 9) (t : Stamp) (bit : Nat) : Sending :=
  { sd.begin_ set with flight := some (v, t, set.frameEnd t bit), bit := bit, seen := none, first := sd.first.or (some t) }

/-- The value of a job's next character, cut to its data bits. -/
def State.charValue (set : Settings) (sd : Sending) : BitVec 9 :=
  (s.nextChar p set sd).1 &&& BitVec.ofNat 9 (2 ^ set.data - 1)

/-- The port when a character of a job that stands so begins, framed by `set`. -/
def Port.begins (x : Port) (set : Settings) (sd : Sending) : Port :=
  { x with tx := .send, lineSet := set, sending := some sd }

/-- The port when its flow character begins, framed by `set`. -/
def Port.beginsFlow (x : Port) (set : Settings) (f : FlowFlight) : Port :=
  { x with tx := .send, lineSet := set, flowFlight := some f }

/-- The value of a flow character, in up to 8 data bits (R144). -/
def State.flowValue (xoff : Bool) (set : Settings) : BitVec 9 :=
  BitVec.ofNat 9 (s.rd (if xoff then Reg.PT_FCCFG_XOFF else Reg.PT_FCCFG_XON) p) &&& BitVec.ofNat 9 (2 ^ min 8 set.data - 1)

/-- The job in progress. -/
def Port.withJob (x : Port) (sd : Sending) : Port := { x with sending := some sd }

/-- The start edge of port `p` has gone out at `t`; time and registers are as they were. -/
structure StartsAt (r s : State) (p : Nat) (set : Settings) (t : Stamp) : Prop where
  now : s.now = r.now
  regs : s.regs = r.regs
  out : s.out = r.out ++ [.pinLevel (txPin p) ((r.pin (txPin p)).outLevel set.inverted) t]

theorem State.startEdgeOut_starts (x : Port) (set : Settings) (t : Stamp) :
    StartsAt s ((s.setPort p x).startEdgeOut p set t) p set t := by
  unfold State.startEdgeOut State.octActive
  rw [State.modOct_eq]
  exact ⟨State.setOct_now .., State.setOct_regs .., State.setOct_out ..⟩

theorem State.startEdgeOut_port (set : Settings) (t : Stamp) (q : Nat) : (s.startEdgeOut p set t).port q = s.port q := rfl

/-- Reading the next character takes free values alone. -/
theorem State.nextChar_frame (set : Settings) (sd : Sending) : ∃ k, (s.nextChar p set sd).2 = { s with free := k } := by
  unfold State.nextChar
  split
  · exact ⟨_, rfl⟩
  · split
    · split
      · exact ⟨_, rfl⟩
      · split <;> exact ⟨_, rfl⟩
    · exact ⟨_, rfl⟩

theorem StartsAt.of_same {r t u : State} {p : Nat} {set : Settings} {at_ : Stamp} (now : t.now = r.now) (regs : t.regs = r.regs)
    (out : t.out = r.out) (pins : t.pins = r.pins) (h : StartsAt t u p set at_) : StartsAt r u p set at_ := by
  refine ⟨h.now.trans now, h.regs.trans regs, h.out.trans ?_⟩
  rw [out, State.pin, State.pin, pins]

theorem State.beginNext_starts {sd : Sending} (set : Settings) (t : Stamp) (bit : Nat) (job : (s.port p).sending = some sd)
    (more : sd.isDone = false) :
    StartsAt s (s.beginNext p set t bit) p set t ∧
      (s.beginNext p set t bit).port p = (s.port p).begins set (sd.inFlight set (s.charValue p set sd) t bit) := by
  obtain ⟨k, frame⟩ := s.nextChar_frame p set sd
  have port : (s.nextChar p set sd).2.port p = s.port p := by rw [frame]; rfl
  have now : (s.nextChar p set sd).2.now = s.now := by rw [frame]
  have regs : (s.nextChar p set sd).2.regs = s.regs := by rw [frame]
  have out : (s.nextChar p set sd).2.out = s.out := by rw [frame]
  have pins : (s.nextChar p set sd).2.pins = s.pins := by rw [frame]
  unfold State.beginNext
  simp only [job, more, Bool.false_eq_true, if_false, State.modPort_eq, port]
  refine ⟨.of_same now regs out pins (State.startEdgeOut_starts _ p _ set t), ?_⟩
  rw [State.startEdgeOut_port, State.port_setPort_self]
  rfl

theorem State.beginFlow_starts (xoff : Bool) (set : Settings) (t : Stamp) (bit : Nat) :
    StartsAt s (s.beginFlow p xoff set t bit) p set t ∧
      (s.beginFlow p xoff set t bit).port p =
        (s.port p).beginsFlow set ⟨xoff, s.flowValue p xoff set, t, set.frameEnd t bit, bit⟩ := by
  unfold State.beginFlow
  refine ⟨s.startEdgeOut_starts p _ set t, ?_⟩
  rw [State.startEdgeOut_port, State.modPort_eq, State.port_setPort_self]
  rfl

/-! ### The value of a character (R129, R154) -/

theorem Port.addrMode_congr {x y : Port} (rx : y.rx = x.rx) (held : y.rxHeld = x.rxHeld) (set : y.set = x.set)
    (tx : y.txSet = x.txSet) : y.addrMode = x.addrMode := by
  unfold Port.addrMode Port.rxIdle Port.rxNow
  rw [rx, held, set, tx]

/-- The value depends on the registers, the free values taken and the address mode alone. -/
theorem State.charValue_congr (t : State) (regs : t.regs = s.regs) (free : t.free = s.free)
    (mode : (t.port p).addrMode = (s.port p).addrMode) (set : Settings) (sd : Sending) :
    t.charValue p set sd = s.charValue p set sd := by
  have addr (k : Nat) : t.addrChar p k = s.addrChar p k := by
    unfold State.addrChar
    rw [s.rd_congr t regs, mode]
  unfold State.charValue State.nextChar State.takeFree
  rw [addr, mode, free]
  split
  · rfl
  · split
    · split
      · rfl
      · split <;> rfl
    · rfl

/-- The partner that a job's address character names (R154, R158). -/
def TxJob.addressee : TxJob → Nat
  | .desc d => d.partner
  | .reply r => r.to_

theorem State.charValue_addr (set : Settings) {sd : Sending} (due : sd.addrDue = true) :
    s.charValue p set sd = s.addrChar p sd.job.addressee &&& BitVec.ofNat 9 (2 ^ set.data - 1) := by
  unfold State.charValue State.nextChar
  rw [if_pos due]
  rfl

theorem State.charValue_byte (set : Settings) {sd : Sending} {a : Byte} {rest : List Byte} (data : sd.addrDue = false)
    (bytes : sd.job.bytes.drop sd.used = a :: rest) (narrow : set.data ≠ 9) :
    s.charValue p set sd = a.zeroExtend 9 &&& BitVec.ofNat 9 (2 ^ set.data - 1) := by
  unfold State.charValue State.nextChar
  simp only [data, Bool.false_eq_true, if_false, bytes, narrow, ne_eq, not_false_eq_true, true_or, if_true]

theorem State.charValue_pair (set : Settings) {sd : Sending} {a b : Byte} {rest : List Byte} (data : sd.addrDue = false)
    (bytes : sd.job.bytes.drop sd.used = a :: b :: rest) (wide : set.data = 9) :
    s.charValue p set sd = if (s.port p).addrMode = 1 then a.zeroExtend 9 else (b.zeroExtend 9 <<< 8) ||| a.zeroExtend 9 := by
  have whole (v : BitVec 9) : v &&& BitVec.ofNat 9 (2 ^ set.data - 1) = v := by
    rw [wide]
    exact BitVec.and_allOnes
  unfold State.charValue State.nextChar
  rw [whole]
  simp only [data, Bool.false_eq_true, if_false, bytes, wide, ne_eq, not_true_eq_false, false_or]
  split <;> rfl

theorem Sending.inFlight_used (sd : Sending) (set : Settings) (v : BitVec 9) (t : Stamp) (bit : Nat) :
    (sd.inFlight set v t bit).used = if sd.addrDue then sd.used else sd.used + (if set.data = 9 then 2 else 1) := rfl

theorem Sending.inFlight_first (sd : Sending) (set : Settings) (v : BitVec 9) (t : Stamp) (bit : Nat) :
    (sd.inFlight set v t bit).first = some (sd.first.getD t) := by
  change sd.first.or (some t) = some (sd.first.getD t)
  cases sd.first <;> rfl

/-! ### What starts (R132, R140, R144, R159) -/

/-- The job that what starts takes its character from: the one in progress, the waiting reply or the ready descriptor. -/
def NextStart.job (x : Port) : NextStart → Option Sending
  | .next => x.sending
  | .reply r => some { job := .reply r, heldByFlow := r.heldByFlow }
  | .desc d => some { job := .desc d }
  | .none | .flow _ => Option.none

theorem State.start_starts {n : NextStart} {sd : Sending} (set : Settings) (t : Stamp) (bit : Nat)
    (job : n.job (s.port p) = some sd) (more : sd.isDone = false) :
    StartsAt s (s.start p n set t bit) p set t ∧
      (s.start p n set t bit).port p =
        (s.port p).begins set (sd.inFlight set (s.charValue p set sd) t bit) := by
  have taken : StartsAt s ((s.setPort p ((s.port p).withJob sd)).beginNext p set t bit) p set t ∧
      ((s.setPort p ((s.port p).withJob sd)).beginNext p set t bit).port p =
        (s.port p).begins set (sd.inFlight set (s.charValue p set sd) t bit) := by
    have held : (s.setPort p ((s.port p).withJob sd)).port p = (s.port p).withJob sd := s.port_setPort_self p _
    have value : (s.setPort p ((s.port p).withJob sd)).charValue p set sd = s.charValue p set sd :=
      s.charValue_congr p (s.setPort p ((s.port p).withJob sd)) rfl rfl (by rw [held]; rfl) set sd
    obtain ⟨⟨now, regs, out⟩, port⟩ := State.beginNext_starts (s.setPort p ((s.port p).withJob sd)) p set t bit
      (by rw [held]; rfl) more
    rw [held, value] at port
    exact ⟨⟨now, regs, out⟩, port⟩
  cases n with
  | next => exact s.beginNext_starts p set t bit job more
  | reply r =>
    obtain rfl := Option.some.inj job
    exact taken
  | desc d =>
    obtain rfl := Option.some.inj job
    exact taken
  | none => cases job
  | flow b => cases job

/-- A job that a free line starts has a character to send. -/
theorem State.nextStart_next (next : s.nextStart p = .next) : ∃ sd, (s.port p).sending = some sd ∧ sd.isDone = false := by
  unfold State.nextStart at next
  dsimp only at next
  split at next
  · nomatch next
  · split at next
    · nomatch next
    · split at next
      · rename_i sd sending
        split at next
        · rename_i ready
          simp only [Sending.ready, Bool.and_eq_true, Bool.not_eq_true'] at ready
          exact ⟨sd, sending, ready.1⟩
        · nomatch next
      · split at next
        · nomatch next
        · split at next
          · nomatch next
          · split at next
            · split at next <;> nomatch next
            · nomatch next

end Sys2Proof.Machine
end

section
namespace Sys2Proof.Machine

/-! ### TX_CHAR_START and TIMED_DECIDE: what they come to -/

variable (s : State) (p : Nat)

/-- A free line whose next start is permitted at its commit edge starts it there. -/
theorem exec_txCharStart_launches {p : PortIx} {n : NextStart} {e : Nat} {u : Stamp} (run : s.running = true)
    (free : (s.port p.val).line = none) (next : s.nextStart p.val = n) (notNone : n ≠ .none)
    (edge : s.startEdge p.val (s.earliestStart p.val n) = (e, u)) (permitted : (s.advance e).startPermitted p.val n = true) :
    exec (.txCharStart p) s = .next ((s.advance e).launch p.val n u) := by
  simp only [exec, execTxCharStart, run, free, next, notNone, edge, permitted, Bool.not_true, Bool.false_eq_true, if_false,
    Option.isSome_none, if_true]

/-- A descriptor's start that XOFF holds does not take place (R141). -/
theorem exec_txCharStart_xoff {p : PortIx} {d : Desc} {e : Nat} {u : Stamp} (run : s.running = true)
    (free : (s.port p.val).line = none) (next : s.nextStart p.val = .desc d)
    (edge : s.startEdge p.val (s.earliestStart p.val (.desc d)) = (e, u)) (mode : (s.port p.val).flowMode = 2)
    (held : (s.port p.val).xoffRx = true) : exec (.txCharStart p) s = .next (s.advance e) := by
  have port : (s.advance e).port p.val = s.port p.val := by
    obtain ⟨x, adv⟩ := s.advance_eq e
    rw [adv]
    rfl
  have refused : (s.advance e).startPermitted p.val (.desc d) = false := by
    simp only [State.startPermitted, State.flowPermits, port, mode, held, Bool.not_true]
  have release : (s.advance e).ctsRelease p.val e = none := by
    simp only [State.ctsRelease, port, mode, OfNat.ofNat_ne_one, if_false]
  simp only [exec, execTxCharStart, run, free, next, edge, refused, release, State.launch, Bool.not_true, Bool.false_eq_true,
    if_false, Option.isSome_none, reduceCtorEq]

/-- Behind the character on the line, a start permitted at a commit edge before that character's end is committed there. -/
theorem exec_txCharStart_commits {p : PortIx} {n : NextStart} {e : Nat} {c : BitVec 9} {u v z : Stamp} {bit : Nat}
    (run : s.running = true) (line : (s.port p.val).line = some (c, v, z, bit)) (next : s.nextAhead p.val = n)
    (notNone : n ≠ .none) (edge : s.startEdge p.val (some (s.aheadStart p.val n z)) = (e, u)) (before : e < s.edgeOf z)
    (permitted : (s.advance e).startPermitted p.val n = true) :
    exec (.txCharStart p) s = .next ((s.advance e).setAhead p.val n u) := by
  have late : ¬ s.edgeOf z ≤ e := by omega
  have commits : s.commitAhead p.val = (s.advance e).setAhead p.val n u := by
    unfold State.commitAhead
    rw [line, next]
    cases n with
    | none => exact absurd rfl notNone
    | flow | next | reply | desc => simp only [edge, late, permitted, if_false, if_true]
  simp only [exec, execTxCharStart, run, line, commits, Bool.not_true, Bool.false_eq_true, if_false, Option.isSome_some,
    if_true]

/-- The timed descriptor at the head is decided at edge N - 4 (R136). -/
theorem exec_timedDecide_decides {p : PortIx} {d : Desc} {rest : List Desc} {n u : Nat} (run : s.running = true)
    (waits : (s.port p.val).launchAt = some (n, u)) (queue : (s.port p.val).queue = d :: rest)
    (open_ : (s.port p.val).launchOk = false) (may : s.mayTransmit p.val = true) (t : State) (edge : t = s.advance (n - 4)) :
    exec (.timedDecide p) s = .next (if d.ready && t.flowPermits p.val && !t.occupied p.val d.launch then
      (if (t.port p.val).line.isSome || (t.port p.val).sending.isSome then
        t.setPort p.val { t.port p.val with launchOk := true } else t.launchTimed p.val)
      else ((t.lateHead p.val d).checkHead p.val).restTx p.val) := by
  subst edge
  simp only [exec, execTimedDecide, run, waits, queue, open_, may, Bool.not_true, Bool.false_eq_true, if_false, Bool.or_self,
    State.modPort_eq]
  split
  · split <;> rfl
  · rfl

end Sys2Proof.Machine
end

section
namespace Sys2Proof.Machine

/-! ### A start at its commit edge -/

variable (s : State) (p : Nat)

theorem State.advance_pins (n : Nat) : (s.advance n).pins = s.pins := by
  obtain ⟨x, e⟩ := s.advance_eq n
  rw [e]

theorem State.advance_free (n : Nat) : (s.advance n).free = s.free := by
  obtain ⟨x, e⟩ := s.advance_eq n
  rw [e]

theorem State.port_advance (n : Nat) : (s.advance n).port p = s.port p := by
  obtain ⟨x, e⟩ := s.advance_eq n
  rw [e]
  rfl

theorem State.bitPeriod_advance (n : Nat) : (s.advance n).bitPeriod p = s.bitPeriod p := by
  unfold State.bitPeriod State.on
  rw [State.port_advance, State.rd_advance]

theorem State.charValue_advance (n : Nat) (set : Settings) (sd : Sending) :
    (s.advance n).charValue p set sd = s.charValue p set sd :=
  s.charValue_congr p (s.advance n) (s.advance_regs n) (s.advance_free n) (by rw [State.port_advance]) set sd

theorem State.flowValue_advance (n : Nat) (xoff : Bool) (set : Settings) :
    (s.advance n).flowValue p xoff set = s.flowValue p xoff set := by
  unfold State.flowValue
  rw [State.rd_advance]

/-- What is taken from where it waited is the same job. -/
theorem Port.job_take (x : Port) (n : NextStart) : n.job (x.take n) = n.job x := by cases n <;> rfl

theorem Port.addrMode_take (x : Port) (n : NextStart) : (x.take n).addrMode = x.addrMode := by
  cases n <;> exact Port.addrMode_congr rfl rfl rfl rfl

theorem State.setPort_starts {x : Port} {u : State} {set : Settings} {t : Stamp} (h : StartsAt (s.setPort p x) u p set t) :
    StartsAt s u p set t :=
  .of_same (s.setPort_now p x) (s.setPort_regs p x) (s.setPort_out p x) (s.setPort_pins p x) h

/-- A job that may start begins its next character. -/
theorem State.launch_job {n : NextStart} {sd : Sending} (t : Stamp) (permitted : s.startPermitted p n = true)
    (job : n.job (s.port p) = some sd) (more : sd.isDone = false) :
    StartsAt s (s.launch p n t) p (s.port p).txSet t ∧ (s.launch p n t).port p =
      ((s.port p).take n).begins (s.port p).txSet
        (sd.inFlight (s.port p).txSet (s.charValue p (s.port p).txSet sd) t (s.bitPeriod p)) := by
  unfold State.launch
  rw [if_pos permitted, State.modPort_eq]
  have taken : (s.setPort p ((s.port p).take n)).port p = (s.port p).take n := s.port_setPort_self p _
  have value : (s.setPort p ((s.port p).take n)).charValue p (s.port p).txSet sd = s.charValue p (s.port p).txSet sd :=
    s.charValue_congr p (s.setPort p ((s.port p).take n)) (s.setPort_regs ..) (s.setPort_free ..)
      (by rw [taken, Port.addrMode_take]) _ sd
  obtain ⟨starts, port⟩ := State.start_starts (s.setPort p ((s.port p).take n)) p (s.port p).txSet t (s.bitPeriod p)
    (by rw [taken, Port.job_take]; exact job) more
  rw [taken, value] at port
  exact ⟨s.setPort_starts p starts, port⟩

/-- The device's own flow character begins (R144). -/
theorem State.launch_flow (b : Bool) (t : Stamp) :
    StartsAt s (s.launch p (.flow b) t) p (s.port p).txSet t ∧ (s.launch p (.flow b) t).port p =
      ((s.port p).take (.flow b)).beginsFlow (s.port p).txSet ⟨b, s.flowValue p b (s.port p).txSet, t,
        (s.port p).txSet.frameEnd t (s.bitPeriod p), s.bitPeriod p⟩ := by
  obtain ⟨starts, port⟩ := State.beginFlow_starts (s.setPort p ((s.port p).take (.flow b))) p b (s.port p).txSet t (s.bitPeriod p)
  rw [s.port_setPort_self] at port
  exact ⟨s.setPort_starts p starts, port⟩

/-- What a free line starts, other than a flow character, is a job with a character to send. -/
theorem NextStart.job_of_start {n : NextStart} (next : s.nextStart p = n) (notNone : n ≠ .none) (noFlow : ∀ b, n ≠ .flow b)
    (reply : ∀ r, n = .reply r → ({ job := .reply r } : Sending).isDone = false)
    (desc : ∀ d, n = .desc d → ({ job := .desc d } : Sending).isDone = false) :
    ∃ sd, n.job (s.port p) = some sd ∧ sd.isDone = false := by
  cases n with
  | none => exact absurd rfl notNone
  | flow b => exact absurd rfl (noFlow b)
  | next => exact s.nextStart_next p next
  | reply r => exact ⟨_, rfl, reply r rfl⟩
  | desc d => exact ⟨_, rfl, desc d rfl⟩

/-! ### A timed launch (R135, R136) -/

/-- The port when the decided descriptor at its head starts. -/
def Port.launches (x : Port) (d : Desc) (rest : List Desc) : Port :=
  { x with queue := rest, launchAt := none, launchOk := false, sending := some { job := .desc d } }

/-- The decided descriptor begins on the free line at its launch stamp. -/
theorem State.launchTimed_starts {d : Desc} {rest : List Desc} (queue : (s.port p).queue = d :: rest)
    (more : ({ job := .desc d } : Sending).isDone = false) :
    (s.launchTimed p).now = s.now ∧ ((s.launchTimed p).port p).queue = rest ∧
      ∃ v, ((s.launchTimed p).port p).sending =
        some (({ job := .desc d } : Sending).inFlight (s.port p).txSet v d.launch (s.bitPeriod p)) := by
  have same : s.launchTimed p = (s.setPort p ((s.port p).launches d rest)).beginNext p (s.port p).txSet d.launch (s.bitPeriod p) := by
    unfold State.launchTimed
    rw [queue]
    rfl
  have taken : (s.setPort p ((s.port p).launches d rest)).port p = (s.port p).launches d rest := s.port_setPort_self p _
  obtain ⟨starts, port⟩ := State.beginNext_starts (s.setPort p ((s.port p).launches d rest)) p (s.port p).txSet d.launch
    (s.bitPeriod p) (by rw [taken]; rfl) more
  rw [same, port, taken]
  exact ⟨(s.setPort_starts p starts).now, rfl, _, rfl⟩

/-- From `r` to `s` time stands, descriptors only leave the queue of port `p`, and no record goes. -/
structure DropsHeads (p : Nat) (r s : State) : Prop where
  now : s.now = r.now
  queue : (s.port p).queue.length ≤ (r.port p).queue.length
  recs : ∀ x, r.hasRec x → s.hasRec x

theorem DropsHeads.refl : DropsHeads p s s := ⟨rfl, Nat.le_refl _, fun _ => id⟩

theorem DropsHeads.trans {p : Nat} {r s t : State} (h : DropsHeads p r s) (k : DropsHeads p s t) : DropsHeads p r t :=
  ⟨k.now.trans h.now, k.queue.trans h.queue, fun x had => k.recs x (h.recs x had)⟩

theorem DropsHeads.ite {c : Prop} [Decidable c] {p : Nat} {r s t : State} (h : DropsHeads p r s) (k : DropsHeads p r t) :
    DropsHeads p r (if c then s else t) := by
  split
  · exact h
  · exact k

theorem State.setPort_dropsHeads (x : Port) (h : x.queue.length ≤ (s.port p).queue.length) : DropsHeads p s (s.setPort p x) :=
  ⟨rfl, by rw [State.port_setPort_self]; exact h, fun _ => id⟩

/-- The queue without its head. -/
def Port.withoutHead (x : Port) : Port := { x with queue := x.queue.drop 1, launchAt := none, launchOk := false }

/-- The head leaves the queue, and completes LATE with a TXDONE record under its tag. -/
theorem State.lateHead_completes (d : Desc) :
    DropsHeads p (s.setPort p (s.port p).withoutHead) (s.lateHead p d) ∧
      ∃ y, (s.lateHead p d).hasRec y ∧ y.type = .txdone ∧ y.seq = d.tag ∧ y.port = p ∧ y.late = true := by
  have same : s.lateHead p d = (s.setPort p (s.port p).withoutHead).txDone p d 1 (s.lateCause p d) none := rfl
  rw [same]
  have records := State.txDone_recordsOnly (.refl (s.setPort p (s.port p).withoutHead)) p d 1 (s.lateCause p d) none
  obtain ⟨forms, recs⟩ := State.txDone_forms (s.setPort p (s.port p).withoutHead) p d 1 (s.lateCause p d) none
  refine ⟨⟨records.now, ?_, recs⟩, forms⟩
  rw [State.port, records.ports]
  exact Nat.le_refl _

theorem State.withoutHead_dropsHeads : DropsHeads p s (s.setPort p (s.port p).withoutHead) :=
  s.setPort_dropsHeads p _ (by rw [Port.withoutHead, List.length_drop]; omega)

theorem State.headReached_dropsHeads (fuel : Nat) : DropsHeads p s (s.headReached p fuel) := by
  induction fuel generalizing s with
  | zero => exact .refl s p
  | succ fuel ih =>
    have late (d : Desc) : DropsHeads p s ((s.lateHead p d).headReached p fuel) :=
      ((s.withoutHead_dropsHeads p).trans (s.lateHead_completes p d).1).trans (ih _)
    unfold State.headReached
    extract_lets x
    refine .ite (.refl s p) ?_
    split
    · exact .refl s p
    · refine .ite (.refl s p) ?_
      split
      · exact .ite (s.setPort_dropsHeads p _ (Nat.le_refl _)) (late _)
      · exact late _

/-- The port at rest between jobs: in WAIT for a launch, else in IDLE (R140). -/
def Port.rests (x : Port) : Port :=
  if x.line.isSome || x.sending.isSome then x
  else if x.tx = .send ∨ x.tx = .flow ∨ x.tx = .wait ∨ x.tx = .idle then
    { x with tx := if x.launchAt.isSome then .wait else .idle }
  else x

theorem State.restTx_eq : s.restTx p = s.setPort p (s.port p).rests ∨
    s.restTx p = (s.setPort p (s.port p).rests).octActive (octOfPort p) := by
  have same : s.restTx p = if (s.port p).holds && !((s.setPort p (s.port p).rests).port p).holds then
      (s.setPort p (s.port p).rests).octActive (octOfPort p) else s.setPort p (s.port p).rests := rfl
  rw [same]
  split
  · exact .inr rfl
  · exact .inl rfl

theorem Port.rests_queue (x : Port) : x.rests.queue = x.queue := by
  unfold Port.rests
  split
  · rfl
  · split <;> rfl

theorem State.restTx_dropsHeads : DropsHeads p s (s.restTx p) := by
  have rests : DropsHeads p s (s.setPort p (s.port p).rests) :=
    s.setPort_dropsHeads p _ (by rw [Port.rests_queue])
  obtain e | e := s.restTx_eq p
  · rw [e]
    exact rests
  · rw [e]
    exact ⟨rests.now, rests.queue, rests.recs⟩

end Sys2Proof.Machine
end

section
namespace Sys2Proof.Machine

/-! ### Transmissions start (O30) -/

variable (s : State)

theorem Port.take_queue (x : Port) (n : NextStart) :
    (x.take n).queue = match n with | .desc _ => x.queue.drop 1 | _ => x.queue := by cases n <;> rfl

theorem Port.take_replies (x : Port) (n : NextStart) :
    (x.take n).replies = match n with | .reply _ => x.replies.drop 1 | _ => x.replies := by cases n <;> rfl

theorem Port.take_line (x : Port) (n : NextStart) : (x.take n).line = x.line := by cases n <;> rfl

/-- A start committed behind the character on the line waits there. -/
def Port.commits (x : Port) (a : Ahead) : Port := { x.take a.what with ahead := some a }

theorem State.setAhead_port (p : Nat) (n : NextStart) (u : Stamp) :
    (s.setAhead p n u).port p = (s.port p).commits ⟨n, u, s.aheadBit p, (s.port p).txPalWaits⟩ ∧
      (s.setAhead p n u).now = s.now ∧ (s.setAhead p n u).regs = s.regs := by
  refine ⟨?_, s.setPort_now .., s.setPort_regs ..⟩
  rw [State.setAhead, State.modPort_eq, State.port_setPort_self]
  rfl

/-- From the commit edge `e` on, a start at `u` has moved time to that edge and put out the start edge alone. -/
theorem StartsAt.of_advance {e p : Nat} {t : State} {u : Stamp} {set : Settings} (h : StartsAt (s.advance e) t p set u) :
    t.now = max s.now e ∧ t.regs = s.regs ∧
      t.out = s.out ++ [.pinLevel (txPin p) ((s.pin (txPin p)).outLevel set.inverted) u] := by
  have pin : (s.advance e).pin (txPin p) = s.pin (txPin p) := by rw [State.pin, State.pin, s.advance_pins]
  refine ⟨h.now.trans (s.advance_now e), h.regs.trans (s.advance_regs e), ?_⟩
  rw [h.out, s.advance_out, pin]

/-- A flow character at its commit edge (R144). -/
theorem State.flow_starts (p e : Nat) (b : Bool) (u : Stamp) :
    StartsAt (s.advance e) ((s.advance e).launch p (.flow b) u) p (s.port p).txSet u ∧
      ((s.advance e).launch p (.flow b) u).port p =
        ((s.port p).take (.flow b)).beginsFlow (s.port p).txSet ⟨b, s.flowValue p b (s.port p).txSet, u,
          (s.port p).txSet.frameEnd u (s.bitPeriod p), s.bitPeriod p⟩ := by
  have flow := (s.advance e).launch_flow p b u
  rwa [s.port_advance, s.bitPeriod_advance, s.flowValue_advance] at flow

/-- A job's character at its commit edge (R132, R133, R154, R159). -/
theorem State.job_starts {p e : Nat} {n : NextStart} {sd : Sending} (u : Stamp)
    (permitted : (s.advance e).startPermitted p n = true) (job : n.job (s.port p) = some sd) (more : sd.isDone = false) :
    StartsAt (s.advance e) ((s.advance e).launch p n u) p (s.port p).txSet u ∧
      ((s.advance e).launch p n u).port p = ((s.port p).take n).begins (s.port p).txSet
        (sd.inFlight (s.port p).txSet (s.charValue p (s.port p).txSet sd) u (s.bitPeriod p)) := by
  have begun := (s.advance e).launch_job p u permitted (by rw [s.port_advance]; exact job) more
  rwa [s.port_advance, s.bitPeriod_advance, s.charValue_advance] at begun

/-- What occupies the line does not depend on the present edge. -/
theorem State.occupied_advance (p n : Nat) (t : Stamp) : (s.advance n).occupied p t = s.occupied p t := by
  unfold State.occupied State.busyUntil
  rw [s.port_advance]

section
variable {p : PortIx} {d : Desc} {rest : List Desc} {n u : Nat} (run : s.running = true)
  (waits : (s.port p.val).launchAt = some (n, u)) (queue : (s.port p.val).queue = d :: rest)
  (open_ : (s.port p.val).launchOk = false) (may : s.mayTransmit p.val = true)
include run waits queue open_ may

/-- On a free line the timed descriptor starts at its launch stamp (R135). -/
theorem exec_timedDecide_launches (permits : (s.advance (n - 4)).flowPermits p.val = true) (data : d.data.isSome = true)
    (clear : s.occupied p.val d.launch = false) (idle : (s.port p.val).sending = none)
    (noFlow : (s.port p.val).flowFlight = none) (more : ({ job := .desc d } : Sending).isDone = false) :
    ∃ t, exec (.timedDecide p) s = .next t ∧ t.now = max s.now (n - 4) ∧ (t.port p.val).queue = rest ∧
      ∃ sd v z, (t.port p.val).sending = some sd ∧ sd.job = .desc d ∧ sd.flight = some (v, d.launch, z) ∧
        sd.first = some d.launch := by
  have decides := exec_timedDecide_decides s run waits queue open_ may _ rfl
  have free : (s.port p.val).line = none := by simp only [Port.line, noFlow, idle, Option.bind_none]
  simp only [s.port_advance, s.occupied_advance, Desc.ready, data, permits, clear, free, idle, Bool.not_false, Bool.and_self,
    if_true, Option.isSome_none, Bool.or_self, Bool.false_eq_true, if_false] at decides
  obtain ⟨now, queue', value, sending⟩ :=
    (s.advance (n - 4)).launchTimed_starts p.val (by rw [s.port_advance]; exact queue) more
  exact ⟨_, decides, now.trans (s.advance_now _), queue', _, _, _, sending, rfl, rfl, rfl⟩

/-- With a character on the line the launch is decided and waits for its end (R135). -/
theorem exec_timedDecide_commits (permits : (s.advance (n - 4)).flowPermits p.val = true) (data : d.data.isSome = true)
    (clear : s.occupied p.val d.launch = false) (line : (s.port p.val).line.isSome = true) :
    ∃ t, exec (.timedDecide p) s = .next t ∧ t.now = max s.now (n - 4) ∧
      t.port p.val = { s.port p.val with launchOk := true } := by
  have decides := exec_timedDecide_decides s run waits queue open_ may _ rfl
  simp only [s.port_advance, s.occupied_advance, Desc.ready, data, permits, clear, line, Bool.not_false, Bool.and_self, if_true,
    Bool.true_or] at decides
  exact ⟨_, decides, s.advance_now _, State.port_setPort_self _ _ _⟩

/-- A descriptor that may not start at its stamp leaves the queue and completes LATE (R136). -/
theorem exec_timedDecide_late
    (refused : (s.advance (n - 4)).flowPermits p.val = false ∨ d.data = none ∨ s.occupied p.val d.launch = true) :
    ∃ t, exec (.timedDecide p) s = .next t ∧ t.now = max s.now (n - 4) ∧
      (t.port p.val).queue.length < (s.port p.val).queue.length ∧
      ∃ r, t.hasRec r ∧ r.type = .txdone ∧ r.seq = d.tag ∧ r.port = p.val ∧ r.late = true := by
  have decides := exec_timedDecide_decides s run waits queue open_ may _ rfl
  have late : (d.ready && (s.advance (n - 4)).flowPermits p.val && !s.occupied p.val d.launch) = false := by
    obtain h | h | h := refused
    · rw [h, Bool.and_false, Bool.false_and]
    · rw [Desc.ready, h, Option.isSome_none, Bool.false_and, Bool.false_and]
    · rw [h, Bool.not_true, Bool.and_false]
  rw [s.occupied_advance, late, if_neg Bool.false_ne_true] at decides
  have port := s.port_advance p.val (n - 4)
  have now := s.advance_now (n - 4)
  generalize s.advance (n - 4) = v at decides port now
  obtain ⟨drops, r, had, isLate⟩ := v.lateHead_completes p.val d
  have behind : DropsHeads p.val (v.lateHead p.val d) (((v.lateHead p.val d).checkHead p.val).restTx p.val) :=
    (State.headReached_dropsHeads _ p.val _).trans (State.restTx_dropsHeads _ p.val)
  have shorter : ((v.setPort p.val (v.port p.val).withoutHead).port p.val).queue.length < (s.port p.val).queue.length := by
    rw [State.port_setPort_self, port, Port.withoutHead, queue]
    exact Nat.lt_succ_self _
  exact ⟨_, decides, (behind.now.trans drops.now).trans now, lt_of_le_of_lt (behind.queue.trans drops.queue) shorter, r,
    behind.recs r had, isLate⟩

end

/-- Settles O30: a start by what `State.flow_starts` and `State.job_starts` say at its commit edge, a start behind a character
by `exec_txCharStart_commits`, a timed launch by its three outcomes. -/
theorem transmissionsStart : Obligations.TransmissionsStart := by
  unfold Obligations.TransmissionsStart
  refine ⟨?_, ?_, ?_⟩
  · intro s p n e u run free next notNone edge
    refine ⟨?_, ?_⟩
    · intro permitted reply desc
      have launches := exec_txCharStart_launches s run free next notNone edge permitted
      by_cases flow : ∃ b, n = .flow b
      · obtain ⟨b, rfl⟩ := flow
        obtain ⟨starts, port⟩ := s.flow_starts p.val e b u
        obtain ⟨now, regs, out⟩ := StartsAt.of_advance s starts
        refine ⟨_, launches, now, by rw [port]; rfl, regs, out, by rw [port]; rfl, by rw [port]; rfl, ?_, ?_⟩
        · intro _ same
          cases same
          exact ⟨by rw [port]; rfl, _, by rw [port]; rfl, rfl, rfl, rfl, rfl⟩
        · rintro sd (⟨h, -⟩ | ⟨r, h, -⟩ | ⟨d, h, -⟩) <;> cases h
      · obtain ⟨sd, job, more⟩ := NextStart.job_of_start s p.val next notNone (not_exists.mp flow) reply desc
        obtain ⟨starts, port⟩ := s.job_starts u permitted job more
        obtain ⟨now, regs, out⟩ := StartsAt.of_advance s starts
        refine ⟨_, launches, now, by rw [port]; rfl, regs, out, ?_, ?_, fun b is => absurd ⟨b, is⟩ flow, ?_⟩
        · rw [port]
          exact ((s.port p.val).take_queue n).trans (by cases n <;> rfl)
        · rw [port]
          exact ((s.port p.val).take_replies n).trans (by cases n <;> rfl)
        · intro sd₁ which
          have same : n.job (s.port p.val) = some sd₁ := by
            obtain ⟨rfl, sending⟩ | ⟨r, rfl, rfl⟩ | ⟨d, rfl, rfl⟩ := which
            · exact sending
            · rfl
            · rfl
          obtain rfl : sd = sd₁ := Option.some.inj (job.symm.trans same)
          have sending : (((s.advance e).launch p.val n u).port p.val).sending = some (sd.inFlight (s.port p.val).txSet
              (s.charValue p.val (s.port p.val).txSet sd) u (s.bitPeriod p.val)) := by
            rw [port]
            rfl
          have used := sd.inFlight_used (s.port p.val).txSet (s.charValue p.val (s.port p.val).txSet sd) u (s.bitPeriod p.val)
          refine ⟨_, _, sending, rfl, rfl, sd.inFlight_first .., rfl, fun due => ⟨?_, ?_⟩,
            fun a rest data bytes narrow => ⟨?_, s.charValue_byte p.val _ data bytes narrow⟩,
            fun a b rest data bytes wide => ⟨?_, s.charValue_pair p.val _ data bytes wide⟩⟩
          · rw [used, if_pos due]
          · exact (s.charValue_addr p.val _ due).trans (by cases sd.job <;> rfl)
          · rw [used, data, if_neg Bool.false_ne_true, if_neg narrow]
          · rw [used, data, if_neg Bool.false_ne_true, if_pos wide]
    · rintro d rfl mode held
      exact exec_txCharStart_xoff s run free next edge mode held
  · intro s p n e u v z c bit run line next notNone edge before permitted
    obtain ⟨port, now, regs⟩ := (s.advance e).setAhead_port p.val n u
    rw [s.port_advance] at port
    refine ⟨_, _, exec_txCharStart_commits s run line next notNone edge before permitted, now.trans (s.advance_now e),
      by rw [port]; rfl, rfl, rfl, ?_, regs.trans (s.advance_regs e)⟩
    rw [port]
    exact (s.port p.val).take_line n
  · intro s p d rest n u run waits queue open_ may
    refine ⟨fun permits data clear idle noFlow more => ?_, fun permits data clear line => ?_, fun refused => ?_⟩
    · exact exec_timedDecide_launches s run waits queue open_ may permits data clear idle noFlow more
    · exact exec_timedDecide_commits s run waits queue open_ may permits data clear line
    · exact exec_timedDecide_late s run waits queue open_ may refused

end Sys2Proof.Machine
end

section
namespace Sys2Proof.Machine

/-! ### What has been sent stays

Behind the end of a character the transmitter completes jobs, changes its settings, stops or starts the next character. None of
this moves time, touches what waits for the pins (R338, R339), or takes back what the port has sent: one lemma for each
operation, from a state of which this holds. -/

/-- The present edge, the changes that wait at pins, and what port `p` has sent are those of `r`. -/
structure LeavesSent (p : Nat) (r s : State) : Prop where
  now : s.now = r.now
  waits : ∀ q, (s.pin q).cfgWaits = (r.pin q).cfgWaits ∧ (s.pin q).switchWaits = (r.pin q).switchWaits
  sent : (s.port p).lastSent = (r.port p).lastSent ∧ (s.port p).spans = (r.port p).spans

/-- What a port has sent is what another has. -/
def Port.sentAs (x y : Port) : Prop := y.lastSent = x.lastSent ∧ y.spans = x.spans

namespace LeavesSent

variable {p : Nat} {r s t : State}

theorem refl (p : Nat) (s : State) : LeavesSent p s s := ⟨rfl, fun _ => ⟨rfl, rfl⟩, rfl, rfl⟩

theorem trans (h : LeavesSent p r s) (k : LeavesSent p s t) : LeavesSent p r t :=
  ⟨k.now.trans h.now, fun q => ⟨(k.waits q).1.trans (h.waits q).1, (k.waits q).2.trans (h.waits q).2⟩,
    k.sent.1.trans h.sent.1, k.sent.2.trans h.sent.2⟩

theorem ite {c : Prop} [Decidable c] (h : LeavesSent p r s) (k : LeavesSent p r t) : LeavesSent p r (if c then s else t) := by
  split
  · exact h
  · exact k

variable (h : LeavesSent p r s)
include h

theorem of_same (now : t.now = s.now) (pins : t.pins = s.pins) (ports : t.ports = s.ports) : LeavesSent p r t := by
  refine h.trans ⟨now, fun q => ?_, ?_⟩
  · rw [State.pin, State.pin, pins]
    exact ⟨rfl, rfl⟩
  · rw [State.port, State.port, ports]
    exact ⟨rfl, rfl⟩

theorem of_records (k : RecordsOnly s t) : LeavesSent p r t := h.of_same k.now k.pins k.ports

theorem foldl {β : Type} {f : State → β → State} (k : ∀ s b, LeavesSent p r s → LeavesSent p r (f s b)) (l : List β) :
    LeavesSent p r (l.foldl f s) := by
  induction l generalizing s with
  | nil => exact h
  | cons b rest ih => exact ih (k s b h)

theorem setPort (k : Nat) (x : Port) (same : (s.port k).sentAs x) : LeavesSent p r (s.setPort k x) := by
  refine h.trans ⟨s.setPort_now k x, fun q => ⟨rfl, rfl⟩, ?_⟩
  by_cases at_ : p = k
  · subst at_
    rw [State.port_setPort_self]
    exact same
  · rw [State.port_setPort_other _ _ _ _ at_]
    exact ⟨rfl, rfl⟩

theorem modPort (k : Nat) (f : Port → Port) (same : ∀ x, Port.sentAs x (f x) := by exact fun _ => ⟨rfl, rfl⟩) : LeavesSent p r (s.modPort k f) :=
  h.setPort k _ (same _)

theorem setPin (q : Nat) (x : Pin) (same : x.cfgWaits = (s.pin q).cfgWaits ∧ x.switchWaits = (s.pin q).switchWaits) :
    LeavesSent p r (s.setPin q x) := by
  refine h.trans ⟨s.setPin_now q x, fun k => ?_, rfl, rfl⟩
  by_cases at_ : k = q
  · subst at_
    rw [State.pin_setPin_self]
    exact same
  · rw [State.pin_setPin_other _ _ _ _ at_]
    exact ⟨rfl, rfl⟩

theorem emit (o : Out) : LeavesSent p r (s.emit o) := h.of_same (s.emit_now o) (s.emit_pins o) (s.emit_ports o)

theorem octActive (o : Nat) : LeavesSent p r (s.octActive o) :=
  h.of_same (s.setOct_now o _) (s.setOct_pins o _) (s.setOct_ports o _)

/-! #### Flow decisions and receive entries (R143, R146, R161) -/

theorem drive (q : Nat) (b : Bool) : LeavesSent p r (s.drive q b) := by
  refine ite ((h.setPin q _ ?_).emit _) h
  exact ⟨rfl, rfl⟩

theorem setRts (k : Nat) : LeavesSent p r (s.setRts k) := by
  refine ite ((h.setPort k _ ?_).drive _ _) (h.setPort k _ ?_) <;> exact ⟨rfl, rfl⟩

omit h in
theorem pushFlow_sent (x : Port) (b : Bool) : x.sentAs (x.pushFlow b) := by
  unfold Port.pushFlow
  split <;> exact ⟨rfl, rfl⟩

theorem takeDecision (k : Nat) (stop : Bool) : LeavesSent p r (s.takeDecision k stop) :=
  (h.modPort k _ fun x => pushFlow_sent { x with stopped := stop, sinceXoff := 0 } stop).setRts k

theorem notePressure (k : Nat) : LeavesSent p r (s.notePressure k) :=
  ite (h.modPort k _) (ite (h.modPort k _) h)

theorem flowRelease (k : Nat) : LeavesSent p r (s.flowRelease k) :=
  ite ((h.notePressure k).takeDecision k false) (h.notePressure k)

theorem flowConfirm (k : Nat) : LeavesSent p r (s.flowConfirm k) := by
  refine ite (ite ((h.notePressure k).modPort k _ fun x => ?_) ((h.notePressure k).takeDecision k true)) (h.flowRelease k)
  split
  · split
    · exact pushFlow_sent { x with sinceXoff := 0 } true
    · exact ⟨rfl, rfl⟩
  · exact ⟨rfl, rfl⟩

theorem loseEntry (k j : Nat) (isChar counts : Bool) (stamp : Stamp) (seq : Word) :
    LeavesSent p r (s.loseEntry k j isChar counts stamp seq) := h.modPort k _

theorem closeLoss (k j order : Nat) : LeavesSent p r (s.closeLoss k j order) := by
  unfold State.closeLoss
  split
  · exact h
  · exact (h.modPort k _).of_records (State.dueGap_recordsOnly (.refl _) _)

omit h in
theorem touchMem0_eq (s : State) : ∃ x, s.touchMem0 = { s with power := x } := by
  unfold State.touchMem0 State.askMem0
  extract_lets x
  split <;> exact ⟨_, rfl⟩

theorem touchMem0 : LeavesSent p r s.touchMem0 := by
  obtain ⟨x, e⟩ := touchMem0_eq s
  rw [e]
  exact h.of_same rfl rfl rfl

theorem store (k : Nat) (kind : EntryKind) (base : Stamp) (space : Nat) (isChar : Bool) (streams : List (Nat × Word))
    (event : Option Nat) : LeavesSent p r (s.store k kind base space isChar streams event).2 := by
  unfold State.store
  split
  · have lost : ∀ (l : List (Nat × Word)) (a : Bool × State), LeavesSent p r a.2 →
        LeavesSent p r (l.foldl (fun a j => (false, a.2.loseEntry k j.1 isChar a.1 base j.2)) a).2 := by
      intro l
      induction l with
      | nil => exact fun _ k => k
      | cons j rest ih => exact fun a k => ih _ (k.loseEntry ..)
    exact lost streams (true, s) h
  · split
    rename_i u t taken
    have numbered : LeavesSent p r t := by
      cases event with
      | some e =>
        obtain ⟨-, rfl⟩ := Prod.mk.inj taken
        exact h
      | none =>
        obtain ⟨-, rfl⟩ := Prod.mk.inj taken
        exact h.of_same rfl rfl rfl
    have ordered : LeavesSent p r t.takeOrder.2 := numbered.of_same rfl rfl rfl
    exact foldl (touchMem0 (modPort ordered k _)) (fun s j k => k.closeLoss ..) streams

theorem cueRecord (k rule kind : Nat) (late held : Bool) (code rlen : Nat) (rstamp : Stamp) (m : Chr) (partner : Nat)
    (seq : Word) (uid : Option Nat) :
    LeavesSent p r (s.cueRecord k rule kind late held code rlen rstamp m partner seq uid).2 :=
  (h.store ..).flowConfirm k

/-! #### Jobs end (R137, R140, R161) -/

theorem txDone (k : Nat) (d : Desc) (status cause : Nat) (sd : Option Sending) :
    LeavesSent p r (s.txDone k d status cause sd) := h.of_records (State.txDone_recordsOnly (.refl _) ..)

theorem rewait (u : Nat) (before : List Nat) : LeavesSent p r (s.rewait u before) :=
  h.of_records (State.settle_recordsOnly (RecordsOnly.mk_iff.mpr (.refl s)))

theorem countPort (m : Move) (f : Fld) (k n : Nat) : LeavesSent p r (s.countPort m f k n) :=
  h.of_records (State.countPort_recordsOnly (.refl s) ..)

theorem endJob (k status cause : Nat) : LeavesSent p r (s.endJob k status cause) := by
  unfold State.endJob
  split
  · exact h
  · split
    · exact (h.txDone ..).modPort k _
    · split
      rename_i u t recorded
      have written : LeavesSent p r t := (congrArg (fun a => LeavesSent p r a.2) recorded).mp (h.cueRecord ..)
      exact of_records (modPort (ite written (written.rewait ..)) k _) (State.settle_recordsOnly (.refl _))

theorem emitFrame (k : Nat) (cut : Option Stamp) : LeavesSent p r (s.emitFrame k cut) := by
  unfold State.emitFrame
  split
  · exact h
  · exact h.foldl (fun s e k => k.emit _) _

theorem endQueue (k status : Nat) : LeavesSent p r (s.endQueue k status) :=
  (h.modPort k _).foldl (fun s d k => k.txDone ..) _

theorem dropReplies (k : Nat) : LeavesSent p r (s.dropReplies k) := by
  have gone : LeavesSent p r ((s.port k).replies.foldl (fun s x => s.rewait x.uid x.before) s) :=
    h.foldl (fun s x k => k.rewait ..) _
  exact ite (gone.modPort k _) (countPort (gone.modPort k _) ..)

theorem stopTx (k status : Nat) (into : TxState) : LeavesSent p r (s.stopTx k status into) := by
  unfold State.stopTx
  exact modPort (dropReplies (endQueue (endJob (modPort (h.emitFrame ..) k _) ..) ..) k) k _

theorem startTx (k : Nat) : LeavesSent p r (s.startTx k) := by
  unfold State.startTx
  exact h.modPort k _

theorem finishJob (k : Nat) : LeavesSent p r (s.finishJob k) := by
  unfold State.finishJob
  split
  · exact ite (h.endJob ..) h
  · exact h

theorem stopDone (k : Nat) : LeavesSent p r (s.stopDone k) := ite ((h.endJob ..).startTx k) (h.stopTx ..)

/-! #### The palette boundary (R162) -/

theorem txProfileSeq (k n : Nat) : LeavesSent p r (s.txProfileSeq k n).2 := by
  unfold State.txProfileSeq
  split
  · exact h
  · exact h.of_same rfl rfl rfl

theorem txBoundary (k : Nat) (t : Stamp) : LeavesSent p r (s.txBoundary k t) := by
  have switched : LeavesSent p r (s.txSwitch k) := by
    unfold State.txSwitch
    exact h.modPort k _
  have told := ite (c := (s.txSwitch k).mirrors = true) (switched.emit (.hinge (.event k (.boundary true t)))) switched
  exact ite h (of_records (told.txProfileSeq k _) (State.formTx_recordsOnly (.refl _) _))

/-! #### What follows starts (R132 to R136) -/

theorem startEdgeOut (k : Nat) (set : Settings) (t : Stamp) : LeavesSent p r (s.startEdgeOut k set t) :=
  (h.emit _).octActive _

theorem beginNext (k : Nat) (set : Settings) (t : Stamp) (bit : Nat) : LeavesSent p r (s.beginNext k set t bit) := by
  unfold State.beginNext
  split
  · rename_i sd sending
    obtain ⟨n, frame⟩ := s.nextChar_frame k set sd
    have read : LeavesSent p r (s.nextChar k set sd).2 := by
      rw [frame]
      exact h.of_same rfl rfl rfl
    exact ite h ((read.modPort k _).startEdgeOut ..)
  · exact h

theorem beginFlow (k : Nat) (xoff : Bool) (set : Settings) (t : Stamp) (bit : Nat) :
    LeavesSent p r (s.beginFlow k xoff set t bit) := (h.modPort k _).startEdgeOut ..

theorem start (k : Nat) (n : NextStart) (set : Settings) (t : Stamp) (bit : Nat) : LeavesSent p r (s.start k n set t bit) := by
  cases n with
  | none => exact h
  | flow b => exact h.beginFlow ..
  | next => exact h.beginNext ..
  | reply x => exact (h.modPort k _).beginNext ..
  | desc d => exact (h.modPort k _).beginNext ..

theorem noteHeld (k : Nat) : LeavesSent p r (s.noteHeld k) := by
  refine h.modPort k _ fun x => ?_
  split
  · exact ⟨rfl, rfl⟩
  · split <;> exact ⟨rfl, rfl⟩

theorem launch (k : Nat) (n : NextStart) (t : Stamp) : LeavesSent p r (s.launch k n t) := by
  have taken : LeavesSent p r (s.modPort k (fun x => x.take n)) := h.modPort k _ fun x => by cases n <;> exact ⟨rfl, rfl⟩
  refine ite (taken.start ..) ?_
  split
  · exact h.noteHeld k
  · exact h.noteHeld k
  · exact h

theorem startDue (k : Nat) : LeavesSent p r (s.startDue k) := ite (h.launch ..) h

theorem lateHead (k : Nat) (d : Desc) : LeavesSent p r (s.lateHead k d) := by
  unfold State.lateHead
  exact (h.modPort k _).txDone ..

theorem headReached (k fuel : Nat) : LeavesSent p r (s.headReached k fuel) := by
  induction fuel generalizing s with
  | zero => exact h
  | succ fuel ih =>
    unfold State.headReached
    extract_lets x
    refine ite h ?_
    split
    · exact h
    · refine ite h ?_
      split
      · exact ite (h.modPort k _) (ih (h.lateHead ..))
      · exact ih (h.lateHead ..)

theorem checkHead (k : Nat) : LeavesSent p r (s.checkHead k) := h.headReached ..

omit h in
theorem rests_sent (x : Port) : x.sentAs x.rests := by
  unfold Port.rests
  split
  · exact ⟨rfl, rfl⟩
  · split <;> exact ⟨rfl, rfl⟩

theorem restTx (k : Nat) : LeavesSent p r (s.restTx k) := by
  have rests : LeavesSent p r (s.setPort k (s.port k).rests) := h.setPort k _ (rests_sent _)
  obtain e | e := s.restTx_eq k
  · rw [e]
    exact rests
  · rw [e]
    exact rests.octActive _

theorem launchTimed (k : Nat) : LeavesSent p r (s.launchTimed k) := by
  unfold State.launchTimed
  split
  · exact (h.modPort k _).beginNext ..
  · exact h

theorem startAhead (k : Nat) (a : Ahead) (end_ : Stamp) : LeavesSent p r (s.startAhead k a end_) := by
  unfold State.startAhead
  extract_lets s₁ old s₂ isOver s₃
  have h₁ : LeavesSent p r s₁ := h.modPort k _
  have h₂ : LeavesSent p r s₂ := h₁.txBoundary ..
  have h₃ : LeavesSent p r s₃ := by
    refine ite ?_ h₂
    split
    · exact (h₂.finishJob k).modPort k _
    · exact h₂.endJob ..
    · exact h₂.finishJob k
  exact (h₃.start ..).checkHead k

end LeavesSent

end Sys2Proof.Machine
end

section
namespace Sys2Proof.Machine

/-! ### The character in flight ends (R133, R140) -/

/-- The port with its character in flight sent. -/
def Port.afterSent (x : Port) : Port :=
  match x.flowFlight with
  | some f => { x with flowFlight := none, spans := x.spans ++ [(f.start, f.end_)], lastSent := some f.end_, xoffTx := f.xoff }
  | none =>
    match x.sending with
    | some sd =>
      match sd.flight with
      | some (_, a, e) =>
        { x with spans := x.spans ++ [(a, e)], lastSent := some e,
                 sending := some { sd with flight := none, sent := sd.sent + 1, lastEnd := e } }
      | none => x
    | none => x

/-- On the line is a flow character, else one of the job in progress. -/
theorem Port.line_cases {x : Port} {v : BitVec 9} {a e : Stamp} {bit : Nat} (line : x.line = some (v, a, e, bit)) :
    (∃ f, x.flowFlight = some f ∧ f.start = a ∧ f.end_ = e) ∨
      (x.flowFlight = none ∧ ∃ sd, x.sending = some sd ∧ sd.flight = some (v, a, e)) := by
  unfold Port.line at line
  split at line
  case h_1 f flow =>
    simp only [Option.some.injEq, Prod.mk.injEq] at line
    obtain ⟨-, start, end_, -⟩ := line
    exact .inl ⟨f, flow, start, end_⟩
  case h_2 flow =>
    obtain ⟨sd, sending, flight⟩ := Option.bind_eq_some_iff.mp line
    obtain ⟨⟨v', a', e'⟩, flying, same⟩ := Option.map_eq_some_iff.mp flight
    simp only [Prod.mk.injEq] at same
    obtain ⟨rfl, rfl, rfl, rfl⟩ := same
    exact .inr ⟨flow, sd, sending, flying⟩

variable (s : State) (p : Nat)

theorem State.emitFrame_recordsOnly (cut : Option Stamp) : RecordsOnly s (s.emitFrame p cut) := by
  unfold State.emitFrame
  split
  · exact .refl s
  · exact foldl_recordsOnly _ (.refl s) fun _ _ h => State.emit_recordsOnly h _

/-- Sending a character changes its port, the counts and, with the echo on, adds a record (R139). -/
theorem State.charSent_recordsOnly (line : (s.port p).line.isSome = true) :
    RecordsOnly (s.setPort p (s.port p).afterSent) (s.charSent p) := by
  obtain ⟨⟨v, a, e, bit⟩, line⟩ := Option.isSome_iff_exists.mp line
  unfold State.charSent Port.afterSent
  obtain ⟨f, flow, -, -⟩ | ⟨flow, sd, sending, flight⟩ := Port.line_cases line
  · simp only [flow]
    exact State.countPort_recordsOnly (State.countPort_recordsOnly (.refl _) ..) ..
  · simp only [flow, sending, flight]
    split
    · split
      · exact State.count_recordsOnly (State.formTx_recordsOnly (.refl _) _) ..
      · exact State.countPort_recordsOnly (.refl _) ..
    · exact State.countPort_recordsOnly (.refl _) ..

/-- What was on the line is then the last that the port has sent. -/
theorem Port.afterSent_sent {x : Port} {v : BitVec 9} {a e : Stamp} {bit : Nat} (line : x.line = some (v, a, e, bit)) :
    x.afterSent.lastSent = some e ∧ (a, e) ∈ x.afterSent.spans := by
  unfold Port.afterSent
  obtain ⟨f, flow, rfl, rfl⟩ | ⟨flow, sd, sending, flight⟩ := Port.line_cases line
  · simp only [flow, List.mem_append, List.mem_singleton, or_true, and_self]
  · simp only [flow, sending, flight, List.mem_append, List.mem_singleton, or_true, and_self]

/-- The port of a state whose character in flight has been sent. -/
theorem State.charSent_port (line : (s.port p).line.isSome = true) : (s.charSent p).port p = (s.port p).afterSent := by
  rw [State.port, (s.charSent_recordsOnly p line).ports]
  exact s.port_setPort_self p _

/-- What the end of the character leaves: the present edge, what waits at the pins, and the character as sent. -/
theorem State.charEnd_leavesSent (line : (s.port p).line.isSome = true) :
    LeavesSent p (s.setPort p (s.port p).afterSent) (s.charEnd p) := by
  have framed := s.emitFrame_recordsOnly p none
  have port : (s.emitFrame p none).port p = s.port p := by rw [State.port, framed.ports, State.port]
  have records := (s.emitFrame p none).charSent_recordsOnly p (by rw [port]; exact line)
  rw [port] at records
  have pin (q : Nat) : (s.emitFrame p none).pin q = s.pin q := by rw [State.pin, framed.pins, State.pin]
  have placed : LeavesSent p (s.setPort p (s.port p).afterSent) ((s.emitFrame p none).setPort p (s.port p).afterSent) := by
    refine ⟨framed.now, fun q => ⟨congrArg Pin.cfgWaits (pin q), congrArg Pin.switchWaits (pin q)⟩, ?_⟩
    rw [State.port_setPort_self, State.port_setPort_self]
    exact ⟨rfl, rfl⟩
  have sent := placed.of_records records
  unfold State.charEnd
  extract_lets end_ u
  split
  · exact sent.startAhead ..
  · have switched := sent.txBoundary p end_
    split
    · exact LeavesSent.startDue (LeavesSent.restTx (LeavesSent.checkHead
        (.ite (((switched.finishJob p).endJob p 2 0).modPort p _) (switched.stopDone p)) p) p) p
    · have finished := switched.finishJob p
      exact LeavesSent.startDue (LeavesSent.restTx (LeavesSent.checkHead (.ite (finished.launchTimed p) finished) p) p) p

/-- Where nothing waits for the end of the character, none of it changes the pins' settings (R338, R339). -/
theorem State.afterFlight_eq (cfg : (s.pin (txPin p)).cfgWaits = none) (switch : (s.pin (txPin p)).switchWaits = false) :
    s.afterFlight p = s := by
  unfold State.afterFlight
  simp only [cfg, switch, Bool.false_eq_true, if_false]

/-! ### Nothing follows the last character of a descriptor -/

/-- Behind the character of this transmitter nothing waits or is committed. -/
structure Port.NothingFollows (x : Port) : Prop where
  flow : x.flowFlight = none
  ahead : x.ahead = none
  stopAfter : x.stopAfter = none
  replies : x.replies = []
  queue : x.queue = []
  launchOk : x.launchOk = false
  launchAt : x.launchAt = none
  flowDue : x.flowDue = []

theorem State.txProfileSeq_ports (n : Nat) : (s.txProfileSeq p n).2.ports = s.ports := by
  unfold State.txProfileSeq
  split <;> rfl

/-- The boundary gives the transmitter its settings, and may tell the job in progress of it; nothing else of its port changes. -/
theorem State.txBoundary_port (t : Stamp) {sd : Sending} (sending : (s.port p).sending = some sd) :
    ∃ set waits told, (s.txBoundary p t).port p =
      { s.port p with txSet := set, txPalWaits := waits, sending := some { sd with profile := told } } := by
  unfold State.txBoundary
  split
  · refine ⟨(s.port p).txSet, (s.port p).txPalWaits, sd.profile, ?_⟩
    rw [← sending]
  · refine ⟨s.portPalette p, false, sd.profile || !sd.isDone, ?_⟩
    extract_lets u v n
    have told : v.ports = u.ports := by
      show (if _ then _ else _ : State).ports = _
      split <;> rfl
    rw [State.port, (State.formTx_recordsOnly (.refl _) _).ports, State.txProfileSeq_ports, told]
    show u.port p = _
    unfold u State.txSwitch
    rw [State.modPort_eq, State.port_setPort_self, sending]
    rfl

/-- A descriptor whose last character has been sent completes, and the transmitter has no job. -/
theorem State.finishJob_desc {sd : Sending} {d : Desc} (sending : (s.port p).sending = some sd) (job : sd.job = .desc d)
    (done : sd.isDone = true) (sent : sd.flight = none) :
    s.finishJob p = (s.txDone p d 0 0 (some sd)).modPort p (fun x => { x with sending := none }) := by
  unfold State.finishJob State.endJob
  simp only [sending, job, done, sent, Option.isNone_none, Bool.and_self, if_true]

theorem State.checkHead_of_empty (queue : (s.port p).queue = []) : s.checkHead p = s := by
  unfold State.checkHead State.headReached
  simp only [queue, ite_self]

theorem State.startDue_of_none (none : s.nextStart p = .none) : s.startDue p = s := by
  unfold State.startDue
  rw [none]
  exact ite_self s

theorem State.nextStart_none (nothing : (s.port p).NothingFollows) (sending : (s.port p).sending = none) :
    s.nextStart p = .none := by
  unfold State.nextStart
  simp only [nothing.flowDue, sending, nothing.replies, nothing.queue, nothing.launchOk]
  exact ite_self _

/-- A transmitter without a job and with nothing to follow is IDLE. -/
theorem Port.NothingFollows.rests {x : Port} (nothing : x.NothingFollows) (sending : x.sending = none) (tx : x.tx = .send) :
    x.rests.NothingFollows ∧ x.rests.sending = none ∧ x.rests.tx = .idle := by
  have line : x.line = none := by
    unfold Port.line
    rw [nothing.flow, sending]
    rfl
  unfold Port.rests
  simp only [line, sending, tx, nothing.launchAt, Option.isSome_none, Bool.or_self, Bool.false_eq_true, if_false, true_or, if_true]
  exact ⟨⟨nothing.flow, nothing.ahead, nothing.stopAfter, nothing.replies, nothing.queue, nothing.launchOk, rfl, nothing.flowDue⟩,
    trivial, trivial⟩

/-- The port behind the last character of a descriptor. -/
def Port.endsDesc (d : Desc) (x : Port) : Prop :=
  ∃ sd, x.sending = some sd ∧ sd.job = .desc d ∧ sd.isDone = true ∧ sd.flight = none

theorem Port.endsDesc_afterSent {x : Port} {v : BitVec 9} {a e : Stamp} {bit : Nat} {sd : Sending} {d : Desc}
    (line : x.line = some (v, a, e, bit)) (nothing : x.NothingFollows) (sending : x.sending = some sd) (job : sd.job = .desc d)
    (done : sd.isDone = true) : x.afterSent.NothingFollows ∧ x.afterSent.endsDesc d ∧ x.afterSent.tx = x.tx := by
  obtain ⟨f, flow, -, -⟩ | ⟨flow, sd', same, flight⟩ := Port.line_cases line
  · rw [nothing.flow] at flow
    cases flow
  · obtain rfl : sd = sd' := Option.some.inj (sending.symm.trans same)
    unfold Port.afterSent
    simp only [flow, sending, flight]
    exact ⟨⟨rfl, nothing.ahead, nothing.stopAfter, nothing.replies, nothing.queue, nothing.launchOk, nothing.launchAt,
      nothing.flowDue⟩, ⟨_, rfl, job, done, rfl⟩, trivial⟩

/-- What the end of the last character of descriptor `d` leaves: a transmitter in IDLE without a job, and a TXDONE record under
the descriptor's tag. -/
structure Completed (p : Nat) (d : Desc) (t : State) : Prop where
  sending : (t.port p).sending = none
  tx : (t.port p).tx = .idle
  recs : ∃ y, t.hasRec y ∧ y.type = .txdone ∧ y.seq = d.tag ∧ y.port = p

/-- The boundary lies behind the last character too. -/
theorem State.txBoundary_endsDesc {d : Desc} (t : Stamp) (nothing : (s.port p).NothingFollows) (ends : (s.port p).endsDesc d) :
    ((s.txBoundary p t).port p).NothingFollows ∧ ((s.txBoundary p t).port p).endsDesc d ∧
      ((s.txBoundary p t).port p).tx = (s.port p).tx := by
  obtain ⟨sd, sending, job, done, sent⟩ := ends
  obtain ⟨set, waits, told, port⟩ := s.txBoundary_port p t sending
  rw [port]
  exact ⟨by cases nothing; constructor <;> assumption, ⟨_, rfl, job, done, sent⟩, rfl⟩

/-- The descriptor completes, and the transmitter has no job. -/
theorem State.finishJob_endsDesc {d : Desc} (nothing : (s.port p).NothingFollows) (ends : (s.port p).endsDesc d) :
    ((s.finishJob p).port p).NothingFollows ∧ ((s.finishJob p).port p).sending = none ∧
      ((s.finishJob p).port p).tx = (s.port p).tx ∧
      ∃ y, (s.finishJob p).hasRec y ∧ y.type = .txdone ∧ y.seq = d.tag ∧ y.port = p := by
  obtain ⟨sd, sending, job, done, sent⟩ := ends
  obtain ⟨⟨y, recs, type, seq, port, -⟩, -⟩ := s.txDone_forms p d 0 0 (some sd)
  have kept : (s.txDone p d 0 0 (some sd)).port p = s.port p := by
    rw [State.port, (State.txDone_recordsOnly (.refl s) ..).ports, State.port]
  rw [s.finishJob_desc p sending job done sent, State.modPort_eq, State.port_setPort_self, kept]
  exact ⟨by cases nothing; constructor <;> assumption, rfl, rfl, y, recs, type, seq, port⟩

/-- A transmitter without a job, and with nothing to follow, rests. -/
theorem State.rest_completes {d : Desc} (nothing : (s.port p).NothingFollows) (free : (s.port p).sending = none)
    (tx : (s.port p).tx = .send) (recs : ∃ y, s.hasRec y ∧ y.type = .txdone ∧ y.seq = d.tag ∧ y.port = p) :
    Completed p d (((s.checkHead p).restTx p).startDue p) := by
  have rested : (s.restTx p).port p = (s.port p).rests := by
    obtain e | e := s.restTx_eq p
    · rw [e, State.port_setPort_self]
    · rw [e]
      exact State.port_setPort_self ..
  obtain ⟨nothing', free', idle⟩ := nothing.rests free tx
  rw [← rested] at nothing' free' idle
  obtain ⟨y, has, record⟩ := recs
  rw [s.checkHead_of_empty p nothing.queue, State.startDue_of_none _ p (State.nextStart_none _ p nothing' free')]
  exact ⟨free', idle, y, (s.restTx_dropsHeads p).recs y has, record⟩

theorem State.charEnd_completes {v : BitVec 9} {a e : Stamp} {bit : Nat} {sd : Sending} {d : Desc}
    (line : (s.port p).line = some (v, a, e, bit)) (nothing : (s.port p).NothingFollows)
    (sending : (s.port p).sending = some sd) (job : sd.job = .desc d) (done : sd.isDone = true) (tx : (s.port p).tx = .send) :
    Completed p d (s.charEnd p) := by
  have framed : (s.emitFrame p none).port p = s.port p := by
    rw [State.port, (s.emitFrame_recordsOnly p none).ports, State.port]
  have port := (s.emitFrame p none).charSent_port p (by rw [framed, line]; rfl)
  rw [framed] at port
  have after := Port.endsDesc_afterSent line nothing sending job done
  rw [← port] at after
  unfold State.charEnd
  extract_lets end_ sent switched finished timed
  obtain ⟨nothing₁, ends₁, tx₁⟩ := after
  obtain ⟨nothing₂, ends₂, tx₂⟩ := sent.txBoundary_endsDesc p end_ nothing₁ ends₁
  obtain ⟨nothing₃, free, tx₃, recs⟩ := switched.finishJob_endsDesc p nothing₂ ends₂
  have notTimed : timed = finished := if_neg (by rw [nothing₃.launchOk]; exact Bool.false_ne_true)
  simp only [show (sent.port p).ahead = none from nothing₁.ahead, show (switched.port p).stopAfter = none from nothing₂.stopAfter,
    notTimed]
  exact finished.rest_completes p nothing₃ free (tx₃.trans (tx₂.trans (tx₁.trans tx))) recs

/-- Settles O31: the character in flight is sent at the first edge at or after its end, whatever follows; behind the last one of
a descriptor the job completes and nothing else starts. -/
theorem characterEndCompletesTheDescriptor : Obligations.CharacterEndCompletesTheDescriptor := by
  unfold Obligations.CharacterEndCompletesTheDescriptor
  intro s p v a e bit line
  have ends : exec (.txCharEnd p) s =
      .next (if s.shadowing then s else ((s.advanceTo e).charEnd p.val).afterFlight p.val) := by
    show execTxCharEnd p s = _
    unfold execTxCharEnd
    rw [line]
  have port : (s.advanceTo e).port p.val = s.port p.val := s.port_advance p.val _
  have line' := line
  rw [← port] at line'
  have leaves := (s.advanceTo e).charEnd_leavesSent p.val (by rw [line']; rfl)
  have now : ((s.advanceTo e).charEnd p.val).now = s.edgeAt e := leaves.now.trans (s.advanceTo_now e)
  have sent : (((s.advanceTo e).charEnd p.val).port p.val).lastSent = some e ∧
      (a, e) ∈ (((s.advanceTo e).charEnd p.val).port p.val).spans := by
    rw [leaves.sent.1, leaves.sent.2, State.port_setPort_self]
    exact Port.afterSent_sent line'
  have waits := leaves.waits (txPin p.val)
  rw [show ((s.advanceTo e).setPort p.val _).pin (txPin p.val) = (s.advanceTo e).pin (txPin p.val) from rfl,
    State.pin_advanceTo] at waits
  have after (cfg : (s.pin (txPin p.val)).cfgWaits = none) (switch : (s.pin (txPin p.val)).switchWaits = false) :
      ((s.advanceTo e).charEnd p.val).afterFlight p.val = (s.advanceTo e).charEnd p.val :=
    State.afterFlight_eq _ p.val (waits.1.trans cfg) (waits.2.trans switch)
  refine ⟨fun shadow => ?_, fun shadow cfg switch => ?_, ?_⟩
  · rw [ends, shadow]
    rfl
  · refine ⟨_, by rw [ends, shadow, if_neg Bool.false_ne_true, after cfg switch], now, sent⟩
  · intro sd d shadow sending flow job done ahead stop replies queue launchOk launchAt flowDue tx cfg switch
    have completed := (s.advanceTo e).charEnd_completes p.val (sd := sd) (d := d) line'
      (by rw [port]; exact ⟨flow, ahead, stop, replies, queue, launchOk, launchAt, flowDue⟩) (by rw [port]; exact sending) job done
      (by rw [port]; exact tx)
    exact ⟨_, by rw [ends, shadow, if_neg Bool.false_ne_true, after cfg switch], now, completed.sending, completed.tx, sent.1,
      completed.recs⟩

end Sys2Proof.Machine
end

section
namespace Sys2Proof.Machine

/-! ### A descriptor that is late at once, and a counter move that names RG_DEV

A valid descriptor that reaches the head of its queue less than 4 DCLK before its commit edge completes LATE (R136), and the
count of PT_TXERR_LATE settles every counter move whose events are committed (R216). The statement speaks of every state: in one
that holds a move for RG_DEV, waiting for nothing, RG_DEV then does not stand at the count of descriptors read. -/

/-- An ACTIVE submission ring 0 with one descriptor to read, and port 0 that transmits. A move that sets RG_DEV of ring 0 to 0
waits for no event. -/
def lateDescriptorWaits : State :=
  { eventSourceSelected with
    link := { pm := .l0, perst := false, bme := true }
    regs := [(0x0A1, 0), (0x414, Reg.PT_TXCFG_EN.set (resetWord 0x414) 1),
             (0x501, Reg.RG_CFG_KIND.set (Reg.RG_CFG_EN.set (resetWord 0x501) 1) 0)]
    rings := [(0, { state := .active, host := 1 })]
    ports := [(0, { tx := .idle })]
    gated := [⟨Reg.RG_DEV.word, Reg.RG_DEV.lo, Reg.RG_DEV.width, 0, .set, 0, [], true⟩] }

/-- A descriptor of port 0 with two bytes of data and launch stamp 0, which is past. -/
def lateDescriptor : List Byte := leBytes 24 0 ++ leBytes 4 2 ++ leBytes 2 0 ++ leBytes 34 1

/-- The next slot of ring `n` has been read: its issued count moves on, and RG_DEV shows it. -/
def State.slotRead (s : State) (n : Nat) : State :=
  let slot : Word := BitVec.ofNat 32 ((s.ring n).issued.toNat % s.ringSize n)
  let t := (s.setRing n { s.ring n with issued := (s.ring n).issued + 1 }).wr Reg.RG_DEV ((s.ring n).issued.toNat + 1) n
  t.request.emit (.readReq (t.ringBase n + BitVec.ofNat 64 (64 * slot.toNat)) 64)

/-- The descriptor that the bytes of the next slot of ring `n` hold. -/
def State.slotDesc (s : State) (n : Nat) (b : List Byte) : Desc :=
  { parseDesc n (BitVec.ofNat 32 ((s.ring n).issued.toNat % s.ringSize n)) b with num := (s.ring n).issued }

/-- A valid descriptor of a port that transmits takes its place in the port's queue (R131). -/
theorem exec_descriptorFetch_queues {s : State} {n : RingIx} {b : List Byte} (active : (s.ring n.val).state = .active)
    (kind : s.rd Reg.RG_CFG_KIND n.val = 0) (more : (s.ring n.val).issued ≠ (s.ring n.val).host) (room : s.descHeld n.val < 128)
    (may : s.mayRequest = true) {d : Desc} (desc : s.slotDesc n.val b = d) {t : State} (read : s.slotRead n.val = t)
    (valid : t.invalidDesc d (padTo 64 b) = false) (fed : (t.port d.port).tx ≠ .starved) (on : (t.port d.port).tx ≠ .off)
    (stays : (t.port d.port).stopAfter = none) (alone : t.mirrors = false) :
    exec (.descriptorFetch n b) s = .next (t.queueDesc d) := by
  show execDescriptorFetch n b s = _
  unfold execDescriptorFetch
  dsimp only
  rw [if_pos ⟨active, kind, more, room, may⟩]
  subst desc read
  refine (if_neg (ne_true_of_eq_false valid)).trans ((if_neg fed).trans ((if_neg ?_).trans ?_))
  · rintro (off | ⟨stops, -⟩)
    · exact on off
    · exact Option.some_ne_none 5 (stops.symm.trans stays)
  · exact congrArg (fun t : State => Host.Outcome.next (t.queueDesc (s.slotDesc n.val b)))
      (if_neg (ne_true_of_eq_false alone))

theorem lateDescriptorWaits_reads : (lateDescriptorWaits.ring (0 : RingIx).val).state = .active ∧
    lateDescriptorWaits.rd Reg.RG_CFG_KIND (0 : RingIx).val = 0 ∧
    (lateDescriptorWaits.ring (0 : RingIx).val).issued ≠ (lateDescriptorWaits.ring (0 : RingIx).val).host ∧
    lateDescriptorWaits.descHeld (0 : RingIx).val < 128 ∧ lateDescriptorWaits.mayRequest = true := by decide +kernel

/-- The descriptor that is late at once. -/
def lateDesc : Desc := lateDescriptorWaits.slotDesc (0 : RingIx).val lateDescriptor

/-- It is valid, and its port transmits. -/
theorem lateDesc_valid : (lateDescriptorWaits.slotRead (0 : RingIx).val).invalidDesc lateDesc (padTo 64 lateDescriptor) = false ∧
    ((lateDescriptorWaits.slotRead (0 : RingIx).val).port lateDesc.port).tx = .idle ∧
    ((lateDescriptorWaits.slotRead (0 : RingIx).val).port lateDesc.port).stopAfter = none ∧
    (lateDescriptorWaits.slotRead (0 : RingIx).val).mirrors = false := by decide +kernel

/-- RG_DEV shows 0 once it has reached the head of its queue. -/
theorem lateDesc_dev : ((lateDescriptorWaits.slotRead (0 : RingIx).val).queueDesc lateDesc).rd Reg.RG_DEV (0 : RingIx).val = 0 := by
  decide +kernel

/-- Refutes O29: the completion of a descriptor that is late at once settles a counter move that names RG_DEV. -/
theorem not_submissionsReachTheQueue : ¬ Obligations.SubmissionsReachTheQueue := by
  unfold Obligations.SubmissionsReachTheQueue
  rintro ⟨-, fetch, -⟩
  obtain ⟨active, kind, more, room, may⟩ := lateDescriptorWaits_reads
  obtain ⟨valid, idle, stays, alone⟩ := lateDesc_valid
  obtain ⟨t, e, -, one, -⟩ := fetch lateDescriptorWaits 0 lateDescriptor _ active kind more room may rfl
  have queued := exec_descriptorFetch_queues active kind more room may (rfl : _ = lateDesc) rfl valid (by rw [idle]; decide)
    (by rw [idle]; decide) stays alone
  rw [Host.Outcome.next.inj (e.symm.trans queued), lateDesc_dev] at one
  exact absurd one (by decide +kernel)

end Sys2Proof.Machine
end

section
namespace Sys2Proof.Machine

/-! ### Records are added, rings stand

Raising an event may form records and close loss intervals of the event ring. Through all of it every ring keeps its state and
its counts, and what stands in staging as issued stood there before: one lemma for each operation. -/

variable (s : State)

/-- A ring has the state and the counts of another. -/
def Ring.standsAs (x y : Ring) : Prop := y.state = x.state ∧ y.host = x.host ∧ y.issued = x.issued

theorem Ring.standsAs_trans {x y z : Ring} (h : x.standsAs y) (k : y.standsAs z) : x.standsAs z :=
  ⟨k.1.trans h.1, k.2.1.trans h.2.1, k.2.2.trans h.2.2⟩

/-- From `r` to `s` every ring keeps its state and its counts, and no record has been issued or marked for rewriting. -/
structure AddsRecords (r s : State) : Prop where
  rings : ∀ n, (r.ring n).standsAs (s.ring n)
  issued : ∀ x ∈ s.staging, x.slot.isSome = true → ∃ y ∈ r.staging, y.slot.isSome = true ∧ y.rewrite = x.rewrite

namespace AddsRecords

variable {s} {r t : State}

theorem of_same (rings : t.rings = s.rings) (staging : t.staging = s.staging) : AddsRecords s t := by
  refine ⟨fun n => ?_, fun x mem slot => ⟨x, staging ▸ mem, slot, rfl⟩⟩
  rw [State.ring, State.ring, rings]
  exact ⟨rfl, rfl, rfl⟩

theorem refl (s : State) : AddsRecords s s := of_same rfl rfl

theorem trans (h : AddsRecords r s) (k : AddsRecords s t) : AddsRecords r t := by
  refine ⟨fun n => Ring.standsAs_trans (h.rings n) (k.rings n), fun x mem slot => ?_⟩
  obtain ⟨y, mem', slot', same⟩ := k.issued x mem slot
  obtain ⟨z, mem'', slot'', same'⟩ := h.issued y mem' slot'
  exact ⟨z, mem'', slot'', same'.trans same⟩

theorem setRing (n : Nat) (v : Ring) (stands : (s.ring n).standsAs v) : AddsRecords s (s.setRing n v) := by
  refine ⟨fun m => ?_, (refl s).issued⟩
  by_cases at_ : m = n
  · subst at_
    rw [State.ring_setRing_self]
    exact stands
  · rw [State.ring_setRing_other _ _ _ _ at_]
    exact ⟨rfl, rfl, rfl⟩

theorem modRing (n : Nat) (f : Ring → Ring)
    (stands : ∀ x, Ring.standsAs x (f x) := by exact fun _ => ⟨rfl, rfl, rfl⟩) : AddsRecords s (s.modRing n f) :=
  .setRing n _ (stands _)

theorem foldl {β : Type} {f : State → β → State} (k : ∀ s b, AddsRecords s (f s b)) (l : List β) :
    AddsRecords s (l.foldl f s) :=
  List.foldlRecOn (motive := fun t => AddsRecords s t) l f (refl s) fun t h b _ => h.trans (k t b)

end AddsRecords

theorem State.move_rings (g : Gated) : (s.move g).rings = s.rings := by
  unfold State.move
  split
  · rfl
  · split <;> rfl

theorem State.settle_rings : s.settle.rings = s.rings := by
  unfold State.settle
  exact List.foldlRecOn (motive := fun t : State => t.rings = s.rings) _ _ rfl (fun t h g _ => (t.move_rings g).trans h)

theorem State.count_addsRecords (m : Move) (f : Fld) (i n : Nat) (waits : List Nat) (own : Bool) :
    AddsRecords s (s.count m f i n waits own) :=
  .of_same (State.settle_rings _) (State.settle_records _).1

theorem State.noteStaging_rings : s.noteStaging.rings = s.rings := by
  unfold State.noteStaging
  dsimp only
  split
  · rfl
  · split <;> rfl

theorem State.sendMark_rings (x : Rec) : (s.sendMark x).rings = s.rings := by
  unfold State.sendMark
  split <;> rfl

/-- A record that is staged without a slot is not issued. -/
theorem State.stage_addsRecords (x : Rec) (open_ : x.slot = none) : AddsRecords s (s.stage x) := by
  refine ⟨fun n => ?_, fun y mem slot => ?_⟩
  · rw [State.ring, State.ring, State.stage, State.noteStaging_rings]
    exact ⟨rfl, rfl, rfl⟩
  rw [State.stage, (State.noteStaging_records _).1] at mem
  obtain mem | mem := List.mem_append.mp mem
  · exact ⟨y, mem, slot, rfl⟩
  · rw [List.mem_singleton.mp mem, open_] at slot
    cases slot

theorem State.form_addsRecords (x : Rec) (since : Option Nat) (open_ : x.slot = none) : AddsRecords s (s.form x since).2 := by
  unfold State.form
  extract_lets u y
  have numbered : AddsRecords s { s with nextUid := u + 1, nextOrder := s.nextOrder + 1 } := .of_same rfl rfl
  exact (numbered.trans (State.stage_addsRecords _ y open_)).trans
    (.of_same (State.sendMark_rings _ y) (State.sendMark_records _ y).1)

theorem State.srcEvent_addsRecords (n : Nat) (stamp : Stamp) (rec : Option Nat) : AddsRecords s (s.srcEvent n stamp rec) := by
  obtain ⟨x, e⟩ := s.srcEvent_eq n stamp rec
  rw [e]
  exact .of_same rfl rfl

/-- A record that raises its ring's source before it can be written is noted as counted, and no more (R206). -/
theorem State.raiseMute_addsRecords (x : Rec) : AddsRecords s (s.raiseMute x) := by
  unfold State.raiseMute
  split
  · extract_lets noted
    have counted : AddsRecords s noted := by
      refine ⟨fun n => ⟨rfl, rfl, rfl⟩, fun y mem slot => ?_⟩
      obtain ⟨z, mem', rfl⟩ := List.mem_map.mp mem
      refine ⟨z, mem', ?_⟩
      split at slot
      · exact ⟨slot, by rw [if_pos ‹_›]⟩
      · exact ⟨slot, by rw [if_neg ‹_›]⟩
    exact counted.trans (State.srcEvent_addsRecords _ _ _ _)
  · exact .refl s

theorem State.formPlace_addsRecords (x : Rec) (open_ : x.slot = none) : AddsRecords s (s.formPlace x).2 :=
  (s.form_addsRecords _ none (by exact open_)).trans (State.raiseMute_addsRecords _ _)

theorem State.noteHp_addsRecords (n : Nat) : AddsRecords s (s.noteHp n) := .modRing n _

theorem State.gapLoss_addsRecords (l : Loss) : AddsRecords s (s.gapLoss l).2 := by
  unfold State.gapLoss
  split <;> exact .of_same rfl rfl

theorem State.formGap_addsRecords (w : GapWait) : AddsRecords s (s.formGap w) := by
  have closed : AddsRecords s ((s.noteHp w.ring).gapLoss w.loss).2 :=
    (s.noteHp_addsRecords w.ring).trans (State.gapLoss_addsRecords _ _)
  have formed (x : Rec) (open_ : x.slot = none) : AddsRecords s (((s.noteHp w.ring).gapLoss w.loss).2.formPlace x).2 :=
    closed.trans (State.formPlace_addsRecords _ x open_)
  unfold State.formGap
  dsimp only
  refine (AddsRecords.trans ?_ (State.count_addsRecords _ _ _ _ _ _ _)).trans (State.count_addsRecords _ _ _ _ _ _ _)
  split
  · exact (formed _ rfl).trans (State.count_addsRecords _ _ _ _ _ _ _)
  · exact formed _ rfl

theorem State.dueGap_addsRecords (w : GapWait) : AddsRecords s (s.dueGap w) := by
  unfold State.dueGap
  split
  · exact .of_same rfl rfl
  · exact s.formGap_addsRecords w

theorem State.eventRecord_addsRecords (n detail : Nat) (port : Option Nat) : AddsRecords s (s.eventRecord n detail port) := by
  unfold State.eventRecord
  split
  · exact .refl s
  extract_lets ring closed
  split
  · exact .modRing ring _
  · refine AddsRecords.trans ?_ (State.form_addsRecords _ _ _ rfl)
    unfold closed
    split
    · exact .refl s
    · exact (AddsRecords.modRing ring _).trans (State.dueGap_addsRecords _ _)

theorem State.raiseEvent_addsRecords (n detail : Nat) (port : Option Nat) : AddsRecords s (s.raiseEvent n detail port) :=
  (s.eventRecord_addsRecords n detail port).trans (State.srcEvent_addsRecords _ _ _ _)

theorem State.noteReady_addsRecords (n : Nat) : AddsRecords s (s.noteReady n) := by
  unfold State.noteReady
  exact .modRing n _

theorem State.noteReadyAll_addsRecords : AddsRecords s s.noteReadyAll := .foldl State.noteReady_addsRecords _

theorem State.noteReadyAll_eq : ∃ g, s.noteReadyAll = { s with rings := g } :=
  List.foldlRecOn (motive := fun t : State => ∃ g, t = { s with rings := g }) _ State.noteReady ⟨s.rings, rfl⟩
    (by rintro _ ⟨g, rfl⟩ n _; exact ⟨_, rfl⟩)

end Sys2Proof.Machine
end

section
namespace Sys2Proof.Machine

/-! ### What follows a change of the link (R206, R286, R431) -/

variable (s : State)

/-- A sleep condition that begins cuts the coalescing of sources short, and no more (R286). -/
theorem State.cutCoalescing_eq : ∃ x, s.cutCoalescing = { s with srcs := x } := by
  unfold State.cutCoalescing
  refine List.foldlRecOn (motive := fun t : State => ∃ x, t = { s with srcs := x }) _ _ ⟨s.srcs, rfl⟩ ?_
  rintro _ ⟨x, rfl⟩ n _
  dsimp only
  split
  · exact ⟨_, rfl⟩
  · exact ⟨x, rfl⟩

/-- The sleep condition is marked in the link, and may pend sources; then it is looked at what rings may request. -/
theorem State.noteSleep_marks : ∃ a w x, s.noteSleep = State.noteReadyAll
    { s with link := { s.link with sleepAt := a, waiting := w }, srcs := x } := by
  unfold State.noteSleep
  split
  · split
    · exact ⟨s.link.sleepAt, s.link.waiting, s.srcs, rfl⟩
    · obtain ⟨x, cut⟩ := State.cutCoalescing_eq { s with link := { s.link with sleepAt := some s.now } }
      exact ⟨some s.now, s.link.waiting, x, by rw [cut]⟩
  · split
    · exact ⟨none, _, s.srcs, rfl⟩
    · exact ⟨s.link.sleepAt, s.link.waiting, s.srcs, rfl⟩

/-- HOST and the sleep condition follow the link. -/
def State.followLink (s : State) : State := s.hostPower.noteSleep

/-- Following the link moves the state of HOST, the marks of the sleep condition, sources, and from when rings are ready. -/
theorem State.followLink_eq : ∃ h a w x g, s.followLink =
    { s with power := { s.power with host := h }, link := { s.link with sleepAt := a, waiting := w }, srcs := x, rings := g } := by
  obtain ⟨a, w, x, e⟩ := s.hostPower.noteSleep_marks
  obtain ⟨g, f⟩ := State.noteReadyAll_eq { s.hostPower with link := { s.hostPower.link with sleepAt := a, waiting := w }, srcs := x }
  exact ⟨_, a, w, x, g, by rw [State.followLink, e, f]; rfl⟩

theorem State.followLink_addsRecords : AddsRecords s s.followLink := by
  obtain ⟨a, w, x, e⟩ := s.hostPower.noteSleep_marks
  rw [State.followLink, e]
  refine AddsRecords.trans ?_ (State.noteReadyAll_addsRecords _)
  exact .of_same rfl rfl

/-! ### Configuration writes, ASPM L1 and LINK_UP (R166, R168, R205, R417) -/

theorem Link.config_pm (l : Link) (c : CfgWrite) : (l.config c).pm = l.pm := by cases c <;> rfl

/-- A configuration write that arrives is applied in L0; from D3hot the link goes back to L1, and the write completes. -/
theorem exec_configWrite {c : CfgWrite} {l : Link} (run : s.running = true) (up : s.link.up = true)
    (written : ({ s.link with pm := .l0, idleFrom := s.now } : Link).config c = l) :
    ∃ u : State, exec (.configWrite c) s = .next u.followLink ∧ u.regs = s.regs ∧ u.now = s.now ∧ Out.cfgDone ∈ u.out ∧
      u.link = { l with pm := if l.d3hot then .l1 else .l0 } := by
  have l0 : l.pm = .l0 := by rw [← written, Link.config_pm]
  show ∃ u : State, execConfigWrite c s = _ ∧ _
  unfold execConfigWrite
  rw [if_neg (by simp [run, up])]
  extract_lets masked awake _ l' applied slept marked
  have woken : awake.regs = s.regs ∧ awake.now = s.now ∧ awake.link = s.link := by
    unfold awake
    split <;> exact ⟨rfl, rfl, rfl⟩
  have taken : l' = l := by
    rw [← written, show l' = ({ awake.link with pm := .l0, idleFrom := awake.now } : Link).config c from rfl, woken.2.1, woken.2.2]
  have after : slept.regs = awake.regs ∧ slept.now = awake.now ∧ slept.link = { l with pm := if l.d3hot then .l1 else .l0 } := by
    unfold slept
    rw [taken]
    split
    · exact ⟨rfl, rfl, rfl⟩
    · exact ⟨rfl, rfl, by rw [← l0]; exact taken⟩
  have noted : marked.regs = slept.regs ∧ marked.now = slept.now ∧ marked.link = slept.link := by
    unfold marked
    split <;> exact ⟨rfl, rfl, rfl⟩
  refine ⟨marked.emit .cfgDone, rfl, noted.1.trans (after.1.trans woken.1), noted.2.1.trans (after.2.1.trans woken.2.1),
    List.mem_append_right _ (List.mem_singleton_self _), noted.2.2.trans after.2.2⟩

theorem exec_configWrite_lost {c : CfgWrite} (gone : s.running = false ∨ s.link.up = false) :
    exec (.configWrite c) s = .next s := by
  show execConfigWrite c s = _
  unfold execConfigWrite
  exact if_pos (by simpa using gone)

/-- 16,000 DCLK without a request take the link from L0 to L1, and HOST to IDLE (R205, R431). -/
theorem exec_aspmL1Request_sleeps (run : s.running = true) (aspm : s.link.aspmL1 = true) (l0 : s.link.pm = .l0)
    (awake : s.link.d3hot = false) (quiet : s.requestWaits = false) :
    ∃ t, exec .aspmL1Request s = .next t ∧ t.link.pm = .l1 ∧ t.power.host = .idle ∧
      t.now = max s.now (s.link.idleFrom + 16000) ∧ t.regs = s.regs := by
  show ∃ t, execAspmL1Request s = _ ∧ _
  unfold execAspmL1Request
  rw [if_pos (by simp [run, aspm, l0, awake, quiet])]
  exact ⟨_, rfl, rfl, rfl, s.advance_now _, s.advance_regs _⟩

/-- A rate from 2.5 to 64 GT/s and a width from x1 to x16 are the device's; 64 GT/s in FLIT mode alone (R166). -/
theorem linkMode_trained {speed : BitVec 4} {width : BitVec 6} {flit : Bool} (slow : 1 ≤ speed.toNat) (fast : speed.toNat ≤ 6)
    (fec : speed = 6 → flit = true) (lanes : width = 1 ∨ width = 2 ∨ width = 4 ∨ width = 8 ∨ width = 16) :
    linkMode speed width flit = true := by
  have known : [1, 2, 4, 8, 16].contains width.toNat = true := by
    obtain rfl | rfl | rfl | rfl | rfl := lanes <;> decide
  have mode : (speed != 6 || flit) = true := by
    by_cases six : speed = 6
    · rw [fec six, Bool.or_true]
    · rw [bne_iff_ne.mpr six, Bool.true_or]
  rw [linkMode, known, mode, decide_eq_true ⟨slow, fast⟩]
  rfl

theorem linkMode_unknown {speed : BitVec 4} {flit : Bool} (width : BitVec 6)
    (h : speed.toNat = 0 ∨ 6 < speed.toNat ∨ (speed = 6 ∧ flit = false)) : linkMode speed width flit = false := by
  unfold linkMode
  obtain h | h | ⟨rfl, rfl⟩ := h
  · rw [decide_eq_false (by omega), Bool.false_and, Bool.false_and]
  · rw [decide_eq_false (by omega), Bool.false_and, Bool.false_and]
  · exact Bool.and_false _

theorem exec_linkUp_trains {speed : BitVec 4} {width : BitVec 6} {flit : Bool} (mode : linkMode speed width flit = true)
    (run : s.running = true) (perst : s.link.perst = false) (down : s.link.up = false) (host : s.power.host ≠ .dark) :
    ∃ t, exec (.linkUp speed width flit) s = .next t ∧ t.link.pm = .l0 ∧ t.link.speed = speed ∧ t.link.width = width ∧
      t.link.flit = flit ∧ t.link.wakeOut = false ∧ t.regs = s.regs ∧ t.staging = s.staging := by
  show ∃ t, execLinkUp speed width flit s = _ ∧ _
  unfold execLinkUp
  rw [if_neg (by simp [mode, run, perst, down, host])]
  extract_lets released
  have same : released.regs = s.regs ∧ released.staging = s.staging := by
    unfold released
    split <;> exact ⟨rfl, rfl⟩
  obtain ⟨h, a, w, x, g, e⟩ := State.followLink_eq { released with
    link := { released.link with pm := .l0, speed := speed, width := width, flit := flit, idleFrom := released.now, wakeOut := false } }
  refine ⟨_, rfl, ?_⟩
  rw [← State.followLink, e]
  exact ⟨rfl, rfl, rfl, rfl, rfl, same⟩

theorem exec_linkUp_unknown {speed : BitVec 4} {width : BitVec 6} {flit : Bool} (mode : linkMode speed width flit = false) :
    exec (.linkUp speed width flit) s = .next s := by
  show execLinkUp speed width flit s = _
  unfold execLinkUp
  exact if_pos (by simp [mode])

end Sys2Proof.Machine
end

section
namespace Sys2Proof.Machine

/-! ### LINK_DOWN (R218, R482) -/

variable (s : State)

/-- A saturating count reads one more, or its largest value. -/
theorem State.rd_incSat (f : Fld) (i : Nat) (h : f.fits) :
    (s.incSat f i).rd f i = min (s.rd f i + 1) (2 ^ f.width - 1) := by
  have room : 0 < 2 ^ f.width := Nat.two_pow_pos _
  rw [State.incSat, s.rd_wr_self f _ i h, Nat.mod_eq_of_lt (by omega)]

/-- From `s` to `t` the link has gone down: configuration space is reset, RG_LINK_DOWNS counts it, no flush read is in flight,
every record issued is to be written again, and the rings stand. -/
structure LinkLost (s t : State) : Prop where
  pm : t.link.pm = .down
  bme : t.link.bme = false
  d3hot : t.link.d3hot = false
  downs : t.rd Reg.RG_LINK_DOWNS = min (s.rd Reg.RG_LINK_DOWNS + 1) 0xFFFF
  flushes : t.flushes = []
  rewrite : ∀ x ∈ t.staging, x.slot.isSome = true → x.rewrite = true
  rings : ∀ n, (s.ring n).standsAs (t.ring n)

/-- Records that are added later, and what follows the link, leave it so. -/
theorem LinkLost.of_adds {s t u : State} (h : LinkLost s t) (k : AddsRecords t u)
    (link : u.link.pm = t.link.pm ∧ u.link.bme = t.link.bme ∧ u.link.d3hot = t.link.d3hot) (flushes : u.flushes = t.flushes)
    (downs : u.rd Reg.RG_LINK_DOWNS = t.rd Reg.RG_LINK_DOWNS) : LinkLost s u := by
  refine ⟨link.1.trans h.pm, link.2.1.trans h.bme, link.2.2.trans h.d3hot, downs.trans h.downs, flushes.trans h.flushes,
    fun x mem slot => ?_, fun n => Ring.standsAs_trans (h.rings n) (k.rings n)⟩
  obtain ⟨y, mem', slot', same⟩ := k.issued x mem slot
  rw [← same]
  exact h.rewrite y mem' slot'

theorem LinkLost.followLink {s t : State} (h : LinkLost s t) : LinkLost s t.followLink := by
  have adds := t.followLink_addsRecords
  obtain ⟨p, a, w, x, g, e⟩ := t.followLink_eq
  rw [e] at adds ⊢
  exact h.of_adds adds ⟨rfl, rfl, rfl⟩ rfl rfl

theorem LinkLost.raiseEvent {s t : State} (h : LinkLost s t) (n detail : Nat) : LinkLost s (t.raiseEvent n detail) := by
  have adds := t.raiseEvent_addsRecords n detail none
  have downs := t.rd_raiseEvent n detail none Reg.RG_LINK_DOWNS 0 (by decide) (by decide)
  obtain ⟨u, x, records, e⟩ := t.raiseEvent_eq n detail none
  rw [e] at adds downs ⊢
  exact h.of_adds adds ⟨congrArg Link.pm records.link, congrArg Link.bme records.link, congrArg Link.d3hot records.link⟩
    records.flushes downs

/-- Issued records that are not committed are all to be written again (R218). -/
theorem State.unwrite_rewrites : ∀ x ∈ s.unwrite.staging, x.slot.isSome = true → x.rewrite = true := by
  intro x mem slot
  obtain ⟨y, -, rfl⟩ := List.mem_map.mp mem
  split at slot
  · rw [if_pos ‹_›]
  · exact absurd slot ‹_›

theorem exec_linkDown_loses (up : s.link.up = true) : ∃ t, exec .linkDown s = .next t ∧ LinkLost s t := by
  show ∃ t, execLinkDown s = _ ∧ _
  unfold execLinkDown
  rw [if_neg (by simp [up])]
  extract_lets d0 counted l reset followed
  have lost : LinkLost s reset.unwrite := by
    refine ⟨rfl, rfl, rfl, s.rd_incSat Reg.RG_LINK_DOWNS 0 (by decide), rfl, reset.unwrite_rewrites, fun n => ?_⟩
    have kept : reset.unwrite.rings = s.rings := by
      show counted.rings = s.rings
      rw [show counted = s.wr Reg.RG_LINK_DOWNS _ 0 from s.incSat_eq .., State.wr_rings]
    rw [State.ring, State.ring, kept]
    exact ⟨rfl, rfl, rfl⟩
  have after : LinkLost s followed := lost.followLink
  refine ⟨_, rfl, ?_⟩
  split
  · exact after.raiseEvent _ _
  · exact after

/-! ### PERST# (R257, R287, R417, R441) -/

theorem exec_perstDeassert_releases (low : s.link.perst = true) :
    ∃ t, exec .perstDeassert s = .next t ∧ t.link = { s.link with perst := false, wakeOut := false } ∧
      t.out = s.out ++ (if s.link.wakeOut then [.wakeN false] else []) ∧ t.regs = s.regs := by
  show ∃ t, execPerstDeassert s = _ ∧ _
  unfold execPerstDeassert
  rw [if_neg (by simp [low])]
  refine ⟨_, rfl, ?_⟩
  cases wake : s.link.wakeOut with
  | true => exact ⟨rfl, rfl, rfl⟩
  | false =>
    rw [if_neg Bool.false_ne_true, if_neg Bool.false_ne_true, List.append_nil]
    exact ⟨by rw [← wake], rfl, rfl⟩

/-! ### WAKE_REQUEST (R206, R287) -/

section
variable {s} (run : s.running = true) (pme : s.link.pmeEn = true) (asks : s.wakeSource = true)
include run pme asks

/-- In D3hot the link leaves L1 for PM_PME and returns; the first PM_PME counts. -/
theorem exec_wakeRequest_pme (warm : s.link.pm ≠ .l2) (host : s.power.host ≠ .dark) (asleep : s.link.d3hot = true)
    (up : s.link.up = true) :
    ∃ t l, exec .wakeRequest s = .next t ∧ t.out = s.out ++ l ++ [.pme, .linkL1] ∧
      l = (if s.link.pm = .l1 then [.linkL0] else []) ∧ t.link = { s.link with pmeOut := true, pm := .l1 } ∧
      (s.link.pmeOut = false → t.rd Reg.RG_LINK_PMES = min (s.rd Reg.RG_LINK_PMES + 1) 0xFFFF) := by
  show ∃ t l, execWakeRequest s = _ ∧ _
  unfold execWakeRequest
  rw [if_neg (by simp [run, pme, asks])]
  extract_lets cold _ counted woken
  rw [if_neg (by simp [cold, warm, host]), if_pos (by simp [asleep, up])]
  have count : counted.out = s.out ∧ counted.link = s.link ∧
      (s.link.pmeOut = false → counted.rd Reg.RG_LINK_PMES = min (s.rd Reg.RG_LINK_PMES + 1) 0xFFFF) := by
    unfold counted
    split
    · exact ⟨rfl, rfl, fun first => absurd ‹_› (ne_true_of_eq_false first)⟩
    · exact ⟨rfl, rfl, fun _ => s.rd_incSat Reg.RG_LINK_PMES 0 (by decide)⟩
  have wakes : woken.out = s.out ++ (if s.link.pm = .l1 then [.linkL0] else []) ∧ woken.link = s.link ∧ woken.regs = counted.regs := by
    unfold woken
    rw [count.2.1]
    split
    · exact ⟨congrArg (· ++ [Out.linkL0]) count.1, count.2.1, rfl⟩
    · exact ⟨by rw [List.append_nil, count.1], count.2.1, rfl⟩
  refine ⟨_, _, rfl, ?_, rfl, congrArg (fun l : Link => { l with pmeOut := true, pm := .l1 }) wakes.2.1, fun first => ?_⟩
  · show woken.out ++ [Out.pme] ++ [Out.linkL1] = _
    rw [wakes.1, List.append_assoc _ [Out.pme]]
    rfl
  · exact (State.rd_congr counted _ wakes.2.2 Reg.RG_LINK_PMES 0).trans (count.2.2 first)

/-- In L2 and D3cold WAKE# is asserted, and counts. -/
theorem exec_wakeRequest_wake (cold : s.link.pm = .l2 ∨ s.power.host = .dark) (first : s.link.wakeOut = false) :
    ∃ t, exec .wakeRequest s = .next t ∧ t.link = { s.link with wakeOut := true } ∧ t.out = s.out ++ [.wakeN true] ∧
      t.rd Reg.RG_LINK_PMES = min (s.rd Reg.RG_LINK_PMES + 1) 0xFFFF := by
  show ∃ t, execWakeRequest s = _ ∧ _
  unfold execWakeRequest
  rw [if_neg (by simp [run, pme, asks])]
  extract_lets asleep
  rw [if_pos (by simpa [asleep] using cold), if_neg (by simp [first])]
  exact ⟨_, rfl, rfl, rfl, State.rd_incSat _ Reg.RG_LINK_PMES 0 (by decide)⟩

end

end Sys2Proof.Machine
end

section
namespace Sys2Proof.Machine

/-! ### PERST_ASSERT (R257, R441)

A HOST reset discards what is on its way to the host, turns the rings off and takes the link down. What it does to ports,
monitors and targets beside it touches none of that. -/

variable (s : State)

/-- From `r` to `s` the link, staging and the rings are as they were. -/
structure LeavesHost (r s : State) : Prop where
  link : s.link = r.link
  staging : s.staging = r.staging
  rings : s.rings = r.rings

namespace LeavesHost

variable {s} {r t : State}

theorem refl (s : State) : LeavesHost s s := ⟨rfl, rfl, rfl⟩

theorem trans (h : LeavesHost r s) (k : LeavesHost s t) : LeavesHost r t :=
  ⟨k.link.trans h.link, k.staging.trans h.staging, k.rings.trans h.rings⟩

theorem ite {c : Prop} [Decidable c] (h : LeavesHost r s) (k : LeavesHost r t) : LeavesHost r (if c then s else t) := by
  split
  · exact h
  · exact k

theorem foldl {β : Type} {f : State → β → State} (k : ∀ s b, LeavesHost s (f s b)) (l : List β) : LeavesHost s (l.foldl f s) :=
  List.foldlRecOn (motive := fun t => LeavesHost s t) l f (refl s) fun t h b _ => h.trans (k t b)

end LeavesHost

theorem State.wr_leavesHost (f : Fld) (x i : Nat) : LeavesHost s (s.wr f x i) := ⟨rfl, rfl, rfl⟩

theorem State.setReg_leavesHost (i w : Nat) (v : Word) : LeavesHost s (s.setReg i w v) := ⟨rfl, rfl, rfl⟩

theorem State.ring_wr (f : Fld) (x i n : Nat) : (s.wr f x i).ring n = s.ring n := by rw [State.ring, State.ring, State.wr_rings]

theorem State.setPort_leavesHost (p : Nat) (x : Port) : LeavesHost s (s.setPort p x) := ⟨rfl, rfl, rfl⟩

theorem State.settle_leavesHost : LeavesHost s s.settle :=
  ⟨(State.settle_recordsOnly (.refl s)).link, s.settle_records.1, s.settle_rings⟩

/-! #### Receive space that is given back (R143, R146) -/

theorem State.drive_leavesHost (q : Nat) (b : Bool) : LeavesHost s (s.drive q b) := by
  unfold State.drive
  dsimp only
  split <;> exact ⟨rfl, rfl, rfl⟩

theorem State.setRts_leavesHost (p : Nat) : LeavesHost s (s.setRts p) :=
  .ite ((s.setPort_leavesHost p _).trans (State.drive_leavesHost _ _ _)) (s.setPort_leavesHost p _)

theorem State.notePressure_leavesHost (p : Nat) : LeavesHost s (s.notePressure p) :=
  .ite (s.setPort_leavesHost p _) (.ite (s.setPort_leavesHost p _) (.refl s))

theorem State.flowRelease_leavesHost (p : Nat) : LeavesHost s (s.flowRelease p) := by
  have decided (t : State) : LeavesHost t (t.takeDecision p false) :=
    (t.setPort_leavesHost p _).trans (State.setRts_leavesHost _ p)
  exact .ite ((s.notePressure_leavesHost p).trans (decided _)) (s.notePressure_leavesHost p)

theorem State.touchMem0_leavesHost : LeavesHost s s.touchMem0 := by
  obtain ⟨x, e⟩ := LeavesSent.touchMem0_eq s
  rw [e]
  exact ⟨rfl, rfl, rfl⟩

theorem State.freeEntries_leavesHost : LeavesHost s s.freeEntries := by
  unfold State.freeEntries
  extract_lets staged
  refine .foldl (fun t b => ?_) _
  obtain ⟨p, x⟩ := b
  refine .ite ?_ (.refl t)
  have freed := (t.notePressure_leavesHost p).trans (State.setPort_leavesHost (t.notePressure p) p
    { (t.notePressure p).port p with entries := ((t.notePressure p).port p).entries.filter (fun e => !(e.built &&
      !(staged ++ (x.entries.filter (fun e => !e.built)).map (·.uid)).contains e.uid)) })
  exact (freed.trans (State.touchMem0_leavesHost _)).trans (State.flowRelease_leavesHost _ p)

/-! #### Messages that are dropped (R277, R441) -/

theorem State.modTgt_leavesHost (t : Nat) (f : Tgt → Tgt) : LeavesHost s (s.modTgt t f) := ⟨rfl, rfl, rfl⟩

theorem State.modSrc_leavesHost (n : Nat) (f : Src → Src) : LeavesHost s (s.modSrc n f) := ⟨rfl, rfl, rfl⟩

theorem State.endOfInterrupt_leavesHost (t n : Nat) : LeavesHost s (s.endOfInterrupt t n) := by
  unfold State.endOfInterrupt
  split
  · rw [State.incSat_eq]
    exact s.wr_leavesHost _ _ _
  · exact (s.modTgt_leavesHost t _).trans (State.modSrc_leavesHost _ _ _)

theorem State.dropMessages_leavesHost : LeavesHost s s.dropMessages := by
  unfold State.dropMessages
  extract_lets gone
  have unsent : LeavesHost s { s with msgs := [] } := ⟨rfl, rfl, rfl⟩
  exact unsent.trans (.foldl (fun t ⟨k, n⟩ => t.endOfInterrupt_leavesHost k n) gone)

/-! #### The reset -/

/-- Rings turn OFF; the link and staging do not move. -/
theorem State.ringsOff_off : s.ringsOff.link = s.link ∧ s.ringsOff.staging = s.staging ∧ s.ringsOff.rings = [] := by
  have off (l : List Nat) : LeavesHost s (l.foldl (fun t n => t.wr Reg.RG_CFG_EN 0 n) s) :=
    .foldl (fun t n => t.wr_leavesHost _ 0 n) l
  have clear (t : State) (w : Nat) (l : List Nat) :
      LeavesHost t (l.foldl (fun t n => t.setReg n w (resetWord (n * 4096 + w))) t) :=
    .foldl (fun t n => t.setReg_leavesHost n w _) l
  unfold State.ringsOff
  extract_lets disabled cleared
  have leaves : LeavesHost s cleared := (off (s.listed 0x501)).trans (.foldl (fun t w => clear t w (t.listed w)) ringStateWords)
  clear_value cleared
  exact ⟨leaves.link, leaves.staging, rfl⟩

/-- What is on its way to the host is discarded; the link does not move. -/
theorem State.discard_clears : s.discard.link = s.link ∧ s.discard.staging = [] := by
  unfold State.discard
  extract_lets n forgotten counted
  have link : counted.link = s.link := by
    unfold counted
    rw [State.incSat_eq, State.incSat_eq, State.wr_link, State.wr_link]
    rfl
  clear_value counted
  exact ⟨link, rfl⟩

/-- A link that is reset is down, with PERST# as it was. -/
theorem State.linkReset_down : s.linkReset.link.perst = s.link.perst ∧ s.linkReset.link.pm = .down ∧
    s.linkReset.staging = s.staging ∧ (s.rings = [] → ∀ n, (s.linkReset.ring n).state = .off) := by
  obtain ⟨l, e, perst, down⟩ : ∃ l : Link, s.linkReset = ({ s with link := l } : State).followLink ∧
      l.perst = s.link.perst ∧ l.pm = .down := ⟨_, rfl, rfl, rfl⟩
  rw [e]
  have adds := ({ s with link := l } : State).followLink_addsRecords
  obtain ⟨p, a, w, x, g, f⟩ := ({ s with link := l } : State).followLink_eq
  refine ⟨by rw [f]; exact perst, by rw [f]; exact down, by rw [f], fun none n => (adds.rings n).1.trans ?_⟩
  show (s.ring n).state = .off
  rw [State.ring, none]
  rfl

/-- PERST# and the HOST reset leave no record, no ring and no link. -/
theorem State.hostReset_clears (alone : s.engagedShadow = false) :
    s.hostReset.link.perst = s.link.perst ∧ s.hostReset.link.pm = .down ∧ s.hostReset.staging = [] ∧
      ∀ n, (s.hostReset.ring n).state = .off := by
  have shown (t : State) : LeavesHost t ((t.monitorsOff.dropMessages.wr Reg.LM_UPCFG_EN 0).wr Reg.AL_CFG_EN 0) := by
    have monitors : LeavesHost t t.monitorsOff := ⟨rfl, rfl, rfl⟩
    exact ((monitors.trans (State.dropMessages_leavesHost _)).trans (State.wr_leavesHost _ _ _ _)).trans
      (State.wr_leavesHost _ _ _ _)
  have quiet (t : State) : LeavesHost t t.settle.freeEntries := t.settle_leavesHost.trans (State.freeEntries_leavesHost _)
  have cleared : s.discard.ringsOff.link = s.link ∧ s.discard.ringsOff.staging = [] ∧ s.discard.ringsOff.rings = [] := by
    obtain ⟨link, staging, rings⟩ := s.discard.ringsOff_off
    exact ⟨link.trans s.discard_clears.1, staging.trans s.discard_clears.2, rings⟩
  unfold State.hostReset
  rw [if_neg (ne_true_of_eq_false alone)]
  generalize s.discard.ringsOff = off at cleared ⊢
  obtain ⟨link, staging, rings⟩ := cleared
  extract_lets _ _ unqueued freed dropped
  have queue : LeavesHost off unqueued := ⟨rfl, rfl, rfl⟩
  have leaves : LeavesHost off ((dropped.wr Reg.LM_UPCFG_EN 0).wr Reg.AL_CFG_EN 0) :=
    (queue.trans (quiet unqueued)).trans (shown freed)
  obtain ⟨perst, down, staged, states⟩ := ((dropped.wr Reg.LM_UPCFG_EN 0).wr Reg.AL_CFG_EN 0).linkReset_down
  exact ⟨perst.trans (congrArg Link.perst (leaves.link.trans link)), down, staged.trans (leaves.staging.trans staging),
    states (leaves.rings.trans rings)⟩

theorem State.driversOff_stands : s.driversOff.regs = s.regs ∧ s.driversOff.link = s.link := by
  unfold State.driversOff
  dsimp only
  split <;> exact ⟨rfl, rfl⟩

/-- A pair released first loses its roles, with its registers and its link as they were. -/
theorem State.releaseFirst_leaves : s.releaseFirst.regs = s.regs ∧ s.releaseFirst.link = s.link ∧
    (s.releaseFirst.hinge.state = s.hinge.state ∨ s.releaseFirst.hinge.state = .released) := by
  unfold State.releaseFirst
  split
  · rename_i paired
    obtain ⟨regs, link⟩ := s.unpair.driversOff_stands
    have advance (t : State) {n : Nat} : (t.advance n).link = t.link := by rw [State.advance]; split <;> rfl
    rw [State.release, if_pos paired]
    exact ⟨(State.advance_regs _ _).trans regs, (advance _).trans link,
      .inr (congrArg Hinge.state (State.advance_hinge _ _))⟩
  · exact ⟨rfl, rfl, .inl rfl⟩

theorem State.releaseFirst_engagedShadow (alone : s.engagedShadow = false) : s.releaseFirst.engagedShadow = false := by
  obtain ⟨regs, -, state⟩ := s.releaseFirst_leaves
  unfold State.engagedShadow State.isShadow at alone ⊢
  rw [State.rd_congr _ _ regs]
  obtain same | released := state
  · rw [same, alone]
  · rw [released]
    exact Bool.and_false _

theorem exec_perstAssert_clears (high : s.link.perst = false) (run : s.running = true) (alone : s.engagedShadow = false) :
    ∃ t, exec .perstAssert s = .next t ∧ t.link.perst = true ∧ t.link.pm = .down ∧ t.staging = [] ∧
      t.rd Reg.PW_RSTSTAT_LAST = 5 ∧ (∀ n, (t.ring n).state = .off) := by
  show ∃ t, execPerstAssert s = _ ∧ _
  unfold execPerstAssert
  rw [if_neg (ne_true_of_eq_false high)]
  extract_lets _ low reset
  rw [if_neg (by rw [show low.running = true from run]; exact Bool.false_ne_true)]
  have still : low.engagedShadow = false := alone
  obtain ⟨perst, pm, staging, rings⟩ := low.releaseFirst.hostReset_clears (low.releaseFirst_engagedShadow still)
  rw [low.releaseFirst_leaves.2.1] at perst
  have counted := reset.incSat_eq Reg.PW_RSTSTAT_PERST 0 1
  refine ⟨_, rfl, ?_⟩
  rw [counted, State.wr_link, State.wr_link, State.wr_staging, State.wr_staging]
  refine ⟨perst, pm, staging, State.rd_wr_self _ Reg.PW_RSTSTAT_LAST 5 0 (by decide), fun n => ?_⟩
  rw [State.ring_wr, State.ring_wr]
  exact rings n

end Sys2Proof.Machine
end

section
namespace Sys2Proof.Machine

/-! ### The obligation of the host link -/

/-- Settles O32: each of the link's commands by its own lemma. -/
theorem theHostLinkFollows : Obligations.TheHostLinkFollows := by
  unfold Obligations.TheHostLinkFollows
  refine ⟨fun s c => ⟨fun run up => ?_, fun gone => exec_configWrite_lost s gone⟩,
    fun s => ⟨fun run aspm l0 awake quiet => exec_aspmL1Request_sleeps s run aspm l0 awake quiet,
      fun speed width flit => ⟨fun slow fast fec lanes run perst down host =>
          exec_linkUp_trains s (linkMode_trained slow fast fec lanes) run perst down host,
        fun h => exec_linkUp_unknown s (linkMode_unknown width h)⟩,
      fun up => ?_, exec_perstDeassert_releases s, exec_perstAssert_clears s⟩,
    fun s run pme asks => ⟨fun warm host asleep up => exec_wakeRequest_pme run pme asks warm host asleep up,
      fun cold first => exec_wakeRequest_wake run pme asks cold first⟩⟩
  case refine_1 =>
    obtain ⟨u, done, regs, now, written, link⟩ := exec_configWrite s run up rfl
    obtain ⟨h, a, w, x, g, e⟩ := u.followLink_eq
    refine ⟨_, done, ?_⟩
    rw [e]
    dsimp only
    rw [link]
    exact ⟨regs, now, written, rfl, rfl, rfl, rfl, rfl, rfl, rfl⟩
  case refine_2 =>
    obtain ⟨t, done, lost⟩ := exec_linkDown_loses s up
    exact ⟨t, done, lost.pm, lost.bme, lost.d3hot, lost.downs, lost.flushes, lost.rewrite,
      fun n => ⟨(lost.rings n).1, (lost.rings n).2.2⟩⟩

end Sys2Proof.Machine
end

section
namespace Sys2Proof.Machine

/-! ### A flush read that commits a record, and a counter move that names RG_DEV

The commit of a record moves RG_DEV of its ring by one (R217), and lets go the counter moves that waited for the record (R216).
The statement speaks of every state: in one that holds a move for RG_DEV itself, the count advances twice. No operation of the
model queues such a move, so this is a state that the statement admits and no run reaches. -/

/-- A record of ring 1, issued in slot 0, that carries event 1. -/
def issuedRecord : Rec :=
  { uid := 1, ring := 1, type := .chr, base := 1500000, body := .raw [], eligible := true, slot := some 0, events := [1] }

/-- A flush read behind that record is in flight. A move that counts in RG_DEV of ring 1 waits for event 1. -/
def countedCommitWaits : State :=
  { eventSourceSelected with
    rings := [(1, { state := .active, issued := 1 })]
    staging := [issuedRecord]
    flushes := [⟨99000, [1]⟩]
    gated := [⟨Reg.RG_DEV.word, Reg.RG_DEV.lo, Reg.RG_DEV.width, 1, .wrap, 1, [1], true⟩] }

/-- The oldest flush read has completed: it is counted, and its records are committed (R215, R221). -/
def State.flushCompleted (s : State) (f : Flush) (rest : List Flush) : State :=
  ((({ s with flushes := rest } : State).wr Reg.GL_CMTSTAT_LASTLAT (min (roundDiv (s.now - f.at_) 64) 65535)).incWrap
    Reg.GL_CMTCNT).commit f.recs

theorem exec_flushReadComplete (s : State) {f : Flush} {rest : List Flush} (run : s.running = true)
    (flight : s.flushes = f :: rest) : exec .flushReadComplete s = .next (s.flushCompleted f rest) := by
  show execFlushReadComplete s = _
  simp only [execFlushReadComplete, run, flight, Bool.not_true, Bool.false_eq_true, if_false]
  rfl

theorem countedCommitWaits_running : countedCommitWaits.running = true := by decide

/-- One record of ring 1, which shows none committed, lies under the flush read. -/
theorem countedCommitWaits_one : (countedCommitWaits.rd Reg.RG_DEV (1 : RingIx).val + (countedCommitWaits.staging.filter
    (fun r => r.ring == (1 : RingIx).val && r.slot.isSome && !r.rewrite && [1].contains r.uid)).length) % 2 ^ 32 = 1 := by
  decide +kernel

/-- The completion of the flush read leaves RG_DEV at 2. -/
theorem countedCommitWaits_two : (countedCommitWaits.flushCompleted ⟨99000, [1]⟩ []).rd Reg.RG_DEV (1 : RingIx).val = 2 := by
  decide +kernel

/-- Refutes O34: the commit of one record also applies a counter move that waits for it, and the move may name RG_DEV. -/
theorem not_flushReadsCommitRecords : ¬ Obligations.FlushReadsCommitRecords := by
  unfold Obligations.FlushReadsCommitRecords
  intro h
  obtain ⟨-, complete, -⟩ := h countedCommitWaits countedCommitWaits_running
  obtain ⟨t, e, -, -, -, -, -, advanced⟩ := complete ⟨99000, [1]⟩ [] rfl
  have out : t = countedCommitWaits.flushCompleted ⟨99000, [1]⟩ [] :=
    Host.Outcome.next.inj (e.symm.trans (exec_flushReadComplete _ countedCommitWaits_running rfl))
  have one : t.rd Reg.RG_DEV (1 : RingIx).val = 1 := (advanced 1).trans countedCommitWaits_one
  rw [out, countedCommitWaits_two] at one
  exact absurd one (by decide)

end Sys2Proof.Machine
end

section
namespace Sys2Proof.Machine

/-! ### Places of BREACH and GAP records (R235, R236)

A BREACH or GAP record takes the place of its ring. What its forming does beside that leaves every ring's loss interval, the
GAP records that wait, and the places taken alone: one lemma for each operation. -/

variable (s : State)

/-- A record of a type waits in ring `n` for its write: for BREACH and GAP records, the place of the ring is taken. -/
def State.placeTaken (n : Nat) (type : RecType) : Prop :=
  ∃ r ∈ s.staging, r.ring = n ∧ r.type = type ∧ r.slot = none

/-- From `r` to `s` every ring has its loss interval, the same GAP records wait, and no place is freed. -/
structure KeepsPlaces (r s : State) : Prop where
  loss : ∀ n, (s.ring n).loss = (r.ring n).loss
  gapWaits : s.gapWaits = r.gapWaits
  places : ∀ n type, r.placeTaken n type → s.placeTaken n type

namespace KeepsPlaces

variable {s} {r t : State}

theorem of_same (rings : t.rings = s.rings) (gapWaits : t.gapWaits = s.gapWaits) (staging : t.staging = s.staging) :
    KeepsPlaces s t := by
  refine ⟨fun n => ?_, gapWaits, fun n type taken => ?_⟩
  · rw [State.ring, State.ring, rings]
  · rw [State.placeTaken, staging]
    exact taken

theorem trans (h : KeepsPlaces r s) (k : KeepsPlaces s t) : KeepsPlaces r t :=
  ⟨fun n => (k.loss n).trans (h.loss n), k.gapWaits.trans h.gapWaits,
    fun n type taken => k.places n type (h.places n type taken)⟩

end KeepsPlaces

theorem State.move_gapWaits (g : Gated) : (s.move g).gapWaits = s.gapWaits := by
  unfold State.move
  split
  · rfl
  · split <;> rfl

theorem State.settle_gapWaits : s.settle.gapWaits = s.gapWaits := by
  unfold State.settle
  exact List.foldlRecOn (motive := fun t : State => t.gapWaits = s.gapWaits) _ _ rfl
    (fun t h g _ => (t.move_gapWaits g).trans h)

theorem State.count_keepsPlaces (m : Move) (f : Fld) (i n : Nat) (waits : List Nat) (own : Bool) :
    KeepsPlaces s (s.count m f i n waits own) :=
  .of_same (State.settle_rings _) (State.settle_gapWaits _) (State.settle_records _).1

theorem State.noteStaging_gapWaits : s.noteStaging.gapWaits = s.gapWaits := by
  unfold State.noteStaging
  dsimp only
  split
  · rfl
  · split <;> rfl

theorem State.sendMark_gapWaits (x : Rec) : (s.sendMark x).gapWaits = s.gapWaits := by
  unfold State.sendMark
  split <;> rfl

/-- A record that is staged joins those in staging. -/
theorem State.stage_staging (x : Rec) : (s.stage x).staging = s.staging ++ [x] := (State.noteStaging_records _).1

theorem State.stage_keepsPlaces (x : Rec) : KeepsPlaces s (s.stage x) := by
  have joined : KeepsPlaces s { s with staging := s.staging ++ [x] } :=
    ⟨fun _ => rfl, rfl, fun _ _ ⟨r, mem, waits⟩ => ⟨r, List.mem_append_left _ mem, waits⟩⟩
  exact joined.trans (.of_same (State.noteStaging_rings _) (State.noteStaging_gapWaits _) (State.noteStaging_records _).1)

/-- From `r` to `s` a BREACH or GAP record is formed in ring `n`: it has the place, and all else of that kind stands. -/
structure TakesPlace (r s : State) (n : Nat) (type : RecType) : Prop where
  keeps : KeepsPlaces r s
  taken : s.placeTaken n type

theorem TakesPlace.trans {r s t : State} {n : Nat} {type : RecType} (h : TakesPlace r s n type) (k : KeepsPlaces s t) :
    TakesPlace r t n type := ⟨h.keeps.trans k, k.places n type h.taken⟩

theorem TakesPlace.after {r s t : State} {n : Nat} {type : RecType} (k : TakesPlace s t n type) (h : KeepsPlaces r s) :
    TakesPlace r t n type := ⟨h.trans k.keeps, k.taken⟩

/-- A record that is formed without a slot takes the place of its type. -/
theorem State.form_takesPlace (x : Rec) (since : Option Nat) (open_ : x.slot = none) :
    TakesPlace s (s.form x since).2 x.ring x.type := by
  unfold State.form
  extract_lets u y
  have numbered : KeepsPlaces s { s with nextUid := u + 1, nextOrder := s.nextOrder + 1 } := .of_same rfl rfl rfl
  refine TakesPlace.trans ⟨numbered.trans (State.stage_keepsPlaces _ y), ⟨y, ?_, rfl, rfl, open_⟩⟩
    (.of_same (State.sendMark_rings _ y) (State.sendMark_gapWaits _ y) (State.sendMark_records _ y).1)
  rw [State.stage_staging]
  exact List.mem_concat_self

theorem State.srcEvent_keepsPlaces (n : Nat) (stamp : Stamp) (rec : Option Nat) :
    KeepsPlaces s (s.srcEvent n stamp rec) := by
  obtain ⟨x, e⟩ := s.srcEvent_eq n stamp rec
  rw [e]
  exact .of_same rfl rfl rfl

/-- A record that raises its ring's source before it can be written keeps its place (R206). -/
theorem State.raiseMute_keepsPlaces (x : Rec) : KeepsPlaces s (s.raiseMute x) := by
  unfold State.raiseMute
  split
  · extract_lets noted
    have counted : KeepsPlaces s noted := by
      refine ⟨fun _ => rfl, rfl, fun n type ⟨y, mem, waits⟩ => ⟨_, List.mem_map_of_mem mem, ?_⟩⟩
      split <;> exact waits
    exact counted.trans (State.srcEvent_keepsPlaces _ _ _ _)
  · exact .of_same rfl rfl rfl

theorem State.formPlace_takesPlace (x : Rec) {n : Nat} {type : RecType} (open_ : x.slot = none) (ring : x.ring = n)
    (kind : x.type = type) : TakesPlace s (s.formPlace x).2 n type := by
  subst ring kind
  exact (s.form_takesPlace { x with eligible := true, eligAt := s.now } none open_).trans (State.raiseMute_keepsPlaces _ _)

theorem State.noteHp_keepsPlaces (n : Nat) : KeepsPlaces s (s.noteHp n) := by
  refine ⟨fun m => ?_, rfl, fun _ _ taken => taken⟩
  rw [State.noteHp, State.modRing_eq]
  by_cases at_ : m = n
  · subst at_
    rw [State.ring_setRing_self]
  · rw [State.ring_setRing_other _ _ _ _ at_]

theorem State.gapLoss_keepsPlaces (l : Loss) : KeepsPlaces s (s.gapLoss l).2 := by
  unfold State.gapLoss
  split <;> exact .of_same rfl rfl rfl

/-- A GAP record that is formed takes the GAP place of its ring. -/
theorem State.formGap_takesPlace (w : GapWait) : TakesPlace s (s.formGap w) w.ring .gap := by
  have closed : KeepsPlaces s ((s.noteHp w.ring).gapLoss w.loss).2 :=
    (s.noteHp_keepsPlaces w.ring).trans (State.gapLoss_keepsPlaces _ _)
  have formed (x : Rec) (open_ : x.slot = none) (ring : x.ring = w.ring) (kind : x.type = .gap) :
      TakesPlace s (((s.noteHp w.ring).gapLoss w.loss).2.formPlace x).2 w.ring .gap :=
    (State.formPlace_takesPlace _ x open_ ring kind).after closed
  unfold State.formGap
  dsimp only
  refine (TakesPlace.trans ?_ (State.count_keepsPlaces _ _ _ _ _ _ _)).trans (State.count_keepsPlaces _ _ _ _ _ _ _)
  split
  · exact (formed _ rfl rfl rfl).trans (State.count_keepsPlaces _ _ _ _ _ _ _)
  · exact formed _ rfl rfl rfl

/-- A BREACH record that is formed takes the BREACH place of its ring. -/
theorem State.formBreach_takesPlace (n : Nat) (b : Breach) (goesOn : Bool) :
    TakesPlace s (s.formBreach n b goesOn) n .breach := by
  have formed (x : Rec) (open_ : x.slot = none) (ring : x.ring = n) (kind : x.type = .breach) :
      TakesPlace s ((s.noteHp n).formPlace x).2 n .breach :=
    (State.formPlace_takesPlace _ x open_ ring kind).after (s.noteHp_keepsPlaces n)
  unfold State.formBreach
  dsimp only
  exact ((formed _ rfl rfl rfl).trans (State.count_keepsPlaces _ _ _ _ _ _ _)).trans
    (State.count_keepsPlaces _ _ _ _ _ _ _)

theorem State.formBreach_recordsOnly {r₀ s₀ : State} (h₀ : RecordsOnly r₀ s₀) (n : Nat) (b : Breach) (goesOn : Bool) :
    RecordsOnly r₀ (s₀.formBreach n b goesOn) := by
  unfold State.formBreach
  exact State.count_recordsOnly (State.count_recordsOnly
    (State.formPlace_recordsOnly (State.noteHp_recordsOnly h₀ n) _) _ _ _ _ _ _) _ _ _ _ _ _

/-- A GAP record that is due is formed, or waits for its place (R236). -/
theorem State.dueGap_cases (w : GapWait) :
    s.dueGap w = s.formGap w ∨ s.dueGap w = { s with gapWaits := s.gapWaits ++ [w] } := by
  unfold State.dueGap
  split
  · exact .inr rfl
  · exact .inl rfl

/-- It touches records alone, every interval stands, and the record has its place or waits for it. -/
theorem State.dueGap_places (w : GapWait) : RecordsOnly s (s.dueGap w) ∧
    (∀ n, ((s.dueGap w).ring n).loss = (s.ring n).loss) ∧
    ((∃ r ∈ (s.dueGap w).staging, r.ring = w.ring ∧ r.type = .gap ∧ r.slot = none) ∨ w ∈ (s.dueGap w).gapWaits) := by
  refine ⟨State.dueGap_recordsOnly (.refl s) w, ?_⟩
  obtain e | e := s.dueGap_cases w
  · obtain ⟨keeps, taken⟩ := s.formGap_takesPlace w
    rw [e]
    exact ⟨keeps.loss, .inl taken⟩
  · rw [e]
    exact ⟨fun _ => rfl, .inr List.mem_concat_self⟩

end Sys2Proof.Machine
end

section
namespace Sys2Proof.Machine

/-! ### Breach and fairness intervals (R231 to R233) -/

variable (s : State)

/-- What the device may request depends on neither records nor commit-gated counters (R206). -/
theorem RecordsOnly.mayRequest {r s : State} (h : RecordsOnly r s) : s.mayRequest = r.mayRequest := by
  have role : s.rd Reg.HG_CFG_ROLE = r.rd Reg.HG_CFG_ROLE := congrArg (Fld.get _) (h.reg 0 _ (by decide) (by decide))
  simp only [State.mayRequest, State.running, State.shadowing, State.isShadow, h.link, h.power, h.clk, h.boot, h.hinge, role]

theorem State.advance_mayRequest (n : Nat) : (s.advance n).mayRequest = s.mayRequest := by
  obtain ⟨x, e⟩ := s.advance_eq n
  rw [e]
  rfl

theorem State.advance_unwritten (m n : Nat) : (s.advance m).unwritten n = s.unwritten n := by
  obtain ⟨x, e⟩ := s.advance_eq m
  rw [e]
  rfl

/-- Where the device may request nothing, that is what holds a ring (R232). -/
theorem State.breachCause_link (n first : Nat) (off : s.mayRequest = false) : s.breachCause n first = 2 := by
  rw [State.breachCause, off]
  rfl

/-- The interval that opens starts at the edge, with nothing written in it and the cause that holds. -/
theorem State.openBreach_opens (n : Nat) : ∃ b, ((s.openBreach n).ring n).breach = some b ∧ b.start = s.now ∧
    b.records = 0 ∧ b.worst = 0 ∧ b.cause = s.breachCause n ((leastOf (s.unwritten n)).getD s.now) := by
  refine ⟨s.newBreach n ((leastOf (s.unwritten n)).getD s.now), ?_, rfl, rfl, rfl, rfl⟩
  rw [State.openBreach, State.modRing_eq, State.ring_setRing_self]

/-- Rings alone change. -/
theorem State.openBreach_leaves (n : Nat) : (s.openBreach n).now = s.now ∧ (s.openBreach n).regs = s.regs ∧
    (s.openBreach n).staging = s.staging := ⟨rfl, rfl, rfl⟩

/-- An interval that opens changes neither the counts of a ring nor whether it is mute. -/
theorem State.openBreach_ring (n m : Nat) : ∃ b, (s.openBreach n).ring m = { s.ring m with breach := b } := by
  rw [State.openBreach, State.modRing_eq]
  by_cases at_ : m = n
  · subst at_
    exact ⟨_, State.ring_setRing_self _ _ _⟩
  · exact ⟨(s.ring m).breach, State.ring_setRing_other _ _ _ _ at_⟩

theorem State.openBreach_stagingAdmits (n p : Nat) (e : Entry) : (s.openBreach n).stagingAdmits p e = s.stagingAdmits p e := by
  have mute (m : Nat) : ((s.openBreach n).ring m).mute = (s.ring m).mute := by
    obtain ⟨b, ring⟩ := s.openBreach_ring n m
    rw [ring]
  simp only [State.stagingAdmits, mute]
  rfl

/-- An interval that opens leaves what holds its ring as it is. -/
theorem State.openBreach_breachCause (n first : Nat) : (s.openBreach n).breachCause n first = s.breachCause n first := by
  have free : (s.openBreach n).ringFree n = s.ringFree n := by
    obtain ⟨b, ring⟩ := s.openBreach_ring n n
    rw [State.ringFree, State.ringFree, ring]
    rfl
  have holds : (s.openBreach n).stagingHolds n first = s.stagingHolds n first := by
    simp only [State.stagingHolds, State.openBreach_stagingAdmits]
    rfl
  rw [State.breachCause, State.breachCause, free, holds]
  rfl

/-- BREACH_OPEN (R231, R232). -/
theorem exec_breachOpen_opens {n : RingIx} {x : Nat} (run : s.running = true) (bounded : s.ringClass n.val = 1)
    (shut : (s.ring n.val).breach = none) (oldest : leastOf (s.unwritten n.val) = some x) :
    ∃ t b, exec (.breachOpen n) s = .next t ∧ (t.ring n.val).breach = some b ∧ b.start = t.now ∧ b.records = 0 ∧
      b.cause = t.breachCause n.val x ∧ t.now = max s.now (x + s.rd Reg.RG_QOS_LAT n.val * 1600) ∧
      (s.mayRequest = false → b.cause = 2) ∧ t.regs = s.regs := by
  obtain ⟨b, opened, start, records, -, cause⟩ := (s.advance (s.boundOf n.val x)).openBreach_opens n.val
  obtain ⟨now, regs, -⟩ := (s.advance (s.boundOf n.val x)).openBreach_leaves n.val
  rw [State.advance_unwritten, oldest, Option.getD_some] at cause
  refine ⟨_, b, ?_, opened, start.trans now.symm, records, cause.trans (State.openBreach_breachCause _ n.val x).symm,
    now.trans (s.advance_now _), fun off => ?_, regs.trans (s.advance_regs _)⟩
  · show execBreachOpen n s = _
    rw [execBreachOpen, if_pos ⟨bounded, shut, run⟩, oldest]
  · exact cause.trans (State.breachCause_link _ _ _ ((s.advance_mayRequest _).trans off))

/-- BREACH_INTERVAL_LIMIT (R231). -/
theorem exec_breachIntervalLimit_continues {n : RingIx} {b : Breach} (run : s.running = true)
    (open_ : (s.ring n.val).breach = some b) (bounded : s.ringClass n.val = 1) (free : s.breachPlaceTaken n.val = false) :
    ∃ t b', exec (.breachIntervalLimit n) s = .next t ∧ (t.ring n.val).breach = some b' ∧ b'.start = t.now ∧
      b'.records = 0 ∧ b'.worst = 0 ∧ t.now = max s.now (b.start + 1600000) ∧ (s.mayRequest = false → b'.cause = 2) ∧
      ∃ r ∈ t.staging, r.ring = n.val ∧ r.type = .breach ∧ r.slot = none := by
  have only : RecordsOnly (s.advance (b.start + 1600000)) ((s.advance (b.start + 1600000)).formBreach n.val b true) :=
    State.formBreach_recordsOnly (.refl _) _ _ _
  obtain ⟨-, taken⟩ := (s.advance (b.start + 1600000)).formBreach_takesPlace n.val b true
  obtain ⟨b', opened, start, records, worst, cause⟩ :=
    ((s.advance (b.start + 1600000)).formBreach n.val b true).openBreach_opens n.val
  obtain ⟨now, -, staging⟩ := ((s.advance (b.start + 1600000)).formBreach n.val b true).openBreach_leaves n.val
  refine ⟨_, b', ?_, opened, start.trans now.symm, records, worst, now.trans (only.now.trans (s.advance_now _)),
    fun off => ?_, ?_⟩
  · show execBreachIntervalLimit n s = _
    simp only [execBreachIntervalLimit, run, open_, bounded, free, Bool.not_true, Bool.not_false, Bool.false_eq_true, if_false,
      and_self, if_true]
  · exact cause.trans (State.breachCause_link _ _ _ (only.mayRequest.trans ((s.advance_mayRequest _).trans off)))
  · rw [staging]
    exact taken

/-- A fairness interval opens at the present edge (R233). -/
def State.openFairness (s : State) (n : Nat) : State :=
  s.modRing n (fun r =>
    { r with breach := some { start := s.now, from_ := s.stamp, cause := 4, cring := s.link.lastRing.getD 0xFF,
                              portv := false, port := 0, cstamp := 0 } })

theorem State.openFairness_opens (n : Nat) : (∃ b, ((s.openFairness n).ring n).breach = some b ∧ b.cause = 4 ∧
    b.start = s.now) ∧ (s.openFairness n).now = s.now ∧ (s.openFairness n).regs = s.regs :=
  ⟨⟨_, congrArg Ring.breach (s.ring_setRing_self n _), rfl, rfl⟩, rfl, rfl⟩

/-- A ring that holds a record ready keeps the edge from which it has held one (R233). -/
theorem State.noteReady_readyFrom {n a : Nat} (holds : s.holdsReady n = true) (since : (s.ring n).readyFrom = some a) :
    ((s.noteReady n).ring n).readyFrom = some a := by
  rw [State.noteReady, State.modRing_eq, State.ring_setRing_self]
  simp only [holds, since, if_true, Option.some_or]

/-- FAIRNESS_OPEN (R233). -/
theorem exec_fairnessOpen_opens {n : RingIx} {a : Nat} (bulk : s.ringClass n.val = 2) (shut : (s.ring n.val).breach = none)
    (holds : s.holdsReady n.val = true) (since : (s.ring n.val).readyFrom = some a) :
    ∃ t b, exec (.fairnessOpen n) s = .next t ∧ (t.ring n.val).breach = some b ∧ b.cause = 4 ∧ b.start = t.now ∧
      t.now = max s.now (a + 1600000) ∧ t.regs = s.regs := by
  obtain ⟨⟨b, opened, cause, start⟩, now, regs⟩ := ((s.noteReady n.val).advance (a + 1600000)).openFairness_opens n.val
  refine ⟨_, b, ?_, opened, cause, start.trans now.symm, now.trans (State.advance_now _ _),
    regs.trans (State.advance_regs _ _)⟩
  show execFairnessOpen n s = _
  rw [execFairnessOpen, if_pos ⟨bulk, shut, holds⟩]
  dsimp only
  rw [s.noteReady_readyFrom holds since]
  rfl

end Sys2Proof.Machine
end

section
namespace Sys2Proof.Machine

/-! ### Loss intervals (R234, R236) -/

variable (s : State)

/-- A loss interval that starts anew from its last loss, with nothing lost since (R234). -/
def Loss.renewed (l : Loss) (seq : Word) (now : Nat) : Loss := ⟨0, 0, 0, l.last, l.last, seq, now⟩

/-- The loss interval of a partner starts anew. -/
def State.renewLoss (s : State) (p k : Nat) (l : Loss) : State :=
  s.modPort p (fun x => { x with losses := Sparse.insert (Sparse.drop x.losses k) k (l.renewed (s.nextSeq p k) s.now) })

/-- The GAP record of that interval (R190). -/
def State.partnerGap (s : State) (p k : Nat) (l : Loss) : GapWait :=
  { ring := s.partnerRing p k, port := p, partner := k, loss := l, isOpen := true, cause := 1, order := s.nextOrder }

theorem State.renewLoss_losses (p k : Nat) (l : Loss) (d : Nat → Loss) :
    Sparse.get d ((s.renewLoss p k l).port p).losses k = l.renewed (s.nextSeq p k) s.now := by
  rw [State.renewLoss, State.modPort_eq, State.port_setPort_self]
  exact Sparse.get_insert_self _ _ _ _

/-- The interval has started anew, and its GAP record is formed or waits. -/
theorem State.renewLoss_dueGap (p k : Nat) (l : Loss) {t : State}
    (due : (s.renewLoss p k l).dueGap ((s.renewLoss p k l).partnerGap p k l) = t) :
    t.now = s.now ∧
      (∃ l', Sparse.get (fun _ => l) (t.port p).losses k = l' ∧ l'.chars = 0 ∧ l'.others = 0 ∧ l'.opened = t.now ∧
        l'.first = l.last) ∧
      ((∃ r ∈ t.staging, r.ring = s.partnerRing p k ∧ r.type = .gap ∧ r.slot = none) ∨
        ∃ w ∈ t.gapWaits, w.ring = s.partnerRing p k ∧ w.port = p ∧ w.partner = k ∧ w.loss = l) := by
  obtain ⟨only, -, place⟩ := (s.renewLoss p k l).dueGap_places ((s.renewLoss p k l).partnerGap p k l)
  rw [due] at only place
  have losses := s.renewLoss_losses p k l (fun _ => l)
  rw [State.port, ← only.ports] at losses
  exact ⟨only.now, ⟨_, losses, rfl, rfl, only.now.symm, rfl⟩, place.imp_right fun waits => ⟨_, waits, rfl, rfl, rfl, rfl⟩⟩

/-- GAP_INTERVAL_LIMIT of a partner (R234). -/
theorem exec_gapIntervalLimit_partner {p : PortIx} {k : Fin 4} {l : Loss} (run : s.running = true)
    (open_ : (s.port p.val).losses.find? (fun x => x.1 == k.val) = some (k.val, l)) :
    ∃ t, exec (.gapIntervalLimit p k.castSucc) s = .next t ∧ t.now = max s.now (l.opened + 1600000) ∧
      (∃ l', Sparse.get (fun _ => l) (t.port p.val).losses k.val = l' ∧ l'.chars = 0 ∧ l'.others = 0 ∧
        l'.opened = t.now ∧ l'.first = l.last) ∧
      ((∃ r ∈ t.staging, r.ring = s.partnerRing p.val k.val ∧ r.type = .gap ∧ r.slot = none) ∨
        ∃ w ∈ t.gapWaits, w.ring = s.partnerRing p.val k.val ∧ w.port = p.val ∧ w.partner = k.val ∧ w.loss = l) := by
  obtain ⟨now, renewed, place⟩ := (s.advance (l.opened + 1600000)).renewLoss_dueGap p.val k.val l rfl
  have ring : (s.advance (l.opened + 1600000)).partnerRing p.val k.val = s.partnerRing p.val k.val := by
    rw [State.partnerRing, s.rd_advance, State.partnerRing]
  rw [ring] at place
  refine ⟨_, ?_, now.trans (s.advance_now _), renewed, place⟩
  show execGapIntervalLimit p k.castSucc s = _
  have partner : ¬ k.val = 4 := Nat.ne_of_lt k.isLt
  simp only [execGapIntervalLimit, run, Fin.val_castSucc, partner, open_, Bool.not_true, Bool.false_eq_true, if_false]
  rfl

/-- The loss interval of the event ring starts anew. -/
def State.renewEventLoss (s : State) (n : Nat) (l : Loss) : State :=
  s.modRing n (fun r => { r with loss := some (l.renewed (s.nextEventSeq n) s.now) })

/-- The GAP record of that interval. -/
def State.eventGap (s : State) (n : Nat) (l : Loss) : GapWait :=
  { ring := n, port := 0, partner := 3, loss := l, isOpen := true, cause := 2, order := s.nextOrder }

/-- The interval has started anew, and its GAP record is formed or waits. -/
theorem State.renewEventLoss_dueGap (n : Nat) (l : Loss) {t : State}
    (due : (s.renewEventLoss n l).dueGap ((s.renewEventLoss n l).eventGap n l) = t) :
    t.now = s.now ∧
      (∃ l', (t.ring n).loss = some l' ∧ l'.chars = 0 ∧ l'.others = 0 ∧ l'.opened = t.now ∧ l'.first = l.last) ∧
      ((∃ r ∈ t.staging, r.ring = n ∧ r.type = .gap ∧ r.slot = none) ∨ ∃ w ∈ t.gapWaits, w.ring = n ∧ w.loss = l) := by
  obtain ⟨only, loss, place⟩ := (s.renewEventLoss n l).dueGap_places ((s.renewEventLoss n l).eventGap n l)
  rw [due] at only loss place
  have renewed : ((s.renewEventLoss n l).ring n).loss = some (l.renewed (s.nextEventSeq n) s.now) := by
    rw [State.renewEventLoss, State.modRing_eq, State.ring_setRing_self]
  exact ⟨only.now, ⟨_, (loss n).trans renewed, rfl, rfl, only.now.symm, rfl⟩,
    place.imp_right fun waits => ⟨_, waits, rfl, rfl⟩⟩

/-- GAP_INTERVAL_LIMIT of the event ring (R234). -/
theorem exec_gapIntervalLimit_events {p : PortIx} {n : Nat} {l : Loss} (run : s.running = true)
    (events : s.rd Reg.RG_EVRING_RING = n) (open_ : (s.ring n).loss = some l) :
    ∃ t, exec (.gapIntervalLimit p 4) s = .next t ∧ t.now = max s.now (l.opened + 1600000) ∧
      (∃ l', (t.ring n).loss = some l' ∧ l'.chars = 0 ∧ l'.others = 0 ∧ l'.opened = t.now ∧ l'.first = l.last) ∧
      ((∃ r ∈ t.staging, r.ring = n ∧ r.type = .gap ∧ r.slot = none) ∨ ∃ w ∈ t.gapWaits, w.ring = n ∧ w.loss = l) := by
  obtain ⟨now, renewed, place⟩ := (s.advance (l.opened + 1600000)).renewEventLoss_dueGap n l rfl
  refine ⟨_, ?_, now.trans (s.advance_now _), renewed, place⟩
  show execGapIntervalLimit p 4 s = _
  have four : (4 : Fin 5).val = 4 := rfl
  simp only [execGapIntervalLimit, run, four, events, open_, Bool.not_true, Bool.false_eq_true, if_false, if_true]
  rfl

/-- The first of some GAP records in the order of their places is one of them. -/
theorem GapWait.foldl_before_mem (l : List GapWait) (a : GapWait) :
    l.foldl (fun b x => if x.before b then x else b) a ∈ a :: l := by
  induction l generalizing a with
  | nil => exact List.mem_singleton_self a
  | cons x l ih =>
    rw [List.foldl_cons]
    split
    · exact List.mem_cons_of_mem a (ih x)
    · obtain same | later := List.mem_cons.mp (ih a)
      · rw [same]
        exact List.mem_cons_self
      · exact List.mem_cons_of_mem a (List.mem_cons_of_mem x later)

/-- GAP_PLACE_FREE (R236). -/
theorem exec_gapPlaceFree_forms {n : RingIx} (run : s.running = true) (free : s.gapPlaceTaken n.val = false)
    (waiting : ∃ w ∈ s.gapWaits, w.ring = n.val) :
    ∃ t w, exec (.gapPlaceFree n) s = .next t ∧ w ∈ s.gapWaits ∧ w.ring = n.val ∧ t.gapWaits = s.gapWaits.erase w ∧
      ∃ r ∈ t.staging, r.ring = n.val ∧ r.type = .gap ∧ r.slot = none := by
  obtain ⟨a, rest, mine⟩ : ∃ a rest, s.gapWaits.filter (fun w => w.ring == n.val) = a :: rest := by
    obtain ⟨w, mem, ring⟩ := waiting
    exact List.exists_cons_of_ne_nil (List.ne_nil_of_mem (List.mem_filter.mpr ⟨mem, beq_iff_eq.mpr ring⟩))
  have chosen := GapWait.foldl_before_mem rest a
  generalize first : rest.foldl (fun b x => if x.before b then x else b) a = w at chosen
  rw [← mine, List.mem_filter, beq_iff_eq] at chosen
  obtain ⟨keeps, taken⟩ := State.formGap_takesPlace { s with gapWaits := s.gapWaits.erase w } w
  rw [chosen.2] at taken
  refine ⟨_, w, ?_, chosen.1, chosen.2, keeps.gapWaits, taken⟩
  show execGapPlaceFree n s = _
  simp only [execGapPlaceFree, run, free, mine, first, Bool.not_true, Bool.false_eq_true, if_false]

end Sys2Proof.Machine
end

section
namespace Sys2Proof.Machine

/-! ### The obligation of intervals -/

/-- Settles O35: each of the commands that open, continue and report intervals by its own lemma. -/
theorem intervalsOpenAndContinue : Obligations.IntervalsOpenAndContinue := by
  unfold Obligations.IntervalsOpenAndContinue
  intro s n run
  exact ⟨fun x bounded shut oldest => exec_breachOpen_opens s run bounded shut oldest,
    fun b open_ bounded free => exec_breachIntervalLimit_continues s run open_ bounded free,
    fun a bulk shut holds since => exec_fairnessOpen_opens s bulk shut holds since,
    fun p k l open_ => exec_gapIntervalLimit_partner s run open_,
    fun p l open_ => exec_gapIntervalLimit_events s run rfl open_,
    fun free waiting => exec_gapPlaceFree_forms s run free waiting⟩

end Sys2Proof.Machine
end

section
namespace Sys2Proof.Machine

/-! ### Rings behind the records that are formed

A record that is formed changes no ring. A GAP record keeps the horizon point that its ring has reached (R194), and an EVENT
record may close the loss interval of its ring (R201). -/

variable (s : State)

/-- A ring keeps all but its horizon point and its loss interval. -/
def Ring.keepsTo (x y : Ring) : Prop := ∃ h l, y = { x with hp := h, loss := l }

theorem Ring.keepsTo_refl (x : Ring) : x.keepsTo x := ⟨x.hp, x.loss, rfl⟩

theorem Ring.keepsTo_trans {x y z : Ring} (h : x.keepsTo y) (k : y.keepsTo z) : x.keepsTo z := by
  obtain ⟨_, _, rfl⟩ := h
  obtain ⟨p, l, rfl⟩ := k
  exact ⟨p, l, rfl⟩

theorem State.ring_congr {t : State} (h : t.rings = s.rings) (n : Nat) : t.ring n = s.ring n := by
  rw [State.ring, State.ring, h]

theorem State.count_rings (m : Move) (f : Fld) (i n : Nat) (waits : List Nat) (own : Bool) :
    (s.count m f i n waits own).rings = s.rings := State.settle_rings _

theorem State.form_rings (x : Rec) (since : Option Nat) : (s.form x since).2.rings = s.rings := by
  unfold State.form State.stage
  exact (State.sendMark_rings _ _).trans (State.noteStaging_rings _)

theorem State.formTx_rings (x : Rec) : (s.formTx x).2.rings = s.rings := by
  unfold State.formTx
  split
  · exact s.form_rings x none
  · rfl

theorem State.txDone_rings (p : Nat) (d : Desc) (status cause : Nat) (sd : Option Sending) :
    (s.txDone p d status cause sd).rings = s.rings := by
  unfold State.txDone
  extract_lets sent first obs base cfl ring
  split
  rename_i u t formed
  obtain rfl := congrArg Prod.snd formed
  split
  · exact (State.count_rings _ _ _ _ _ _ _).trans (s.formTx_rings _)
  · split
    · exact (State.count_rings _ _ _ _ _ _ _).trans (s.formTx_rings _)
    · exact s.formTx_rings _

theorem State.raiseMute_rings (x : Rec) : (s.raiseMute x).rings = s.rings := by
  unfold State.raiseMute
  split
  · extract_lets noted
    obtain ⟨y, e⟩ := noted.srcEvent_eq (x.ring + 1) noted.stamp (some x.uid)
    rw [e]
  · rfl

theorem State.gapLoss_rings (l : Loss) : (s.gapLoss l).2.rings = s.rings := by
  unfold State.gapLoss
  split <;> rfl

/-- A ring keeps the horizon point that it has reached, and all else. -/
theorem State.noteHp_rings (m n : Nat) : (s.ring n).keepsTo ((s.noteHp m).ring n) := by
  rw [State.noteHp, State.modRing_eq]
  by_cases at_ : n = m
  · subst at_
    rw [State.ring_setRing_self]
    exact ⟨_, _, rfl⟩
  · rw [State.ring_setRing_other _ _ _ _ at_]
    exact Ring.keepsTo_refl _

theorem State.formGap_rings (w : GapWait) : (s.formGap w).rings = (s.noteHp w.ring).rings := by
  have formed (x : Rec) : (((s.noteHp w.ring).gapLoss w.loss).2.formPlace x).2.rings = (s.noteHp w.ring).rings :=
    ((State.raiseMute_rings _ _).trans (State.form_rings _ _ _)).trans (State.gapLoss_rings _ _)
  unfold State.formGap
  refine (State.count_rings _ _ _ _ _ _ _).trans ((State.count_rings _ _ _ _ _ _ _).trans ?_)
  split
  · exact (State.count_rings _ _ _ _ _ _ _).trans (formed _)
  · exact formed _

theorem State.dueGap_rings (w : GapWait) (n : Nat) : (s.ring n).keepsTo ((s.dueGap w).ring n) := by
  obtain e | e := s.dueGap_cases w
  · rw [e, State.ring_congr _ (s.formGap_rings w)]
    exact s.noteHp_rings _ n
  · rw [e]
    exact Ring.keepsTo_refl _

/-- A loss interval that opens, goes on or closes is all that changes in its ring. -/
theorem State.setLoss_rings (m n : Nat) (l : Option Loss) :
    (s.ring n).keepsTo ((s.modRing m (fun x => { x with loss := l })).ring n) := by
  rw [State.modRing_eq]
  by_cases at_ : n = m
  · subst at_
    rw [State.ring_setRing_self]
    exact ⟨_, _, rfl⟩
  · rw [State.ring_setRing_other _ _ _ _ at_]
    exact Ring.keepsTo_refl _

theorem State.eventRecord_rings (k detail : Nat) (port : Option Nat) (n : Nat) :
    (s.ring n).keepsTo ((s.eventRecord k detail port).ring n) := by
  unfold State.eventRecord
  split
  · exact Ring.keepsTo_refl _
  extract_lets ring closed
  split
  · exact s.setLoss_rings ring n _
  · rw [State.ring_congr _ (State.form_rings _ _ _)]
    unfold closed
    split
    · exact Ring.keepsTo_refl _
    · exact Ring.keepsTo_trans (s.setLoss_rings ring n none) (State.dueGap_rings _ _ n)

end Sys2Proof.Machine
end

section
namespace Sys2Proof.Machine

/-! ### What leaves the pair alone

What a port decides, stores, sends and counts, and how pins change their owners, takes no time and leaves the Hinge, the HG_
registers (R266) and all but the horizon point and the loss interval of a ring as they are: one lemma for each operation, from
a state of which this holds. -/

/-- A word of the HG_ block (R266). -/
abbrev hgWord (w : Nat) : Prop := 0x180 ≤ w ∧ w ≤ 0x18F

/-- No HG_ register is commit-gated. -/
theorem gatedWord_of_hgWord {w : Nat} (h : hgWord w) : gatedWord w = false := by
  obtain ⟨lo, hi⟩ := h
  interval_cases w <;> rfl

/-- The present edge, the Hinge and the HG_ registers of `s` are those of `r`. -/
structure LeavesHinge (r s : State) : Prop where
  now : s.now = r.now
  hinge : s.hinge = r.hinge
  reg : ∀ w, hgWord w → s.reg 0 w = r.reg 0 w

/-- So are its rings, but for horizon points and loss intervals. -/
structure LeavesPair (r s : State) : Prop extends LeavesHinge r s where
  rings : ∀ n, (r.ring n).keepsTo (s.ring n)

namespace LeavesHinge

variable {r s t : State}

theorem trans (h : LeavesHinge r s) (k : LeavesHinge s t) : LeavesHinge r t :=
  ⟨k.now.trans h.now, k.hinge.trans h.hinge, fun w hw => (k.reg w hw).trans (h.reg w hw)⟩

theorem foldl {β : Type} {f : State → β → State} (h : LeavesHinge r s) (k : ∀ s b, LeavesHinge s (f s b)) (l : List β) :
    LeavesHinge r (l.foldl f s) :=
  List.foldlRecOn (motive := fun t => LeavesHinge r t) l f h fun t h b _ => h.trans (k t b)

theorem of_same (now : t.now = s.now) (hinge : t.hinge = s.hinge) (regs : t.regs = s.regs) : LeavesHinge s t :=
  ⟨now, hinge, fun w _ => s.reg_congr t regs 0 w⟩

theorem setReg (s : State) (i w : Nat) (v : Word) (apart : w < 4096 ∧ ¬ hgWord w) : LeavesHinge s (s.setReg i w v) :=
  ⟨rfl, rfl, fun u hu => s.reg_setReg_word i w 0 u v apart.1 (by omega) fun e => apart.2 (e ▸ hu)⟩

theorem of_records (k : RecordsOnly s t) : LeavesHinge s t :=
  ⟨k.now, k.hinge, fun w hw => k.reg 0 w (by omega) (gatedWord_of_hgWord hw)⟩

theorem rd (h : LeavesHinge r s) (f : Fld) (hf : hgWord f.word) : s.rd f = r.rd f := congrArg f.get (h.reg _ hf)

theorem on (h : LeavesHinge r s) (f : Fld) (hf : hgWord f.word) : s.on f = r.on f := congrArg (· == 1) (h.rd f hf)

theorem isShadow (h : LeavesHinge r s) : s.isShadow = r.isShadow := congrArg (· == 2) (h.rd Reg.HG_CFG_ROLE (by decide))

end LeavesHinge

namespace LeavesPair

variable {r s t : State}

theorem refl (s : State) : LeavesPair s s := ⟨⟨rfl, rfl, fun _ _ => rfl⟩, fun n => (s.ring n).keepsTo_refl⟩

theorem trans (h : LeavesPair r s) (k : LeavesPair s t) : LeavesPair r t :=
  ⟨h.toLeavesHinge.trans k.toLeavesHinge, fun n => Ring.keepsTo_trans (h.rings n) (k.rings n)⟩

theorem ite {c : Prop} [Decidable c] (h : LeavesPair r s) (k : LeavesPair r t) : LeavesPair r (if c then s else t) := by
  split
  · exact h
  · exact k

/-- What holds of the state an operation answers holds of it by its name. -/
theorem of_snd {α : Type} {a : α × State} {u : α} (e : a = (u, t)) (h : LeavesPair r a.2) : LeavesPair r t := by
  rw [e] at h
  exact h

variable (h : LeavesPair r s)
include h

theorem of_same (now : t.now = s.now) (hinge : t.hinge = s.hinge) (regs : t.regs = s.regs) (rings : t.rings = s.rings) :
    LeavesPair r t :=
  h.trans ⟨.of_same now hinge regs, fun n => s.ring_congr rings n ▸ (s.ring n).keepsTo_refl⟩

theorem of_records (k : RecordsOnly s t) (rings : t.rings = s.rings) : LeavesPair r t :=
  h.trans ⟨.of_records k, fun n => s.ring_congr rings n ▸ (s.ring n).keepsTo_refl⟩

theorem foldl {β : Type} {f : State → β → State} (k : ∀ s b, LeavesPair r s → LeavesPair r (f s b)) (l : List β) :
    LeavesPair r (l.foldl f s) :=
  List.foldlRecOn (motive := fun t => LeavesPair r t) l f h fun t h b _ => k t b h

/-! #### Stores to parts and registers -/

theorem setReg (i w : Nat) (v : Word) (apart : w < 4096 ∧ ¬ hgWord w := by decide) : LeavesPair r (s.setReg i w v) :=
  h.trans ⟨.setReg s i w v apart, (refl s).rings⟩

theorem wr (f : Fld) (x i : Nat) (apart : f.word < 4096 ∧ ¬ hgWord f.word := by decide) : LeavesPair r (s.wr f x i) :=
  h.setReg i f.word _ apart

theorem incSat (f : Fld) (i n : Nat) (apart : f.word < 4096 ∧ ¬ hgWord f.word := by decide) : LeavesPair r (s.incSat f i n) :=
  h.wr f _ i apart

theorem setPort (p : Nat) (x : Port) : LeavesPair r (s.setPort p x) := h.of_same rfl rfl rfl rfl

theorem modPort (p : Nat) (f : Port → Port) : LeavesPair r (s.modPort p f) := h.setPort p _

theorem setPin (q : Nat) (x : Pin) : LeavesPair r (s.setPin q x) := h.of_same rfl rfl rfl rfl

theorem modPin (q : Nat) (f : Pin → Pin) : LeavesPair r (s.modPin q f) := h.setPin q _

theorem setSrc (n : Nat) (x : Src) : LeavesPair r (s.setSrc n x) := h.of_same rfl rfl rfl rfl

theorem emit (o : Out) : LeavesPair r (s.emit o) := h.of_same rfl rfl rfl rfl

/-! #### Records and counts -/

theorem count (m : Move) (f : Fld) (i n : Nat) (waits : List Nat) (own : Bool) : LeavesPair r (s.count m f i n waits own) :=
  h.of_records (State.count_recordsOnly (.refl s) ..) (s.count_rings ..)

theorem countPort (m : Move) (f : Fld) (p n : Nat) : LeavesPair r (s.countPort m f p n) := h.count ..

theorem countEvent (m : Move) (f : Fld) (p n : Nat) (u : Option Nat) : LeavesPair r (s.countEvent m f p n u) := by
  cases u with
  | none => exact h.countPort ..
  | some u => exact h.count ..

theorem settle : LeavesPair r s.settle := h.of_records (State.settle_recordsOnly (.refl s)) s.settle_rings

theorem rewait (u : Nat) (before : List Nat) : LeavesPair r (s.rewait u before) :=
  h.of_records (State.settle_recordsOnly (RecordsOnly.mk_iff.mpr (.refl s))) (State.settle_rings _)

theorem txDone (p : Nat) (d : Desc) (status cause : Nat) (sd : Option Sending) : LeavesPair r (s.txDone p d status cause sd) :=
  h.of_records (State.txDone_recordsOnly (.refl s) ..) (s.txDone_rings ..)

theorem dueGap (w : GapWait) : LeavesPair r (s.dueGap w) :=
  h.trans ⟨.of_records (State.dueGap_recordsOnly (.refl s) w), s.dueGap_rings w⟩

theorem srcEvent (n : Nat) (stamp : Stamp) (rec : Option Nat) : LeavesPair r (s.srcEvent n stamp rec) := by
  obtain ⟨x, e⟩ := s.srcEvent_eq n stamp rec
  rw [e]
  exact h.of_same rfl rfl rfl rfl

theorem raiseEvent (n detail : Nat) (port : Option Nat) : LeavesPair r (s.raiseEvent n detail port) :=
  (h.trans ⟨.of_records (State.eventRecord_recordsOnly (.refl s) n detail port), s.eventRecord_rings n detail port⟩).srcEvent ..

theorem formEntry (kind nrec port : Nat) (body : List Byte) : LeavesPair r (s.formEntry kind nrec port body) := by
  unfold State.formEntry
  dsimp only
  split
  · exact h
  · split
    · have counted := h.incSat Reg.AL_NOTFORMED 0 1
      generalize s.incSat Reg.AL_NOTFORMED = u at counted ⊢
      exact counted.of_same rfl rfl rfl rfl
    · exact h.of_same rfl rfl rfl rfl

theorem sessionEntry (p : Nat) (fin : Bool) : LeavesPair r (s.sessionEntry p fin) := (h.modPort p _).formEntry ..

theorem pairEntry (sub otherIdx : Nat) (otherHash : List Byte) : LeavesPair r (s.pairEntry sub otherIdx otherHash) :=
  h.formEntry ..

/-! #### Flow decisions and receive entries (R143, R146, R149) -/

theorem drive (q : Nat) (b : Bool) : LeavesPair r (s.drive q b) := ite ((h.setPin q _).emit _) h

theorem setRts (p : Nat) : LeavesPair r (s.setRts p) := ite ((h.setPort p _).drive ..) (h.setPort p _)

theorem takeDecision (p : Nat) (stop : Bool) : LeavesPair r (s.takeDecision p stop) := (h.modPort p _).setRts p

theorem notePressure (p : Nat) : LeavesPair r (s.notePressure p) := ite (h.modPort p _) (ite (h.modPort p _) h)

theorem flowRelease (p : Nat) : LeavesPair r (s.flowRelease p) :=
  ite ((h.notePressure p).takeDecision ..) (h.notePressure p)

theorem flowConfirm (p : Nat) : LeavesPair r (s.flowConfirm p) :=
  ite (ite ((h.notePressure p).modPort p _) ((h.notePressure p).takeDecision ..)) (h.flowRelease p)

theorem touchMem0 : LeavesPair r s.touchMem0 := by
  obtain ⟨x, e⟩ := LeavesSent.touchMem0_eq s
  rw [e]
  exact h.of_same rfl rfl rfl rfl

theorem loseEntry (p k : Nat) (isChar counts : Bool) (stamp : Stamp) (seq : Word) :
    LeavesPair r (s.loseEntry p k isChar counts stamp seq) := h.modPort p _

theorem closeLoss (p k order : Nat) : LeavesPair r (s.closeLoss p k order) := by
  unfold State.closeLoss
  split
  · exact h
  · exact (h.modPort p _).dueGap _

theorem store (p : Nat) (kind : EntryKind) (base : Stamp) (space : Nat) (isChar : Bool) (streams : List (Nat × Word))
    (event : Option Nat) : LeavesPair r (s.store p kind base space isChar streams event).2 := by
  unfold State.store
  split
  · exact List.foldlRecOn (motive := fun a : Bool × State => LeavesPair r a.2) streams _ h fun _ k _ _ => k.loseEntry ..
  · split
    rename_i u t taken
    have numbered : LeavesPair r t := by
      cases event with
      | some e => exact of_snd taken h
      | none => exact of_snd taken (h.of_same rfl rfl rfl rfl)
    have ordered : LeavesPair r t.takeOrder.2 := numbered.of_same rfl rfl rfl rfl
    exact foldl (touchMem0 (modPort ordered p _)) (fun _ _ k => k.closeLoss ..) streams

theorem cueRecord (p rule kind : Nat) (late held : Bool) (code rlen : Nat) (rstamp : Stamp) (m : Chr) (partner : Nat)
    (seq : Word) (uid : Option Nat) :
    LeavesPair r (s.cueRecord p rule kind late held code rlen rstamp m partner seq uid).2 := (h.store ..).flowConfirm p

theorem noteBlock (p : Nat) (e : BlockEntry) : LeavesPair r (s.noteBlock p e) := ite (h.modPort p _) h

theorem noteMatch (p : Nat) (e : BlockEntry) : LeavesPair r (s.noteMatch p e) := ite (h.modPort p _) (h.noteBlock p e)

theorem portEntryNow (p : Nat) (type : RecType) (base : Stamp) (body : List Byte) :
    LeavesPair r (s.portEntryNow p type base body).2 := by
  unfold State.portEntryNow
  refine flowConfirm (store ?_ ..) p
  split
  · exact h.noteBlock ..
  · exact h

/-! #### Settlements (R112, R117, R120, R121) -/

theorem settleEntry (p : Nat) (type : RecType) (seq : Word) (base : Stamp) (bodies : List (Nat × List Byte)) :
    LeavesPair r (s.settleEntry p type seq base bodies).2 := by
  unfold State.settleEntry
  split
  · exact h
  · exact (h.store ..).flowConfirm p

theorem settleEnd (p reason : Nat) (base stamp : Stamp) (shown : List Shown) :
    LeavesPair r (s.settleEnd p reason base stamp shown) := by
  unfold State.settleEnd
  split
  · exact ite (((h.settleEntry ..).countEvent ..).countEvent ..) ((h.settleEntry ..).countEvent ..)
  · exact h

theorem settleWin (p : Nat) (w : Settlement) : LeavesPair r (s.settleWin p w) := by
  unfold State.settleWin
  extract_lets rings
  split
  rename_i vu t varnished
  have varnish : LeavesPair r t := of_snd varnished (h.settleEntry ..)
  split
  rename_i pu v retired
  have retract : LeavesPair r v := by
    refine of_snd retired ?_
    split
    · exact varnish.settleEntry ..
    · exact varnish
  have won := retract.countEvent .wrap Reg.PT_PVWIN p 1 vu
  have varnishes := ite (c := w.agreed = 0) won (won.countEvent .wrap Reg.PT_PVVARN p w.agreed vu)
  exact modPort (ite varnishes (varnishes.countEvent ..)) p _

/-! #### Confirmation and the Cue engine (R87, R145, R155 to R161) -/

theorem setMon (q : Nat) (x : Monitor) : LeavesPair r (s.setMon q x) := h.of_same rfl rfl rfl rfl

theorem wakeOct (o cause : Nat) : LeavesPair r (s.wakeOct o cause) := by
  obtain ⟨x, e⟩ := s.wakeOct_eq o cause
  rw [e]
  exact h.of_same rfl rfl rfl rfl

theorem touchMem1 : LeavesPair r s.touchMem1 := by
  have touched : LeavesPair r { s with power := { s.power with mem1At := s.now } } := h.of_same rfl rfl rfl rfl
  exact ite (touched.of_same rfl rfl rfl rfl) touched

theorem arm (q : Nat) : LeavesPair r (s.arm q) := ((h.setMon q _).wakeOct ..).touchMem1

theorem gpioOut (q : Nat) (b : Bool) : LeavesPair r (s.gpioOut q b) :=
  ite ((h.wr Reg.ST_GPCFG_OUT _ _).drive ..) (h.wr Reg.ST_GPCFG_OUT _ _)

theorem ruleDrives (p k : Nat) (gpio arm : Bool) : LeavesPair r (s.ruleDrives p k gpio arm) := by
  unfold State.ruleDrives
  extract_lets driven armed
  have pins : LeavesPair r driven := ite (h.gpioOut ..) h
  have monitors : LeavesPair r armed := ite (pins.arm _) pins
  exact ite (monitors.setSrc ..) monitors

theorem ruleRecord (p n k : Nat) (c : Chr) (seq : Word) (late : Bool) (u : Nat) :
    LeavesPair r (s.ruleRecord p n k c seq late u).2 := by
  unfold State.ruleRecord
  split
  · exact h.cueRecord ..
  · exact h

theorem ruleCounts (p n : Nat) (late : Bool) (skips : Nat) (dropped : Bool) (w : Option Nat) :
    LeavesPair r (s.ruleCounts p n late skips dropped w) := by
  have hits := h.countEvent .wrap (Reg.CQ_RCNT.at (16 * n)) p 1 w
  have lates := ite (c := late = true) (hits.countEvent .sat Reg.CQ_STAT_LATEM p 1 w) hits
  have skipped := ite (c := skips = 0) lates (lates.countEvent .sat Reg.CQ_STAT_SKIP p skips w)
  exact ite (skipped.countEvent ..) skipped

theorem ruleFires (p n k : Nat) (c : Chr) (seq : Word) (late first : Bool) :
    LeavesPair r (s.ruleFires p n k c seq late first) := by
  unfold State.ruleFires
  extract_lets acts
  split
  rename_i u t numbered
  have fresh : LeavesPair r t := of_snd numbered (h.of_same rfl rfl rfl rfl)
  extract_lets noted x gone wantsReply sends replied gpio arm driven
  have reply : LeavesPair r replied := ite ((fresh.noteMatch ..).modPort p _) (fresh.noteMatch ..)
  exact ruleCounts (ruleRecord (ruleDrives reply ..) ..) ..

theorem pushWindow (p n : Nat) (d : BitVec 9) : LeavesPair r (s.pushWindow p n d) := by
  unfold State.pushWindow
  exact h.modPort p _

theorem cueChar (p k : Nat) (c : Chr) (seq : Word) : LeavesPair r (s.cueChar p k c seq) := by
  unfold State.cueChar
  refine ite (h.modPort p _) ?_
  extract_lets rules pushed hits late sender
  have windows : LeavesPair r pushed := h.foldl (fun _ _ k => k.pushWindow ..) rules
  exact windows.foldl (fun _ _ k => k.ruleFires ..) hits

theorem element (p : Nat) (e : Element) : LeavesPair r (s.element p e) := h.modPort p _

theorem storeVarnished (p k u : Nat) (base : Stamp) : LeavesPair r (s.storeVarnished p k u base) := by
  have ordered : LeavesPair r s.takeOrder.2 := h.of_same rfl rfl rfl rfl
  unfold State.storeVarnished
  exact ordered.modPort p _

theorem deliver (p k : Nat) (set : Settings) (c : Chr) (addr win : Bool) (varnish : Option (Option Nat)) :
    LeavesPair r (s.deliver p k set c addr win varnish).2.2 := by
  unfold State.deliver
  extract_lets x seq next cf flags
  have counted : LeavesPair r next := h.setPort p _
  match varnish with
  | some (some u) => exact (counted.storeVarnished ..).element ..
  | some none => exact counted.element ..
  | none => exact (counted.store ..).element ..

theorem takeFlow (p : Nat) (f : Option Bool) : LeavesPair r (s.takeFlow p f) := by
  cases f with
  | some b => exact (h.modPort p _).countPort ..
  | none => exact h

theorem countChar (p : Nat) (c : Chr) (u : Option Nat) : LeavesPair r (s.countChar p c u) := by
  have all := h.countEvent .wrap Reg.PT_RXCNT p 1 u
  have framing := ite (c := c.fe = true) (all.countEvent .sat Reg.PT_RXERR1_FE p 1 u) all
  have parity := ite (c := c.pe = true) (framing.countEvent .sat Reg.PT_RXERR1_PE p 1 u) framing
  exact ite (parity.countEvent ..) parity

theorem confirmChar (p : Nat) (set : Settings) (c : Chr) (period : Nat) (win : Bool) (varnish : Option (Option Nat)) :
    LeavesPair r (s.confirmChar p set c period win varnish) := by
  unfold State.confirmChar
  extract_lets c x o framed noted bad
  have block : LeavesPair r noted := (h.setPort p _).noteBlock ..
  split
  · split
    rename_i k _ u seq t delivered
    have stored : LeavesPair r t := of_snd (congrArg Prod.snd delivered) (block.deliver ..)
    have flow := stored.takeFlow p o.flow
    exact ((ite (flow.modPort p _) (ite flow (flow.cueChar ..))).countChar ..).flowConfirm p
  · have flow := block.takeFlow p o.flow
    have windows := ite (c := bad = true) (flow.modPort p fun x => { x with windows := [] }) flow
    exact ((ite windows (windows.countPort ..)).countChar ..).flowConfirm p

theorem confirmWon (p : Nat) (set : Settings) (period : Nat) (c : Chr) : LeavesPair r (s.confirmWon p set period c) :=
  ite (h.confirmChar ..) ((h.modPort p _).confirmChar ..)

end LeavesPair

end Sys2Proof.Machine
end

section
namespace Sys2Proof.Machine

/-! ### A shadow that decides leaves the pair alone (R243, R245, R262)

Confirming the primary's entries, by a block, by a transfer or on its own at a takeover, is confirmation, and no more. -/

namespace LeavesPair

variable {r s t : State} (h : LeavesPair r s)
include h

theorem breakClears (p : Nat) : LeavesPair r (s.breakClears p) := by
  unfold State.breakClears State.emptyWindows
  exact (h.modPort p _).modPort p _

theorem decided (p : Nat) (e : BlockEntry) : LeavesPair r (s.decided p e) := by
  unfold State.decided
  extract_lets t u
  split
  · exact ((h.breakClears p).portEntryNow ..).countEvent ..
  · exact h.portEntryNow ..
  · exact h.portEntryNow ..
  · exact h

theorem decideAs (p : Nat) (o : Option Own) (e : BlockEntry) : LeavesPair r (s.decideAs p o e) := by
  unfold State.decideAs
  refine ite ?_ (h.decided p e)
  split
  · exact ite (h.confirmWon ..) (h.confirmChar ..)
  · exact h.confirmChar ..

theorem settleList (p : Nat) (l : List Own) : LeavesPair r (State.settleList p l s) := by
  induction l generalizing s with
  | nil => exact h
  | cons o l ih =>
    cases o with
    | win w => exact ih ((h.modPort p _).settleWin p w)
    | ended reason base stamp shown => exact ih ((h.modPort p _).settleEnd ..)
    | profile set clear stamp => exact ih ((h.modPort p _).portEntryNow ..)
    | entry e => exact h
    | chr c set period win => exact h

theorem settleOwn (p : Nat) : LeavesPair r (s.settleOwn p) := h.settleList p _

theorem adoptEntry (p : Nat) (e : BlockEntry) : LeavesPair r (State.adoptEntry p s e) :=
  ite ((h.settleOwn p).modPort p _) (((h.settleOwn p).modPort p _).decideAs ..)

theorem decideSome (p n : Nat) : LeavesPair r (State.decideSome p n s) := by
  induction n generalizing s with
  | zero => exact h.settleOwn p
  | succ n ih =>
    unfold State.decideSome
    extract_lets settled
    have begun : LeavesPair r settled := h.settleOwn p
    split
    · refine ih ?_
      split
      · exact (begun.modPort p _).decideAs ..
      · exact begun.modPort p _
    · exact begun

/-- Each stamp code of a block that the shadow can follow confirms an entry. -/
theorem rebuildOne (p : Nat) (code : List Stamp) {es es' : List BlockEntry} {sh sh' : List (Stamp × Stamp)}
    (e : State.rebuildOne p (some (s, es, sh)) code = some (t, es', sh')) : LeavesPair r t := by
  have settled := h.settleOwn p
  unfold State.rebuildOne at e
  rw [Option.bind_some] at e
  dsimp only at e
  split at e
  · cases e
    exact settled.modPort p _
  · split at e
    · split at e
      · cases e
        exact (settled.modPort p _).decideAs ..
      · cases e
    · cases e

theorem rebuildAll (p : Nat) (codes : List (List Stamp)) {es es' : List BlockEntry} {sh sh' : List (Stamp × Stamp)}
    (e : codes.foldl (State.rebuildOne p) (some (s, es, sh)) = some (t, es', sh')) : LeavesPair r t := by
  induction codes generalizing s es sh with
  | nil =>
    cases e
    exact h
  | cons code codes ih =>
    rw [List.foldl_cons] at e
    cases one : State.rebuildOne p (some (s, es, sh)) code with
    | some a => exact ih (h.rebuildOne p code one) (one ▸ e)
    | none =>
      have lost : codes.foldl (State.rebuildOne p) none = none := by
        clear e ih one
        induction codes with
        | nil => rfl
        | cons _ _ ih => exact ih
      rw [one, lost] at e
      cases e

/-- A block that agrees is confirmed (R245). -/
theorem rebuild (p : Nat) (codes : List (List Stamp)) (crc : BitVec 32) {sh : List (Stamp × Stamp)}
    (e : s.rebuild p codes crc = some (t, sh)) : LeavesPair r t := by
  unfold State.rebuild at e
  split at e
  · rename_i confirmed
    split at e
    · cases e
      exact (h.rebuildAll p codes confirmed).settleOwn p
    · cases e
  · cases e

end LeavesPair

end Sys2Proof.Machine
end

section
namespace Sys2Proof.Machine

/-! ### Decision blocks (R243, R245) -/

variable (s : State)

theorem State.port_raiseEvent (n detail : Nat) (port : Option Nat) (p : Nat) : (s.raiseEvent n detail port).port p = s.port p := by
  obtain ⟨t, x, only, e⟩ := s.raiseEvent_eq n detail port
  rw [e, State.port, State.port, ← only.ports]

/-- Registers read alike whatever the Hinge holds. -/
theorem State.rd_setHinge (x : Hinge) (f : Fld) (i : Nat) : ({ s with hinge := x } : State).rd f i = s.rd f i := rfl

/-- A port whose block has gone in a message, with its entries. -/
def Port.sends (b : List BlockEntry) (x : Port) : Port :=
  { x with block := x.block.drop 16, blockNo := x.blockNo + 1, sent := x.sent ++ [b] }

/-- DECISION_BLOCK_CLOSE of a block that has entries (R243). -/
theorem exec_decisionBlockClose (p : PortIx) {first : Nat × BlockEntry} {rest : List (Nat × BlockEntry)} {b : List BlockEntry}
    (run : s.running = true) (mirrors : s.mirrors = true) (block : (s.port p.val).block = first :: rest)
    (entries : b = ((first :: rest).take 16).map (·.2)) :
    ∃ t, exec (.decisionBlockClose p) s = .next t ∧ t.port p.val = (s.port p.val).sends b ∧
      t.now = (if 15 ≤ rest.length then s.now else max s.now (first.1 + 2048)) ∧
      t.out = s.out ++ [.hinge (.block p.val (b.map (·.stamps)) (blockCrc b))] ∧ t.regs = s.regs := by
  have close : exec (.decisionBlockClose p) s = .next (((if 15 ≤ rest.length then s else s.advance (first.1 + 2048)).modPort
      p.val (Port.sends b)).emit (.hinge (.block p.val (b.map (·.stamps)) (blockCrc b)))) := by
    subst entries
    show execDecisionBlockClose p s = _
    simp only [execDecisionBlockClose, run, mirrors, block, Bool.not_true, Bool.or_false, Bool.false_eq_true, if_false]
    rfl
  refine ⟨_, close, ?_⟩
  rw [State.modPort_eq]
  by_cases full : 15 ≤ rest.length
  · rw [if_pos full, if_pos full]
    exact ⟨s.port_setPort_self p.val _, rfl, rfl, rfl⟩
  · rw [if_neg full, if_neg full, s.port_advance p.val]
    refine ⟨State.port_setPort_self _ _ _, s.advance_now _, ?_, s.advance_regs _⟩
    rw [State.emit_out, State.setPort_out, s.advance_out]

/-- With no entry there is nothing to close. -/
theorem exec_decisionBlockClose_empty (p : PortIx) (block : (s.port p.val).block = []) :
    exec (.decisionBlockClose p) s = .next s := by
  show execDecisionBlockClose p s = _
  simp only [execDecisionBlockClose, block, ite_self]

variable {s} {p : PortIx} (follows : s.follows = true)
include follows

theorem exec_decisionBlockRecv (codes : List (List Stamp)) (crc : BitVec 32) :
    exec (.decisionBlockRecv p codes crc) s = .next (s.takeBlock p.val codes crc) := by
  show execDecisionBlockRecv p codes crc s = _
  rw [execDecisionBlockRecv, if_pos follows]

/-- A block that the shadow rebuilds is counted and acknowledged (R245). -/
theorem exec_decisionBlockRecv_agrees (none_ : (s.port p.val).transfer = 0) {codes : List (List Stamp)} {crc : BitVec 32}
    {u : State} {sh : List (Stamp × Stamp)} (same : s.rebuild p.val codes crc = some (u, sh)) :
    ∃ t, exec (.decisionBlockRecv p codes crc) s = .next t ∧ t.out = u.out ++ [.hinge (.answer (.block p))] ∧
      t.rd Reg.HG_AGREE = (s.rd Reg.HG_AGREE + codes.length) % 2 ^ Reg.HG_AGREE.width ∧ t.ports = u.ports := by
  have agreed : u.rd Reg.HG_AGREE = s.rd Reg.HG_AGREE :=
    (LeavesPair.rebuild (.refl s) p.val codes crc same).rd Reg.HG_AGREE (by decide)
  have counted : (u.incWrap Reg.HG_AGREE 0 codes.length).rd Reg.HG_AGREE =
      (s.rd Reg.HG_AGREE + codes.length) % 2 ^ Reg.HG_AGREE.width := by
    rw [State.incWrap_eq, State.rd_wr_self _ _ _ _ (by decide), agreed]
  refine ⟨_, exec_decisionBlockRecv follows codes crc, ?_⟩
  rw [State.takeBlock, if_neg (not_not.mpr none_), same]
  dsimp only
  rw [Fin.ofNat_val_eq_self]
  split <;> exact ⟨rfl, counted, rfl⟩

/-- A block that it does not is counted, its port is named, and its transfer is asked for (R245). -/
theorem exec_decisionBlockRecv_disagrees (none_ : (s.port p.val).transfer = 0) {codes : List (List Stamp)} {crc : BitVec 32}
    (differs : s.rebuild p.val codes crc = none) :
    ∃ t o, exec (.decisionBlockRecv p codes crc) s = .next t ∧ t.out = o ++ [.hinge (.answer (.request p))] ∧
      t.rd Reg.HG_DISAGREE = min (s.rd Reg.HG_DISAGREE + 1) (2 ^ Reg.HG_DISAGREE.width - 1) ∧
      t.on Reg.HG_DISLAST_V = true ∧ t.rd Reg.HG_DISLAST_PORT = p.val ∧ t.on Reg.HG_STAT_EV_DIS = true ∧
      (t.port p.val).transfer = codes.length := by
  have taken : s.takeBlock p.val codes crc = s.disagree p.val codes := by
    rw [State.takeBlock, if_neg (not_not.mpr none_), differs]
  obtain ⟨o, asks⟩ : ∃ o, (s.disagree p.val codes).out = o ++ [.hinge (.answer (.request p))] := by
    unfold State.disagree
    rw [Fin.ofNat_val_eq_self]
    exact ⟨_, State.emit_out _ _⟩
  refine ⟨_, o, (exec_decisionBlockRecv follows codes crc).trans (congrArg _ taken), asks, ?_⟩
  unfold State.disagree
  refine ⟨?_, ?_, ?_, ?_, ?_⟩
  · simp (disch := decide) only [State.rd_emit, State.rd_raiseEvent, State.rd_wr_word, State.rd_setHinge]
    exact State.rd_incSat _ Reg.HG_DISAGREE 0 (by decide)
  · simp (disch := decide) only [State.on, State.rd_emit, State.rd_raiseEvent, State.rd_wr_word, State.rd_setHinge,
      State.rd_wr_apart, State.rd_wr_self]
    rfl
  · simp (disch := decide) only [State.rd_emit, State.rd_raiseEvent, State.rd_wr_word, State.rd_setHinge, State.rd_wr_self]
    exact Nat.mod_eq_of_lt p.isLt
  · simp (disch := decide) only [State.on, State.rd_emit, State.rd_raiseEvent, State.rd_wr_self]
    rfl
  · rw [State.port, State.emit_ports, ← State.port, State.port_raiseEvent, State.port, State.wr_ports]
    dsimp only
    rw [State.wr_ports, State.wr_ports, State.incSat_eq, State.wr_ports, ← State.port, State.modPort_eq,
      State.port_setPort_self]

omit follows in
/-- A block of one entry agrees when the CRC is that of the shadow's own entry, at the primary's stamps. -/
theorem State.rebuild_one {e : BlockEntry} {rest : List Own} (free : (s.port p.val).matched = [])
    (own : (s.port p.val).own = .entry e :: rest) (c : List Stamp) (crc : BitVec 32) :
    (s.rebuild p.val [c] crc).isSome = decide (blockCrc [e.moved c] = crc) := by
  have settled : s.settleOwn p.val = s := by
    rw [State.settleOwn, own]
    rfl
  unfold State.rebuild
  simp only [List.foldl_cons, List.foldl_nil, State.rebuildOne, Option.bind_some, settled, free, own, Own.entryOf]
  rw [List.nil_append]
  split <;> simp [*]

/-- Behind a block that disagreed a block waits. -/
theorem exec_decisionBlockRecv_waits (asked : (s.port p.val).transfer ≠ 0) (codes : List (List Stamp)) (crc : BitVec 32) :
    ∃ t, exec (.decisionBlockRecv p codes crc) s = .next t ∧
      t.port p.val = { s.port p.val with later := (s.port p.val).later ++ [(codes, crc)] } ∧ t.out = s.out := by
  refine ⟨_, exec_decisionBlockRecv follows codes crc, ?_⟩
  rw [State.takeBlock, if_pos asked]
  exact ⟨s.port_setPort_self p.val _, rfl⟩

/-! ### The transfer of a block (R245) -/

theorem exec_fullRecordRecv_entries (asked : (s.port p.val).transfer ≠ 0) (e : BlockEntry) (l : List BlockEntry) :
    ∃ t, exec (.fullRecordRecv (.entries p (e :: l))) s = .next t ∧ t.hinge.disStamp = e.stamps.headD s.hinge.disStamp := by
  have adopted : LeavesPair s ((e :: l).foldl (State.adoptEntry p.val) s) :=
    LeavesPair.foldl (.refl s) (fun _ _ k => k.adoptEntry ..) _
  have taken : exec (.fullRecordRecv (.entries p (e :: l))) s = .next { (e :: l).foldl (State.adoptEntry p.val) s with
      hinge := { ((e :: l).foldl (State.adoptEntry p.val) s).hinge with
        disStamp := e.stamps.headD ((e :: l).foldl (State.adoptEntry p.val) s).hinge.disStamp } } := by
    show execFullRecordRecv (.entries p (e :: l)) s = _
    rw [execFullRecordRecv, if_neg (by simp [follows])]
    exact if_neg asked
  exact ⟨_, taken, by rw [adopted.hinge]⟩

theorem exec_fullRecordRecv_port (asked : (s.port p.val).transfer ≠ 0) (free : (s.port p.val).later = []) (y : Port) :
    ∃ t, exec (.fullRecordRecv (.port p y)) s = .next t ∧
      (t.port p.val).rx = y.rx ∧ (t.port p.val).trk = y.trk ∧ (t.port p.val).acq = y.acq ∧ (t.port p.val).set = y.set ∧
      (t.port p.val).transfer = 0 ∧ t.out = s.out ++ [.hinge (.answer (.block p))] ∧ t.regs = s.regs := by
  have taken : exec (.fullRecordRecv (.port p y)) s = .next (s.adoptPort p.val y) := by
    show execFullRecordRecv (.port p y) s = _
    rw [execFullRecordRecv, if_neg (by simp [follows])]
    exact congrArg _ (if_neg asked)
  refine ⟨_, taken, ?_⟩
  unfold State.adoptPort
  rw [free, Fin.ofNat_val_eq_self]
  have port (x : Port) (o : Out) : ((s.setPort p.val x).emit o).port p.val = x := s.port_setPort_self p.val x
  dsimp only [List.foldl_nil, State.modPort_eq]
  rw [port]
  exact ⟨rfl, rfl, rfl, rfl, rfl, rfl, rfl⟩

/-! ### Records in the shadow (R242, R246) -/

omit follows in
/-- The shadow holds the record: what `holdRecord` stages. -/
theorem State.holdRecord_holds (x : Rec) : ∃ y ∈ (s.holdRecord x).staging, y.same x = true ∧ y.body = x.body := by
  unfold State.holdRecord
  dsimp only [State.fresh, State.takeOrder]
  rw [(State.noteStaging_records _).1]
  refine ⟨_, List.mem_concat_self, ?_, rfl⟩
  simp [Rec.same]

omit follows

theorem State.followSession_staging (b : List Byte) : (s.followSession b).staging = s.staging := by
  unfold State.followSession
  split <;> rfl

/-- A record of an entry whose records are all held, with the entry's number (R450). -/
def Rec.numbered (x : Rec) (u : Nat) (y : Rec) : Rec :=
  if y.type = .almanac ∧ y.seq = x.seq ∧ y.base = x.base then { y with events := y.events ++ [u] } else y

theorem Rec.numbered_same (x : Rec) (u : Nat) (y z : Rec) : (x.numbered u y).same z = y.same z := by
  unfold Rec.numbered
  split <;> rfl

theorem Rec.numbered_body (x : Rec) (u : Nat) (y : Rec) : (x.numbered u y).body = y.body := by
  unfold Rec.numbered
  split <;> rfl

/-- Following an Almanac entry numbers its records, and no more of them. -/
theorem State.followEntry_staging (x : Rec) :
    (s.followEntry x).staging = s.staging ∨ (s.followEntry x).staging = s.staging.map (x.numbered s.nextUid) := by
  unfold State.followEntry
  split
  · exact .inl rfl
  · split
    · exact .inl rfl
    · right
      dsimp only [State.fresh]
      have told {t : State} (b : List Byte) (c : Prop) [Decidable c] (e : t.staging = s.staging.map (x.numbered s.nextUid)) :
          (if c then (t.followSession b).wr Reg.AL_STAT_MIRDIFF 1 else t.followSession b).staging =
            s.staging.map (x.numbered s.nextUid) := by
        rw [apply_ite State.staging, State.wr_staging, ite_self, State.followSession_staging, e]
      split <;> exact told _ _ rfl

theorem State.followCapture_staging (x : Rec) : (s.followCapture x).staging = s.staging := by
  unfold State.followCapture
  split
  · dsimp only
    split <;> rfl
  · rfl

include follows

/-- FULL_RECORD_RECV of a record (R246). -/
theorem exec_fullRecordRecv_record (x : Rec) : ∃ t o, exec (.fullRecordRecv (.record x)) s = .next t ∧
    (∃ y ∈ t.staging, y.same x = true ∧ y.body = x.body) ∧ t.out = o ++ [.hinge (.answer (.mark x.uid x.body.count))] := by
  have taken : exec (.fullRecordRecv (.record x)) s = .next ((((s.holdRecord x).followEntry x).followCapture x).emit
      (.hinge (.answer (.mark x.uid x.body.count)))) := by
    show execFullRecordRecv (.record x) s = _
    rw [execFullRecordRecv, if_neg (by simp [follows])]
  obtain ⟨y, mem, same, body⟩ := s.holdRecord_holds x
  refine ⟨_, _, taken, ?_, State.emit_out _ _⟩
  rw [State.emit_staging, State.followCapture_staging]
  obtain e | e := (s.holdRecord x).followEntry_staging x
  · exact ⟨y, e ▸ mem, same, body⟩
  · exact ⟨_, e ▸ List.mem_map_of_mem mem, (Rec.numbered_same ..).trans same, (Rec.numbered_body ..).trans body⟩

/-- RECORD_MARK_RECV asks for CAPTURE and ALMANAC records in full (R374, R457). -/
theorem exec_recordMarkRecv_asks (n : RingIx) {x : Rec} (full : x.wantsFull = true) :
    exec (.recordMarkRecv n x) s = .next { s with out := s.out ++ [.hinge (.answer (.record x.uid))] } := by
  show execRecordMarkRecv n x s = _
  rw [execRecordMarkRecv, if_neg (by simp [follows]), if_pos full]
  rfl

/-- RECORD_MARK_RECV of any other record (R246). -/
theorem exec_recordMarkRecv_holds (n : RingIx) {x : Rec} (marked : x.wantsFull = false) :
    ∃ t o, exec (.recordMarkRecv n x) s = .next t ∧
      (∃ y ∈ t.staging, y.same { x with ring := n.val } = true ∧ y.body = x.body) ∧
      t.out = o ++ [.hinge (.answer (.mark x.uid x.body.count))] := by
  have taken : exec (.recordMarkRecv n x) s = .next ((s.holdRecord { x with ring := n.val }).emit
      (.hinge (.answer (.mark x.uid x.body.count)))) := by
    show execRecordMarkRecv n x s = _
    rw [execRecordMarkRecv, if_neg (by simp [follows]), if_neg (by simp [marked])]
  exact ⟨_, _, taken, s.holdRecord_holds { x with ring := n.val }, State.emit_out _ _⟩

end Sys2Proof.Machine
end

section
namespace Sys2Proof.Machine

/-! ### What the primary is answered (R245, R246, R266) -/

variable {s : State}

/-- BLOCK_ACK_RECV of a frame with a CRC error. -/
theorem exec_blockAckRecv_spoiled (on : s.hingeOn = true) (up : s.hinge.up = true) :
    ∃ t, exec (.blockAckRecv .spoiled) s = .next t ∧
      t.rd Reg.HG_LINK_CRCERR = min (s.rd Reg.HG_LINK_CRCERR + 1) (2 ^ Reg.HG_LINK_CRCERR.width - 1) ∧
      t = { s with regs := t.regs } := by
  refine ⟨s.incSat Reg.HG_LINK_CRCERR, ?_, s.rd_incSat Reg.HG_LINK_CRCERR 0 (by decide), rfl⟩
  show execBlockAckRecv .spoiled s = _
  simp only [execBlockAckRecv, on, up, Bool.and_self, if_true]

variable (run : s.running = true) (mirrors : s.mirrors = true)
include run mirrors

theorem exec_blockAckRecv_block {p : PortIx} {b : List BlockEntry} {l : List (List BlockEntry)}
    (sent : (s.port p.val).sent = b :: l) : ∃ t, exec (.blockAckRecv (.block p)) s = .next t ∧
      t.port p.val = { s.port p.val with blockAck := (s.port p.val).blockAck + 1, sent := l } ∧
      t.staging = s.staging ∧ t.regs = s.regs := by
  refine ⟨s.setPort p.val { s.port p.val with blockAck := (s.port p.val).blockAck + 1, sent := l }, ?_,
    s.port_setPort_self _ _, rfl, rfl⟩
  show execBlockAckRecv (.block p) s = _
  simp only [execBlockAckRecv, run, mirrors, sent, List.isEmpty_cons, Bool.not_false, Bool.and_self, if_true, State.modPort_eq,
    List.drop_succ_cons, List.drop_zero]

theorem exec_blockAckRecv_request {p : PortIx} {b : List BlockEntry} {l : List (List BlockEntry)}
    (sent : (s.port p.val).sent = b :: l) : exec (.blockAckRecv (.request p)) s = .next { s with
      out := s.out ++ [.hinge (.full (.entries p b)), .hinge (.full (.port p (s.port p.val)))] } := by
  show execBlockAckRecv (.request p) s = _
  simp only [execBlockAckRecv, run, mirrors, State.sendTransfer, sent, State.emit, Bool.and_self, if_true, List.append_assoc,
    List.cons_append, List.nil_append]

theorem exec_blockAckRecv_mark (u k : Nat) : ∃ t, exec (.blockAckRecv (.mark u k)) s = .next t ∧
    (∀ x ∈ t.staging, x.uid = u → x.body.count = k → x.marked = false) ∧ t.staging.length = s.staging.length ∧
    t.ports = s.ports ∧ t.regs = s.regs := by
  refine ⟨{ s with staging := s.staging.map (fun x => if x.uid = u ∧ x.body.count = k then { x with marked := false } else x) },
    ?_, ?_, List.length_map _, rfl, rfl⟩
  · show execBlockAckRecv (.mark u k) s = _
    simp only [execBlockAckRecv, run, mirrors, Bool.and_self, if_true]
  · intro x mem uid count
    obtain ⟨y, -, rfl⟩ := List.mem_map.mp mem
    split at uid
    · rw [if_pos ‹_›]
    · rename_i other
      rw [if_neg other] at count
      exact absurd ⟨uid, count⟩ other

theorem exec_blockAckRecv_record {u : Nat} {x : Rec} (held : s.staging.find? (fun r => r.uid == u) = some x) :
    exec (.blockAckRecv (.record u)) s = .next { s with out := s.out ++ [.hinge (.full (.record x))] } := by
  show execBlockAckRecv (.record u) s = _
  simp only [execBlockAckRecv, run, mirrors, held, Bool.and_self, if_true]
  rfl

end Sys2Proof.Machine
end

section
namespace Sys2Proof.Machine

/-! ### The obligation of decisions that cross the Hinge -/

/-- Settles O39: each message of a decision, a transfer, a record or an answer by its own lemma. -/
theorem decisionsCrossTheHinge : Obligations.DecisionsCrossTheHinge := by
  unfold Obligations.DecisionsCrossTheHinge
  intro s p
  refine ⟨fun run mirrors => ⟨?_, exec_decisionBlockClose_empty s p⟩, fun follows none_ codes crc => ⟨fun u sh same =>
      exec_decisionBlockRecv_agrees follows none_ same, fun differs => exec_decisionBlockRecv_disagrees follows none_ differs,
      ?_⟩,
    fun follows asked => ⟨exec_decisionBlockRecv_waits follows asked, exec_fullRecordRecv_entries follows asked,
      fun y free => exec_fullRecordRecv_port follows asked free y⟩,
    fun x follows => exec_fullRecordRecv_record follows x,
    fun n x follows => ⟨exec_recordMarkRecv_asks follows n, exec_recordMarkRecv_holds follows n⟩,
    fun run mirrors => ⟨fun b l sent => ⟨exec_blockAckRecv_block run mirrors sent, exec_blockAckRecv_request run mirrors sent⟩,
      exec_blockAckRecv_mark run mirrors, fun u x => exec_blockAckRecv_record run mirrors⟩, exec_blockAckRecv_spoiled⟩
  · intro first rest b block entries
    obtain ⟨t, done, port, now, out, regs⟩ := exec_decisionBlockClose s p run mirrors block entries
    exact ⟨t, done, congrArg Port.block port, congrArg Port.blockNo port, congrArg Port.sent port, now, out, regs⟩
  · rintro e rest c free own rfl
    exact State.rebuild_one free own c crc

end Sys2Proof.Machine
end

section
namespace Sys2Proof.Machine

/-! ### Pins that change owners leave the pair alone (R102, R131, R172)

Nor does it touch the Hinge when a member gives up its ports and rings (R239). -/

namespace LeavesPair

variable {r s t : State} (h : LeavesPair r s)
include h

/-! #### A transmitter that stops or starts -/

theorem emitFrame (p : Nat) (cut : Option Stamp) : LeavesPair r (s.emitFrame p cut) := by
  unfold State.emitFrame
  split
  · exact h
  · exact h.foldl (fun _ _ k => k.emit _) _

theorem endJob (p status cause : Nat) : LeavesPair r (s.endJob p status cause) := by
  unfold State.endJob
  split
  · exact h
  · split
    · exact (h.txDone ..).modPort p _
    · split
      rename_i x _ u t recorded
      have told : LeavesPair r t := of_snd recorded (h.cueRecord ..)
      exact ((ite told (told.rewait ..)).modPort p _).settle

theorem endQueue (p status : Nat) : LeavesPair r (s.endQueue p status) :=
  (h.modPort p _).foldl (fun _ _ k => k.txDone ..) _

theorem countDropped (p n : Nat) : LeavesPair r (s.countDropped p n) := ite h (h.countPort ..)

theorem dropReplies (p : Nat) : LeavesPair r (s.dropReplies p) := by
  unfold State.dropReplies
  exact ((h.foldl (fun _ _ k => k.rewait ..) _).modPort p _).countDropped ..

theorem stopTx (p status : Nat) (into : TxState) : LeavesPair r (s.stopTx p status into) := by
  unfold State.stopTx
  exact (((((h.emitFrame ..).modPort p _).endJob ..).endQueue ..).dropReplies p).modPort p _

theorem startTx (p : Nat) : LeavesPair r (s.startTx p) := by
  unfold State.startTx
  exact h.modPort p _

/-! #### A receiver that stops or starts -/

theorem dropProv (p : Nat) : LeavesPair r (s.dropProv p) := h.of_same rfl rfl rfl rfl

theorem endAcquisition (p reason : Nat) (base : Stamp) : LeavesPair r (s.endAcquisition p reason base) := by
  unfold State.endAcquisition
  split
  · exact h
  · exact ite (h.modPort p _) ((((ite (h.emit _) h).modPort p _).dropProv p).settleEnd ..)

theorem stopRx (p : Nat) (into : RxState) : LeavesPair r (s.stopRx p into) :=
  ((h.endAcquisition ..).modPort p _).setRts p

theorem startRx (p : Nat) : LeavesPair r (s.startRx p) :=
  have begun := (h.modPort p _).modPin (rxPin p) fun q => { q with fresh := 0, isOver := false, lost := 0 }
  setRts (ite begun (begun.modPort p _)) p

/-! #### Other functions of a pin -/

theorem srcLevel (n : Nat) (b : Bool) (stamp : Stamp) : LeavesPair r (s.srcLevel n b stamp) := by
  obtain ⟨x, e⟩ := s.srcLevel_eq n b stamp
  rw [e]
  exact h.of_same rfl rfl rfl rfl

theorem stationInput (st : Nat) (level : Bool) (stamp : Stamp) : LeavesPair r (s.stationInput st level stamp) := by
  have noted := h.modPin (4 * st + 3) fun x => { x with srcIn := level }
  exact ite (noted.srcLevel ..) (ite ((noted.setSrc ..).srcEvent ..) (noted.setSrc ..))

theorem gainInput (q : Nat) : LeavesPair r (s.gainInput q) := by
  unfold State.gainInput
  split
  · split
    · exact ite (h.stationInput ..) h
    · exact h
  · exact h

theorem setCu (i : Nat) (u : Cu) : LeavesPair r (s.setCu i u) := h.of_same rfl rfl rfl rfl

theorem cuGains (q : Nat) : LeavesPair r (s.cuGains q) := h.setCu ..

/-! #### The owner of a pin -/

theorem loseFunction (q : Nat) : LeavesPair r (s.loseFunction q) := by
  unfold State.loseFunction
  split
  · exact ite (h.stopTx ..) (ite (h.stopTx ..) h)
  · exact ite (h.stopRx ..) h
  · exact h

theorem gainFunction (q : Nat) : LeavesPair r (s.gainFunction q) := by
  unfold State.gainFunction
  split
  · exact h.startTx _
  · exact h.startRx _
  · exact h.gainInput q
  · exact h.cuGains q
  · exact h

theorem switchPin (q : Nat) (new : Owner) : LeavesPair r (s.switchPin q new) := ((h.loseFunction q).modPin q _).gainFunction q

theorem resolvePin (q : Nat) : LeavesPair r (s.resolvePin q) := by
  unfold State.resolvePin
  extract_lets new x settled starved
  have owned : LeavesPair r settled := ite (ite (h.setPin ..) h) (ite (h.setPin ..) (h.switchPin ..))
  have noted : LeavesPair r starved := ite (owned.modPort ..) owned
  exact ite h (ite (noted.modPort ..) noted)

theorem resolve (st : Nat) : LeavesPair r (s.resolve st) := h.foldl (fun _ _ k => k.resolvePin _) _

/-! #### The ends of a pair -/

theorem wrAll (f : Fld) (x : Nat) (l : List Nat) (apart : f.word < 4096 ∧ ¬ hgWord f.word := by decide) :
    LeavesPair r (l.foldl (fun s i => s.wr f x i) s) := h.foldl (fun _ _ k => k.wr f x _ apart) l

theorem frescoAlone : LeavesPair r s.frescoAlone := by
  have told : LeavesPair r { s with tb := { s.tb with frWaits := false } } := h.of_same rfl rfl rfl rfl
  exact ite (told.wr ..) h

theorem pairEnds : LeavesPair r s.pairEnds := by
  have cleared : LeavesPair r { s with tb := { s.tb with pairEdges := 0, pairSum := 0, pairWindows := [] } } :=
    h.of_same rfl rfl rfl rfl
  exact (cleared.wr Reg.TB_PAIROFS_VALID 0 0).frescoAlone

theorem resumeAlmanac : LeavesPair r s.resumeAlmanac := by
  have restored : LeavesPair r { s with almanac := s.almanac.restore } := h.of_same rfl rfl rfl rfl
  exact ite h (restored.pairEntry ..)

theorem unpair : LeavesPair r s.unpair := h.of_same rfl rfl rfl rfl

end LeavesPair

namespace LeavesHinge

theorem refl (s : State) : LeavesHinge s s := ⟨rfl, rfl, fun _ _ => rfl⟩

variable {r s t : State} (h : LeavesHinge r s)
include h

theorem of_pair (k : LeavesPair s t) : LeavesHinge r t := h.trans k.toLeavesHinge

theorem forget (us : List Nat) : LeavesHinge r (s.forget us) := h.trans (of_same rfl rfl rfl)

theorem monitorsOff : LeavesHinge r s.monitorsOff := h.trans (of_same rfl rfl rfl)

theorem ringsOff : LeavesHinge r s.ringsOff := by
  unfold State.ringsOff
  extract_lets disabled cleared
  have off : LeavesHinge r disabled := h.of_pair ((LeavesPair.refl s).wrAll Reg.RG_CFG_EN 0 _)
  have states : LeavesHinge r cleared := by
    refine List.foldlRecOn ringStateWords _ off fun t k w mem => ?_
    have apart : w < 4096 ∧ ¬ hgWord w := by
      revert w
      decide
    exact k.foldl (fun s n => setReg s n w _ apart) _
  clear_value cleared
  exact states.trans (of_same rfl rfl rfl)

/-- A member that gives up its ports and rings keeps the Hinge as it is. -/
theorem yieldMember : LeavesHinge r s.yieldMember := by
  unfold State.yieldMember
  extract_lets sessions rx tx cues forgotten dropped off pins stations
  have ended : LeavesPair s sessions := (LeavesPair.refl s).foldl (fun _ _ k => k.sessionEntry ..) _
  have disabled : LeavesPair s cues :=
    ((ended.wrAll Reg.PT_RXCFG_EN 0 _).wrAll Reg.PT_TXCFG_EN 0 _).wrAll Reg.CQ_CTL_EN 0 _
  have forgot : LeavesHinge r forgotten := (h.of_pair disabled).forget _
  clear_value forgotten
  have given : LeavesHinge r dropped := forgot.trans (of_same rfl rfl rfl)
  have silent : LeavesHinge r off := given.ringsOff.monitorsOff.of_pair (LeavesPair.refl _).settle
  clear_value off
  have undriven : LeavesHinge r pins := silent.trans (of_same rfl rfl rfl)
  have resolved : LeavesPair pins (stations.foldl State.resolve pins) :=
    (LeavesPair.refl pins).foldl (fun _ _ k => k.resolve _) stations
  exact undriven.of_pair ((resolved.wr Reg.TB_PAIROFS_VALID 0 0).wr Reg.PW_RSTSTAT_LAST 11 0)

end LeavesHinge

end Sys2Proof.Machine
end

section
namespace Sys2Proof.Machine

/-! ### The Hinge goes down (R239, R253) -/

/-- From the edge of `s` on `t` is without the Hinge, which HG_STAT shows, and the pair stands at `x`. -/
structure HingeLost (s : State) (x : PairState) (t : State) : Prop where
  now : t.now = s.now
  up : t.hinge.up = false
  retrainAt : t.hinge.retrainAt = none
  state : t.hinge.state = x
  told : t.on Reg.HG_STAT_EV_DOWN = true

namespace HingeLost

variable {s t u : State} {x : PairState} (h : HingeLost s x t)
include h

theorem leaves (k : LeavesHinge t u) : HingeLost s x u := by
  refine ⟨k.now.trans h.now, ?_, ?_, ?_, (k.on Reg.HG_STAT_EV_DOWN (by decide)).trans h.told⟩ <;> rw [k.hinge]
  · exact h.up
  · exact h.retrainAt
  · exact h.state

theorem setPair (y : PairState) : HingeLost s y (t.setPair y) := ⟨h.now, h.up, h.retrainAt, rfl, h.told⟩

theorem engageFails (code : Nat) : HingeLost s x (t.engageFails code) := by
  have noted : HingeLost s x (t.wr Reg.HG_STAT_ENGFAIL code) := by
    refine ⟨h.now, h.up, h.retrainAt, h.state, ?_⟩
    rw [State.on, State.rd_wr_apart t Reg.HG_STAT_EV_DOWN Reg.HG_STAT_ENGFAIL code 0 0 rfl (by decide) (by decide)]
    exact h.told
  exact noted.leaves ((LeavesPair.refl _).raiseEvent ..).toLeavesHinge

theorem abandonEngage (code : Nat) : HingeLost s .disengaged (t.abandonEngage code) := by
  have failed := (h.setPair .disengaged).engageFails code
  unfold State.abandonEngage
  generalize (t.setPair .disengaged).engageFails code = u at failed ⊢
  have dropped : HingeLost s .disengaged { u with hinge := { u.hinge with alImage := none } } :=
    ⟨failed.now, failed.up, failed.retrainAt, failed.state, failed.told⟩
  dsimp only
  split
  · exact dropped.leaves (LeavesHinge.refl _).yieldMember
  · exact dropped.leaves (LeavesPair.refl _).unpair.toLeavesHinge

end HingeLost

variable (s : State)

/-- A mirrored write that fails is all that is forgotten. -/
theorem State.mirrorFails_hinge : s.mirrorFails.now = s.now ∧
    s.mirrorFails.hinge = { s.hinge with mirrorLate := none, mirror := none } := by
  unfold State.mirrorFails
  dsimp only
  split
  · rename_i idle
    exact ⟨rfl, by rw [← idle]⟩
  · rename_i m _
    obtain ⟨x, r, e⟩ := State.respond_eq { s with hinge := { s.hinge with mirrorLate := none, mirror := none } } m.head
      Code.mirror 0 [] 0
    rw [e]
    exact ⟨rfl, rfl⟩

/-- Where a pair stands when its Hinge goes down (R253). -/
def PairState.withoutHinge : PairState → PairState
  | .engaged => .degraded
  | .engaging => .disengaged
  | x => x

theorem HingeLost.degrades {s : State} {x : PairState} {t : State} (h : HingeLost s x.withoutHinge t) (e : x = .engaged) :
    t.hinge.state = .degraded := by
  rw [h.state, e]
  rfl

theorem HingeLost.disengages {s : State} {x : PairState} {t : State} (h : HingeLost s x.withoutHinge t) (e : x = .engaging) :
    t.hinge.state = .disengaged := by
  rw [h.state, e]
  rfl

theorem State.hingeDown_lost : HingeLost s s.hinge.state.withoutHinge s.hingeDown := by
  obtain ⟨now, hinge⟩ := s.mirrorFails_hinge
  unfold State.hingeDown
  extract_lets failed counted peer hinge' u
  have kept : failed.hinge.state = s.hinge.state := hinge ▸ rfl
  have state : u.hinge.state = s.hinge.state := kept
  have down : HingeLost s s.hinge.state u :=
    ⟨now, rfl, rfl, state, congrArg (· == 1) (State.rd_wr_self _ Reg.HG_STAT_EV_DOWN 1 0 (by decide))⟩
  rw [← state] at down ⊢
  clear_value u
  split
  case _ at_ =>
    have degraded := (down.leaves (LeavesPair.refl u).pairEnds.toLeavesHinge).setPair .degraded
    rw [at_]
    have parts : HingeLost s .degraded (if (u.pairEnds.setPair .degraded).isShadow then u.pairEnds.setPair .degraded
        else (u.pairEnds.setPair .degraded).unpair) := by
      split
      · exact degraded
      · exact degraded.leaves (LeavesPair.refl _).unpair.toLeavesHinge
    exact parts.leaves ((LeavesPair.refl _).raiseEvent ..).toLeavesHinge
  case _ at_ =>
    rw [at_]
    exact down.abandonEngage 1
  case _ other engaging =>
    have same : u.hinge.state.withoutHinge = u.hinge.state := by
      cases e : u.hinge.state with
      | engaged => exact absurd e other
      | engaging => exact absurd e engaging
      | _ => rfl
    rw [same]
    exact down

end Sys2Proof.Machine
end

section
namespace Sys2Proof.Machine

/-! ### Heartbeats and lanes (R238, R239) -/

variable {s : State}

/-- Member and pair part from `s` when the peer has left (log entry 38). -/
theorem State.disengage_disengaged (paired : s.hinge.state = .engaged ∨ s.hinge.state = .degraded ∨ s.hinge.state = .released) :
    s.disengage.now = s.now ∧ s.disengage.hinge = { s.hinge with state := .disengaged } := by
  have ends : LeavesHinge s s.pairEnds := (LeavesPair.refl s).pairEnds.toLeavesHinge
  unfold State.disengage
  generalize s.pairEnds = u at ends ⊢
  have leaves {t : State} (k : LeavesHinge (u.setPair .disengaged) t) :
      t.now = s.now ∧ t.hinge = { s.hinge with state := .disengaged } := by
    refine ⟨k.now.trans ends.now, k.hinge.trans ?_⟩
    rw [← ends.hinge]
    rfl
  have parts : LeavesHinge (u.setPair .disengaged) (u.setPair .disengaged).yieldMember := (LeavesHinge.refl _).yieldMember
  have members : LeavesHinge (u.setPair .disengaged) (if (u.setPair .disengaged).isShadow then
      (u.setPair .disengaged).yieldMember.resumeAlmanac else (u.setPair .disengaged).unpair) := by
    split
    · exact parts.of_pair (LeavesPair.refl _).resumeAlmanac
    · exact (LeavesPair.refl _).unpair.toLeavesHinge
  dsimp only
  rw [ends.hinge]
  obtain e | e | e := paired <;> rw [e]
  · exact leaves members
  · exact leaves members
  · exact leaves parts

section
variable (on : s.hingeOn = true) (up : s.hinge.up = true)
include on up

theorem exec_heartbeatSend : ∃ t, exec .heartbeatSend s = .next t ∧ t.now = max s.now (s.hinge.lastSent + 1600) ∧
    t.hinge = { s.hinge with lastSent := t.now } ∧ t.regs = s.regs ∧
    t.out = s.out ++ [.hinge (.heartbeat s.hinge.state s.role t.c (s.on Reg.TB_STAT_EPOCH_VALID) s.anyEnabled
      (if s.chain.assigned then some s.chain.pos else none))] := by
  obtain ⟨x, e⟩ := s.advance_eq (s.hinge.lastSent + 1600)
  have sent : exec .heartbeatSend s = .next (({ s with
      now := max s.now (s.hinge.lastSent + 1600), c := x,
      hinge := { s.hinge with lastSent := max s.now (s.hinge.lastSent + 1600) } } : State).emit
        (.hinge (.heartbeat s.hinge.state s.role x (s.on Reg.TB_STAT_EPOCH_VALID) s.anyEnabled
          (if s.chain.assigned then some s.chain.pos else none)))) := by
    show execHeartbeatSend s = _
    rw [execHeartbeatSend, if_pos (by rw [on, up]; rfl), e]
    rfl
  exact ⟨_, sent, rfl, rfl, rfl, rfl⟩

/-- A heartbeat from the peer has been noted (R238). -/
def State.heard (s : State) (peer : Peer) : State := { s with hinge := { s.hinge with lastRecv := s.now, peer := peer } }

theorem exec_heartbeatRecv (st : PairState) (role : Role) (c : Stamp) (epoch busy : Bool) (pos : Option (BitVec 6)) :
    ∃ t, exec (.heartbeatRecv st role c epoch busy pos) s = .next t ∧
      t.hinge.lastRecv = s.now ∧ t.hinge.peer = ⟨st, role, epoch, busy, pos, c - s.c⟩ ∧
      (st = .disengaged → s.hinge.peer.state ≠ .disengaged → s.hinge.peer.state ≠ .solo →
        s.hinge.state = .engaged ∨ s.hinge.state = .degraded ∨ s.hinge.state = .released → t.hinge.state = .disengaged) ∧
      (st ≠ .disengaged ∨ s.hinge.peer.state = .disengaged ∨ s.hinge.peer.state = .solo →
        t = { s with hinge := t.hinge } ∧ t.hinge.state = s.hinge.state) := by
  have heard : exec (.heartbeatRecv st role c epoch busy pos) s = .next
      (if st = .disengaged ∧ s.hinge.peer.state ≠ .disengaged ∧ s.hinge.peer.state ≠ .solo ∧
          (s.hinge.state = .engaged ∨ s.hinge.state = .degraded ∨ s.hinge.state = .released)
        then (s.heard ⟨st, role, epoch, busy, pos, c - s.c⟩).disengage else s.heard ⟨st, role, epoch, busy, pos, c - s.c⟩) := by
    show execHeartbeatRecv st role c epoch busy pos s = _
    rw [execHeartbeatRecv, if_pos (by rw [on, up]; rfl)]
    rfl
  refine ⟨_, heard, ?_⟩
  split
  case isTrue left =>
    obtain ⟨gone, stayed, alone, paired⟩ := left
    have hinge := (State.disengage_disengaged (s := s.heard ⟨st, role, epoch, busy, pos, c - s.c⟩) paired).2
    refine ⟨by rw [hinge]; rfl, by rw [hinge]; rfl, fun _ _ _ _ => by rw [hinge], fun stays => ?_⟩
    obtain e | e | e := stays
    · exact absurd gone e
    · exact absurd e stayed
    · exact absurd e alone
  case isFalse stays =>
    exact ⟨rfl, rfl, fun gone stayed alone paired => absurd ⟨gone, stayed, alone, paired⟩ stays, fun _ => ⟨rfl, rfl⟩⟩

theorem exec_hingeRetraining : ∃ t, exec .hingeRetraining s = .next t ∧
    t.hinge = { s.hinge with up := false, retrainAt := some s.now } ∧
    t.rd Reg.HG_LINK_RETRAIN = min (s.rd Reg.HG_LINK_RETRAIN + 1) (2 ^ Reg.HG_LINK_RETRAIN.width - 1) := by
  have retrains : exec .hingeRetraining s = .next { (s.takeFree.2.incSat Reg.HG_LINK_RETRAIN).wr Reg.HG_LINK_LANES
      (s.takeFree.1.toNat % 256) with hinge := { s.hinge with up := false, retrainAt := some s.now } } := by
    show execHingeRetraining s = _
    rw [execHingeRetraining, if_pos (by rw [on, up]; rfl)]
    rfl
  refine ⟨_, retrains, rfl, ?_⟩
  rw [State.rd_setHinge, State.rd_wr_apart _ Reg.HG_LINK_RETRAIN Reg.HG_LINK_LANES _ _ _ rfl (by decide) (by decide)]
  exact State.rd_incSat _ Reg.HG_LINK_RETRAIN 0 (by decide)

end

theorem exec_heartbeatTimeout (on : s.hingeOn = true) (waits : s.hinge.up = true ∨ s.hinge.retrainAt.isSome = true) :
    ∃ t, exec .heartbeatTimeout s = .next t ∧
      HingeLost (s.advance (s.hinge.lastRecv + 1600 * s.rd Reg.HG_CFG_HBTO)) s.hinge.state.withoutHinge t := by
  have down := (s.advance (s.hinge.lastRecv + 1600 * s.rd Reg.HG_CFG_HBTO)).hingeDown_lost
  rw [State.advance_hinge] at down
  refine ⟨_, ?_, down⟩
  show execHeartbeatTimeout s = _
  rw [execHeartbeatTimeout, if_pos]
  rw [on, Bool.true_and, Bool.or_eq_true]
  exact waits

theorem exec_hingeRetrainTimeout (run : s.running = true) {n : Nat} (retrains : s.hinge.retrainAt = some n) :
    ∃ t, exec .hingeRetrainTimeout s = .next t ∧ HingeLost (s.advance (n + 3200)) s.hinge.state.withoutHinge t := by
  have down := State.hingeDown_lost { s.advance (n + 3200) with hinge := { (s.advance (n + 3200)).hinge with retrainAt := none } }
  rw [State.advance_hinge] at down
  refine ⟨_, ?_, ⟨down.now, down.up, down.retrainAt, down.state, down.told⟩⟩
  show execHingeRetrainTimeout s = _
  simp only [execHingeRetrainTimeout, run, retrains, Bool.not_true, Bool.false_eq_true, if_false, State.advance_hinge]

theorem exec_hingeUp (on : s.hingeOn = true) (down : s.hinge.up = false) : ∃ t, exec .hingeUp s = .next t ∧
    t.hinge.up = true ∧ t.hinge.retrainAt = none ∧ t.rd Reg.HG_LINK_LANES = 0xFF := by
  have ups : exec .hingeUp s = .next (({ s with hinge := { s.hinge with
      up := true, retrainAt := none, lastRecv := if s.hinge.retrainAt.isSome then s.hinge.lastRecv else s.now } } :
      State).wr Reg.HG_LINK_LANES 0xFF) := by
    show execHingeUp s = _
    rw [execHingeUp, if_pos (by rw [on, down]; rfl)]
  exact ⟨_, ups, rfl, rfl, State.rd_wr_self _ Reg.HG_LINK_LANES 0xFF 0 (by decide)⟩

/-- Settles O36: a heartbeat, a timeout or a lane by its own lemma; the Hinge going down by `HingeLost`. -/
theorem hingeFollowsItsHeartbeats : Obligations.HingeFollowsItsHeartbeats := by
  unfold Obligations.HingeFollowsItsHeartbeats
  intro s
  refine ⟨fun on up => ⟨exec_heartbeatSend on up, exec_heartbeatRecv on up, exec_hingeRetraining on up⟩, ?_, ?_, exec_hingeUp⟩
  · intro on waits
    obtain ⟨t, timedOut, lost⟩ := exec_heartbeatTimeout on waits
    exact ⟨t, timedOut, lost.now.trans (s.advance_now _), lost.up, lost.told, fun e => lost.degrades e,
      fun e => lost.disengages e⟩
  · intro n run retrains
    obtain ⟨t, timedOut, lost⟩ := exec_hingeRetrainTimeout run retrains
    exact ⟨t, timedOut, lost.now.trans (s.advance_now _), lost.up, lost.retrainAt, fun e => lost.degrades e⟩

end Sys2Proof.Machine
end

section
namespace Sys2Proof.Machine

/-! ### Seeking, holding and losing a claim (R254 to R257) -/

/-- What a map does to each value of a sparse list it does to what is read there, when it keeps the default. -/
theorem Sparse.get_map {α : Type} (d : Nat → α) (f : α → α) (m : Sparse α) (k : Nat) (h : f (d k) = d k) :
    Sparse.get d (m.map fun x => (x.1, f x.2)) k = f (Sparse.get d m k) := by
  induction m with
  | nil => exact h.symm
  | cons x m ih =>
    rw [List.map_cons, Sparse.get, Sparse.get, ih]
    split <;> rfl

/-- A value other than the default stands in the list. -/
theorem Sparse.mem_of_get {α : Type} (d : Nat → α) (m : Sparse α) (k : Nat) (h : Sparse.get d m k ≠ d k) :
    (k, Sparse.get d m k) ∈ m := by
  induction m with
  | nil => exact absurd rfl h
  | cons x m ih =>
    rw [Sparse.get] at h ⊢
    split
    case isTrue e =>
      subst e
      exact List.mem_cons_self
    case isFalse e =>
      rw [if_neg e] at h
      exact List.mem_cons_of_mem _ (ih h)

variable {s : State}

theorem State.mayTake_advance (n : Nat) : (s.advance n).mayTake = s.mayTake := by
  obtain ⟨x, e⟩ := s.advance_eq n
  rw [e]
  rfl

theorem State.clocked_of_running (run : s.running = true) : s.clocked = true := by
  rw [State.running, Bool.and_eq_true, Bool.and_eq_true] at run
  exact run.1.1

section
variable (run : s.running = true)
include run

theorem exec_reliReleased (free : s.hinge.claim = false) (first : s.hinge.firstRel = none) :
    exec .reliReleased s = .next { s with hinge := { s.hinge with reli := true, firstRel := some (s.now, s.stamp) } } := by
  show execReliReleased s = _
  simp only [execReliReleased, State.clocked_of_running run, free, first, Bool.not_true, Bool.false_eq_true, if_false,
    Option.none_or]

theorem exec_claimHeld {n : Nat} {u : Stamp} (first : s.hinge.firstRel = some (n, u)) (reli : s.hinge.reli = true)
    (relo : s.hinge.relo = true) (free : s.hinge.claim = false) (may : s.eligible = true) (off : s.hinge.offAt = none) :
    ∃ t, exec .claimHeld s = .next t ∧ t.now = max s.now (n + 192) ∧
      t.hinge = { s.hinge with claim := true, drivers := 0 } ∧ t.regs = s.regs := by
  have held : exec .claimHeld s = .next { s.advance (n + 192) with
      hinge := { (s.advance (n + 192)).hinge with claim := true, drivers := 0 } } := by
    show execClaimHeld s = _
    simp only [execClaimHeld, run, first, reli, relo, free, may, off, Bool.not_true, Bool.not_false, Bool.false_eq_true,
      if_false, Bool.and_self, Option.isNone_none, if_true]
  refine ⟨_, held, s.advance_now _, ?_, s.advance_regs _⟩
  rw [s.advance_hinge]

theorem exec_claimRetry {n : Nat} {u : Stamp} (first : s.hinge.firstRel = some (n, u)) (blocked : s.hinge.blocked = true)
    (reli : s.hinge.reli = true) : ∃ t, exec .claimRetry s = .next t ∧ t.now = max s.now (n + 1600 + 128 * s.chain.pos.toNat) ∧
      t.hinge = { s.hinge with blocked := false, firstRel := some (t.now, t.stamp) } ∧ t.regs = s.regs := by
  obtain ⟨x, e⟩ := s.advance_eq (n + 1600 + 128 * s.chain.pos.toNat)
  refine ⟨{ s.advance (n + 1600 + 128 * s.chain.pos.toNat) with hinge := { (s.advance (n + 1600 + 128 * s.chain.pos.toNat)).hinge
    with blocked := false, firstRel := some ((s.advance (n + 1600 + 128 * s.chain.pos.toNat)).now,
      (s.advance (n + 1600 + 128 * s.chain.pos.toNat)).stamp) } }, ?_, s.advance_now _, ?_, s.advance_regs _⟩
  · show execClaimRetry s = _
    simp only [execClaimRetry, run, first, blocked, reli, Bool.not_true, Bool.or_self, Bool.false_eq_true, if_false]
  · rw [e]
    rfl

theorem exec_claimBlocked {n : Nat} {u : Stamp} (first : s.hinge.firstRel = some (n, u)) (past : s.pastV = true)
    (free : s.hinge.claim = false) (may : s.eligible = true) :
    ∃ t, exec .claimBlocked s = .next t ∧ t.hinge.reli = false ∧ t.hinge.relo = false ∧ t.hinge.blocked = true ∧
      t.hinge.firstRel = none ∧ t.on Reg.HG_STAT_EV_BLOCK = true ∧ t.now = s.now := by
  have blocked : ∃ u : State, u.hinge = { s.hinge with reli := false, firstRel := none, relo := false, blocked := true } ∧
      u.now = s.now ∧ exec .claimBlocked s = .next ((u.wr Reg.HG_STAT_EV_BLOCK 1).raiseEvent 279 s.chain.pos.toNat) := by
    refine ⟨{ s with hinge := { s.hinge with reli := false, firstRel := none, relo := false, blocked := true } }, rfl, rfl, ?_⟩
    show execClaimBlocked s = _
    simp only [execClaimBlocked, State.clocked_of_running run, past, first, free, may, Bool.not_true, Bool.not_false,
      Bool.false_eq_true, if_false, Option.isSome_some, Bool.and_self, if_true]
  obtain ⟨u, hinge, now, done⟩ := blocked
  have told := ((LeavesPair.refl (u.wr Reg.HG_STAT_EV_BLOCK 1)).raiseEvent 279 s.chain.pos.toNat none).toLeavesHinge
  have after := told.hinge.trans hinge
  refine ⟨_, done, ?_, ?_, ?_, ?_, ?_, told.now.trans now⟩
  · rw [after]
  · rw [after]
  · rw [after]
  · rw [after]
  · rw [told.on Reg.HG_STAT_EV_BLOCK (by decide), State.on, State.rd_wr_self _ Reg.HG_STAT_EV_BLOCK 1 0 (by decide)]
    rfl

end

/-- The member whose seek from edge `n` on has qualified: HG_RELO holds (R255). -/
def State.qualified (s : State) (n : Nat) : State := { s.advance (n + 64) with hinge := { s.hinge with relo := true } }

theorem exec_claimQualify {n : Nat} {u : Stamp} (first : s.hinge.firstRel = some (n, u)) (past : s.pastV = true)
    (reli : s.hinge.reli = true) (relo : s.hinge.relo = false) (free : s.hinge.claim = false) (open_ : s.hinge.blocked = false)
    (may : s.eligible = true ∨ s.mayTake = true) :
    exec .claimQualify s = .next (if s.mayTake then (s.qualified n).takeover n u else s.qualified n) := by
  have seeks : (s.eligible || s.mayTake) = true := Bool.or_eq_true _ _ ▸ may
  show execClaimQualify s = _
  simp only [execClaimQualify, first, past, reli, relo, free, open_, seeks, Bool.not_true, Bool.or_self, Bool.false_eq_true,
    if_false, s.mayTake_advance, s.advance_hinge, State.qualified]

theorem exec_claimQualify_eligible {n : Nat} {u : Stamp} (first : s.hinge.firstRel = some (n, u)) (past : s.pastV = true)
    (reli : s.hinge.reli = true) (relo : s.hinge.relo = false) (free : s.hinge.claim = false) (open_ : s.hinge.blocked = false)
    (may : s.eligible = true) (stays : s.mayTake = false) :
    ∃ t, exec .claimQualify s = .next t ∧ t.now = max s.now (n + 64) ∧ t.hinge = { s.hinge with relo := true } ∧
      t.regs = s.regs := by
  refine ⟨_, exec_claimQualify first past reli relo free open_ (.inl may), ?_⟩
  rw [if_neg (by simp [stays])]
  exact ⟨s.advance_now _, rfl, s.advance_regs _⟩

theorem exec_reloRelease {n : Nat} (off : s.hinge.offAt = some n) : ∃ t, exec .reloRelease s = .next t ∧
    t.now = max s.now (n + 64) ∧ t.hinge = { s.hinge with relo := false, offAt := none } ∧ t.regs = s.regs := by
  have released : exec .reloRelease s = .next { s.advance (n + 64) with
      hinge := { (s.advance (n + 64)).hinge with relo := false, offAt := none } } := by
    show execReloRelease s = _
    simp only [execReloRelease, off]
  refine ⟨_, released, s.advance_now _, ?_, s.advance_regs _⟩
  rw [s.advance_hinge]

/-! ### VST_P falls (R259) -/

/-- A pad that drove keeps its level when the drivers turn off. -/
def Pin.undriven (x : Pin) : Pin := if x.pad = .drive then { x with pad := .keep } else x

/-- A pad that was held for its octant is held no more. -/
def Pin.unheld (x : Pin) : Pin := if x.pad = .hold then { x with pad := .keep } else x

theorem Pin.undriven_pad (x : Pin) : x.undriven.pad ≠ .drive := by
  unfold Pin.undriven
  split
  · exact nofun
  · assumption

theorem Pin.unheld_pad (x : Pin) : x.unheld.pad ≠ .hold := by
  unfold Pin.unheld
  split
  · exact nofun
  · assumption

theorem Pin.unheld_drive {x : Pin} (h : x.pad ≠ .drive) : x.unheld.pad ≠ .drive := by
  unfold Pin.unheld
  split
  · exact nofun
  · exact h

theorem State.driversOff_claim : s.driversOff.hinge.claim = false ∧ s.driversOff.regs = s.regs := by
  unfold State.driversOff
  dsimp only
  split
  case isTrue off =>
    rw [Bool.and_eq_true, Bool.not_eq_true', Bool.not_eq_true'] at off
    exact ⟨off.1, rfl⟩
  case isFalse => exact ⟨rfl, rfl⟩

/-- With the claim every driver turns off. -/
theorem State.driversOff_pad (claim : s.hinge.claim = true) (q : Nat) : (s.driversOff.pin q).pad ≠ .drive := by
  have pins : s.driversOff.pins = s.pins.map fun x => (x.1, x.2.undriven) := by
    unfold State.driversOff
    dsimp only
    rw [if_neg (by simp [claim])]
    refine List.map_congr_left fun x _ => ?_
    unfold Pin.undriven
    split <;> rfl
  rw [State.pin, pins, Sparse.get_map _ Pin.undriven _ _ rfl]
  exact Pin.undriven_pad _

theorem exec_vstPFall : ∃ t, exec .vstPFall s = .next t ∧ t.hinge.relo = false ∧ t.hinge.claim = false ∧ t.hinge.offAt = none ∧
    (∀ q, (t.pin q).pad ≠ .hold) ∧ (s.hinge.claim = true → ∀ q, (t.pin q).pad ≠ .drive) ∧ t.regs = s.regs := by
  obtain ⟨claim, regs⟩ := s.driversOff_claim
  have pins : (s.driversOff.pins.map fun (q, (x : Pin)) => if x.pad = .hold then (q, { x with pad := .keep }) else (q, x)) =
      s.driversOff.pins.map fun x => (x.1, x.2.unheld) := by
    refine List.map_congr_left fun ⟨q, x⟩ _ => ?_
    dsimp only [Pin.unheld]
    split <;> rfl
  have fallen : exec .vstPFall s = .next { s.driversOff with
      hinge := { s.driversOff.hinge with relo := false, offAt := none, firstRel := none },
      pins := s.driversOff.pins.map fun x => (x.1, x.2.unheld) } := by
    rw [← pins]
    rfl
  have pad (q : Nat) : Sparse.get (fun _ => {}) (s.driversOff.pins.map fun x => (x.1, x.2.unheld)) q =
      (s.driversOff.pin q).unheld := Sparse.get_map _ Pin.unheld _ _ rfl
  refine ⟨_, fallen, rfl, claim, rfl, fun q => ?_, fun had q => ?_, regs⟩ <;> rw [State.pin, pad]
  · exact Pin.unheld_pad _
  · exact Pin.unheld_drive (s.driversOff_pad had q)

end Sys2Proof.Machine
end

section
namespace Sys2Proof.Machine

/-! ### The drivers of an octant turn on (R257, R260) -/

variable {r s t : State}

/-- What drives a pad comes from its owner, the ports and the registers. -/
theorem State.ownerLevel_congr (q : Nat) (owner : (t.pin q).owner = (s.pin q).owner) (ports : t.ports = s.ports)
    (regs : t.regs = s.regs) : t.ownerLevel q = s.ownerLevel q := by
  simp only [State.ownerLevel, State.rtsLevel, State.port, State.on, State.rd, State.reg, owner, ports, regs]

/-- Where a pad stands when its driver turns on. -/
def State.padOn (s : State) (q : Nat) : Pad := if (s.ownerLevel q).isSome then .drive else .off

theorem State.enablePad_eq (q : Nat) : ∃ x o, s.enablePad q = { s.setPin q x with out := o } ∧
    x.owner = (s.pin q).owner ∧ x.pad = s.padOn q := by
  unfold State.enablePad State.padOn
  split
  case _ level =>
    rw [level]
    exact ⟨_, _, rfl, rfl, rfl⟩
  case _ level =>
    rw [level]
    exact ⟨_, s.out, rfl, rfl, rfl⟩

/-- A pad that turns on leaves what the other pads would drive. -/
theorem State.padOn_enablePad (k q : Nat) : (s.enablePad k).padOn q = s.padOn q := by
  obtain ⟨x, o, e, owner, -⟩ := s.enablePad_eq k
  have same : ((s.enablePad k).pin q).owner = (s.pin q).owner := by
    rw [e]
    by_cases at_ : q = k
    · subst at_
      exact (congrArg Pin.owner (s.pin_setPin_self q x)).trans owner
    · exact congrArg Pin.owner (s.pin_setPin_other k q x at_)
  rw [State.padOn, State.ownerLevel_congr q same (by rw [e]; rfl) (by rw [e]; rfl), ← State.padOn]

theorem State.foldl_enablePad_eq (l : List Nat) : ∃ x o, l.foldl State.enablePad s = { s with pins := x, out := o } := by
  induction l generalizing s with
  | nil => exact ⟨s.pins, s.out, rfl⟩
  | cons q l ih =>
    obtain ⟨x, o, e, -, -⟩ := s.enablePad_eq q
    obtain ⟨y, o', e'⟩ := ih (s := s.enablePad q)
    rw [List.foldl_cons, e', e]
    exact ⟨y, o', rfl⟩

/-- Each pad that turns on stands as its owner has it. -/
theorem State.foldl_enablePad_pad (l : List Nat) (q : Nat) (h : q ∈ l ∨ (s.pin q).pad = s.padOn q) :
    ((l.foldl State.enablePad s).pin q).pad = s.padOn q := by
  induction l generalizing s with
  | nil => exact h.resolve_left nofun
  | cons k l ih =>
    rw [List.foldl_cons, ← s.padOn_enablePad k q]
    refine ih ?_
    obtain ⟨x, o, e, -, pad⟩ := s.enablePad_eq k
    rw [s.padOn_enablePad k q, e]
    by_cases at_ : q = k
    · subst at_
      exact .inr ((congrArg Pin.pad (s.pin_setPin_self q x)).trans pad)
    · refine h.imp (fun mem => (List.mem_cons.mp mem).resolve_left at_) fun had => ?_
      exact (congrArg Pin.pad (s.pin_setPin_other k q x at_)).trans had

theorem State.foldl_modPin_eq (f : Pin → Pin) (l : List Nat) : ∃ x, l.foldl (fun s q => s.modPin q f) s = { s with pins := x } := by
  induction l generalizing s with
  | nil => exact ⟨s.pins, rfl⟩
  | cons q l ih =>
    obtain ⟨x, e⟩ := ih (s := s.modPin q f)
    exact ⟨x, e⟩

theorem State.enableDrivers_eq (o : Nat) : ∃ x y z w, s.enableDrivers o =
    { s with hinge := { s.hinge with drivers := o + 1 }, pins := x, octs := y, cus := z, out := w } := by
  unfold State.enableDrivers
  extract_lets hinge counted kept padded
  have pads : ∃ x y w, padded = { counted with pins := x, octs := y, out := w } := by
    unfold padded
    split
    · obtain ⟨x, w, e⟩ := State.foldl_enablePad_eq (s := counted) kept
      exact ⟨x, _, w, e⟩
    · split
      · exact ⟨_, _, _, rfl⟩
      · obtain ⟨x, e⟩ := State.foldl_modPin_eq (s := counted) (fun x => { x with pad := .hold }) kept
        obtain ⟨y, e'⟩ := State.wakeOct_eq (kept.foldl (fun s q => s.modPin q fun x => { x with pad := .hold }) counted) o 8
        rw [e', e]
        exact ⟨x, y, _, rfl⟩
  obtain ⟨x, y, w, e⟩ := pads
  rw [e]
  exact ⟨x, y, _, w, rfl⟩

/-- In an octant in RUN the pads that kept their level turn on. -/
theorem State.enableDrivers_pad {o q : Nat} (octant : octOfPin q = o) (keeps : (s.pin q).pad = .keep)
    (free : (s.group (groupOfPin q)).frozen = false) (runs : (s.oct o).state = .run) :
    ((s.enableDrivers o).pin q).pad = s.padOn q := by
  unfold State.enableDrivers
  extract_lets hinge counted kept padded
  have mem : q ∈ kept := by
    have listed : (q, s.pin q) ∈ s.pins := Sparse.mem_of_get _ s.pins q fun e => by
      rw [State.pin, e] at keeps
      cases keeps
    refine List.mem_map.mpr ⟨(q, s.pin q), List.mem_filter.mpr ⟨listed, ?_⟩, rfl⟩
    have unfrozen : (counted.group (groupOfPin q)).frozen = false := free
    simp [octant, keeps, unfrozen]
  have on : padded = kept.foldl State.enablePad counted := if_pos runs
  have pad : (padded.pin q).pad = counted.padOn q := on ▸ State.foldl_enablePad_pad kept q (.inl mem)
  have same : counted.padOn q = s.padOn q := rfl
  rw [same] at pad
  clear_value padded
  exact pad

/-- The pair is left alone, and so are the pins. -/
structure LeavesPads (r s : State) : Prop extends LeavesPair r s where
  pins : s.pins = r.pins

namespace LeavesPads

theorem refl (s : State) : LeavesPads s s := ⟨.refl s, rfl⟩

variable (h : LeavesPads r s)
include h

theorem ite {c : Prop} [Decidable c] (k : LeavesPads r t) : LeavesPads r (if c then s else t) := by
  split
  · exact h
  · exact k

theorem modPort (p : Nat) (f : Port → Port) : LeavesPads r (s.modPort p f) := ⟨h.toLeavesPair.modPort p f, h.pins⟩

theorem lateHead (p : Nat) (d : Desc) : LeavesPads r (s.lateHead p d) := by
  unfold State.lateHead
  have dropped := h.modPort p fun x => { x with queue := x.queue.drop 1, launchAt := none, launchOk := false }
  exact ⟨dropped.toLeavesPair.txDone .., (State.txDone_recordsOnly (.refl _) ..).pins.trans dropped.pins⟩

theorem headReached (p fuel : Nat) : LeavesPads r (s.headReached p fuel) := by
  induction fuel generalizing s with
  | zero => exact h
  | succ fuel ih =>
    unfold State.headReached
    extract_lets x
    refine ite h ?_
    split
    · exact h
    · refine ite h ?_
      split
      · exact ite (h.modPort p _) (ih (h.lateHead ..))
      · exact ih (h.lateHead ..)

theorem checkHead (p : Nat) : LeavesPads r (s.checkHead p) := h.headReached ..

end LeavesPads

/-- A transmitter whose pad drives again waits for a frame, and for the launch of its head. -/
def State.drivesAgain (s : State) (p : Nat) : State :=
  let x := s.port p
  if x.tx = .off ∨ x.tx = .starved then s else
  let w := s.ballStamp (txPin p) + halfBits (s.bitPeriod p) (x.txSet.frame2 + 2)
  (s.modPort p (fun x => { x with waitUntil := some w, markFrom := s.now })).checkHead p

theorem LeavesPads.drivesAgain (h : LeavesPads r s) (p : Nat) : LeavesPads r (s.drivesAgain p) :=
  ite h ((h.modPort p _).checkHead p)

/-- After a takeover an octant tells its latency when it is the last one, and its transmitters go on (R258). -/
def State.drivesOctant (s : State) (o : Nat) : State :=
  let s := if o = 7 then s.wr Reg.HG_TKINFO_LAT (min (s.now - s.hinge.tkFrom) 0x3FFF) else s
  ((s.ports.map (·.1)).filter (fun p => octOfPort p == o)).foldl State.drivesAgain s

/-- The octants of a takeover leave time, the Hinge and the pins alone; the last one stores the latency. -/
theorem State.drivesOctant_leaves (s : State) (o : Nat) :
    ((s.drivesOctant o).now = s.now ∧ (s.drivesOctant o).hinge = s.hinge ∧ (s.drivesOctant o).pins = s.pins) ∧
      (o = 7 → (s.drivesOctant o).rd Reg.HG_TKINFO_LAT = min (s.now - s.hinge.tkFrom) 0x3FFF) := by
  unfold State.drivesOctant
  extract_lets told
  have same : told.now = s.now ∧ told.hinge = s.hinge ∧ told.pins = s.pins := by
    unfold told
    split <;> exact ⟨rfl, rfl, rfl⟩
  have fits : min (s.now - s.hinge.tkFrom) 0x3FFF < 2 ^ Reg.HG_TKINFO_LAT.width :=
    Nat.lt_of_le_of_lt (Nat.min_le_right ..) (by decide)
  have lat (last : o = 7) : told.rd Reg.HG_TKINFO_LAT = min (s.now - s.hinge.tkFrom) 0x3FFF := by
    unfold told
    rw [if_pos last, State.rd_wr_self _ Reg.HG_TKINFO_LAT _ 0 (by decide), Nat.mod_eq_of_lt fits]
  clear_value told
  obtain ⟨now, hinge, pins⟩ := same
  have leaves : LeavesPads told (((told.ports.map (·.1)).filter (fun p => octOfPort p == o)).foldl State.drivesAgain told) :=
    List.foldlRecOn (motive := LeavesPads told) _ _ (.refl told) fun _ k p _ => k.drivesAgain p
  exact ⟨⟨leaves.now.trans now, leaves.hinge.trans hinge, leaves.pins.trans pins⟩,
    fun last => (leaves.rd Reg.HG_TKINFO_LAT (by decide)).trans (lat last)⟩

theorem exec_octantDriverEnable (run : s.running = true) {n : Nat} {u : Stamp} (first : s.hinge.firstRel = some (n, u))
    (o : Fin 8) (claim : s.hinge.claim = true) (drivers : s.hinge.drivers = o.val) :
    ∃ t, exec (.octantDriverEnable o) s = .next t ∧ t.now = max s.now (n + 192 + 64 * o.val) ∧
      t.hinge.drivers = o.val + 1 ∧
      (s.hinge.state ≠ .taken → t.hinge = { s.hinge with drivers := o.val + 1 } ∧ t.regs = s.regs) ∧
      (s.hinge.state = .taken → o.val = 7 → t.rd Reg.HG_TKINFO_LAT = min (t.now - s.hinge.tkFrom) 0x3FFF) ∧
      (∀ q, octOfPin q = o.val → (s.pin q).pad = .keep → (s.group (groupOfPin q)).frozen = false →
        (s.oct o.val).state = .run → (t.pin q).pad = (if (s.ownerLevel q).isSome then .drive else .off)) := by
  obtain ⟨c, at_⟩ := s.advance_eq (n + 192 + 64 * o.val)
  obtain ⟨x, y, z, w, e⟩ := (s.advance (n + 192 + 64 * o.val)).enableDrivers_eq o.val
  have pads (q : Nat) (octant : octOfPin q = o.val) (keeps : (s.pin q).pad = .keep)
      (free : (s.group (groupOfPin q)).frozen = false) (runs : (s.oct o.val).state = .run) :
      (((s.advance (n + 192 + 64 * o.val)).enableDrivers o.val).pin q).pad =
        if (s.ownerLevel q).isSome then .drive else .off := by
    refine (State.enableDrivers_pad octant ?_ ?_ ?_).trans ?_ <;> rw [at_]
    · exact keeps
    · exact free
    · exact runs
    · rfl
  have done : exec (.octantDriverEnable o) s = if ((s.advance (n + 192 + 64 * o.val)).enableDrivers o.val).hinge.state != .taken
      then .next ((s.advance (n + 192 + 64 * o.val)).enableDrivers o.val)
      else .next (((s.advance (n + 192 + 64 * o.val)).enableDrivers o.val).drivesOctant o.val) := by
    show execOctantDriverEnable o s = _
    rw [execOctantDriverEnable, if_neg (by simp [run]), first]
    exact if_neg (by simp [claim, drivers])
  rw [at_] at e pads done
  generalize State.enableDrivers _ o.val = v at e pads done
  have hinge : v.hinge = { s.hinge with drivers := o.val + 1 } := by rw [e]
  have now : v.now = max s.now (n + 192 + 64 * o.val) := by rw [e]
  have state : v.hinge.state = s.hinge.state := by rw [hinge]
  by_cases taken : s.hinge.state = .taken
  · rw [if_neg (by simp [state, taken])] at done
    obtain ⟨⟨now', hinge', pins'⟩, lat⟩ := v.drivesOctant_leaves o.val
    refine ⟨_, done, now'.trans now, ?_, fun other => absurd taken other, fun _ last => ?_,
      fun q octant keeps free runs => ?_⟩
    · rw [hinge', hinge]
    · rw [lat last, now', hinge]
    · rw [State.pin, pins']
      exact pads q octant keeps free runs
  · rw [if_pos (by simp [state, taken])] at done
    exact ⟨v, done, now, by rw [hinge], fun _ => ⟨hinge, by rw [e]⟩, fun was => absurd was taken, pads⟩

end Sys2Proof.Machine
end

section
namespace Sys2Proof.Machine

/-! ### A shadow that takes over decides for itself (R258, R262) -/

namespace LeavesPair

variable {r s t : State} (h : LeavesPair r s)
include h

theorem decideLater (p : Nat) : LeavesPair r (s.decideLater p) := by
  unfold State.decideLater
  refine foldl ((h.decideSome ..).modPort p _) (fun s b k => ?_) _
  split
  case _ e => exact k.rebuild p b.1 b.2 e
  case _ => exact (k.decideSome ..).modPort p _

theorem decideRest (p : Nat) : LeavesPair r (s.decideRest p) := by
  unfold State.decideRest
  exact (h.decideSome ..).modPort p _

theorem finishJob (p : Nat) : LeavesPair r (s.finishJob p) := by
  unfold State.finishJob
  split
  · exact ite (h.endJob ..) h
  · exact h

end LeavesPair

/-! ### What a takeover tells (R258) -/

/-- At the edge of `s` the member has taken over by a sample of edge `n` and stamp `u`, with cause `c`. -/
structure TakenOver (s : State) (n : Nat) (u : Stamp) (c : Nat) (deg : Bool) (t : State) : Prop where
  now : t.now = s.now
  state : t.hinge.state = .taken
  stamp : t.hinge.tkStamp = u
  from_ : t.hinge.tkFrom = n
  relo : t.hinge.relo = true
  deg : t.hinge.tkdeg = deg
  told : t.on Reg.HG_STAT_EV_TK = true
  cause : t.rd Reg.HG_TKINFO_CAUSE = c

namespace TakenOver

variable {s t t' : State} {n c : Nat} {u : Stamp} {deg : Bool} (h : TakenOver s n u c deg t)
include h

theorem leaves (k : LeavesHinge t t') : TakenOver s n u c deg t' := by
  refine ⟨k.now.trans h.now, ?_, ?_, ?_, ?_, ?_, (k.on Reg.HG_STAT_EV_TK (by decide)).trans h.told,
    (k.rd Reg.HG_TKINFO_CAUSE (by decide)).trans h.cause⟩ <;> rw [k.hinge]
  · exact h.state
  · exact h.stamp
  · exact h.from_
  · exact h.relo
  · exact h.deg

theorem leavesPair (k : LeavesPair t t') : TakenOver s n u c deg t' := h.leaves k.toLeavesHinge

theorem foldl {β : Type} {f : State → β → State}
    (k : ∀ t b, TakenOver s n u c deg t → TakenOver s n u c deg (f t b)) (l : List β) : TakenOver s n u c deg (l.foldl f t) :=
  List.foldlRecOn (motive := TakenOver s n u c deg) l f h fun t h b _ => k t b h

theorem countCut : TakenOver s n u c deg (t.incSat Reg.HG_TKINFO_CUT) := by
  refine ⟨h.now, h.state, h.stamp, h.from_, h.relo, h.deg, ?_, ?_⟩
  · rw [State.on, State.incSat, State.rd_wr_word t Reg.HG_STAT_EV_TK Reg.HG_TKINFO_CUT _ 0 0 (by decide) (by decide) (by decide)]
    exact h.told
  · rw [State.incSat, State.rd_wr_apart t Reg.HG_TKINFO_CAUSE Reg.HG_TKINFO_CUT _ 0 0 rfl (by decide) (by decide)]
    exact h.cause

theorem resumeTx (p : Nat) : TakenOver s n u c deg (t.resumeTx p) := by
  unfold State.resumeTx
  extract_lets x seen counted again
  have cut : TakenOver s n u c deg counted := by
    unfold counted
    split
    · exact h.countCut
    · exact h
  exact cut.leavesPair (((LeavesPair.refl counted).setPort p _).finishJob p)

theorem issueAgain (m : Nat) (x : Rec) : TakenOver s n u c deg (t.issueAgain m x) := h.leaves (.of_same rfl rfl rfl)

theorem rewriteFrom (m : Nat) : TakenOver s n u c deg (t.rewriteFrom m) := by
  unfold State.rewriteFrom
  split
  · exact h
  · dsimp only
    have issued : TakenOver s n u c deg (t.modRing m fun r => { r with issued := BitVec.ofNat 32 (t.rd Reg.RG_DEV m) }) :=
      h.leaves (.of_same rfl rfl rfl)
    exact issued.foldl (fun t x k => k.issueAgain m x) _

theorem captureRecord (base : Stamp) (q status cause mask rate segidx aofs len skip : Nat) (pseq : Word) (lostseg detail : Nat) :
    TakenOver s n u c deg (t.captureRecord base q status cause mask rate segidx aofs len skip pseq lostseg detail).2 :=
  h.leaves (.of_records (State.form_recordsOnly (.refl t) ..))

/-- From ENGAGED: the transmitters resume, and the rings are written from their horizon points (R261, R262). -/
theorem takeEngaged : TakenOver s n u c deg t.takeEngaged := by
  unfold State.takeEngaged
  extract_lets resumed rewritten _ flushed captured _ committed detail raised head _ asked headed
  have sends : TakenOver s n u c deg resumed := h.foldl (fun _ p k => k.resumeTx p) _
  have writes : TakenOver s n u c deg rewritten := sends.foldl (fun _ m k => k.rewriteFrom m) _
  have flushes : TakenOver s n u c deg flushed :=
    ⟨writes.now, writes.state, writes.stamp, writes.from_, writes.relo, writes.deg, writes.told, writes.cause⟩
  have captures : TakenOver s n u c deg captured := flushes.foldl (fun _ _ k => k.captureRecord ..) _
  have commits : TakenOver s n u c deg committed :=
    ⟨captures.now, captures.state, captures.stamp, captures.from_, captures.relo, captures.deg, captures.told, captures.cause⟩
  have raises : TakenOver s n u c deg raised := commits.leavesPair ((LeavesPair.refl _).raiseEvent ..)
  have asks : TakenOver s n u c deg asked := raises.leaves (.of_same rfl rfl rfl)
  clear_value asked
  have heads : TakenOver s n u c deg headed := by
    unfold headed
    clear_value head
    cases head with
    | some x => exact asks.leavesPair ((LeavesPair.refl asked).pairEntry ..)
    | none => exact asks
  exact heads.foldl (fun t m k => k.leavesPair (.ite ((LeavesPair.refl t).srcEvent ..) (.refl t))) _

end TakenOver

variable {s : State}

/-! ### A takeover but from ENGAGED (R264) -/

/-- A ring of which nothing is written until it is enabled again. -/
def Ring.faulted (r : Ring) : Ring := if r.state = .off then r else { r with state := .fault, mute := true }

theorem Ring.keepsTo.faulted {x y : Ring} (h : x.keepsTo y) : x.faulted.keepsTo y.faulted := by
  obtain ⟨p, l, rfl⟩ := h
  unfold Ring.faulted
  dsimp only
  split
  · exact ⟨p, l, rfl⟩
  · exact ⟨p, l, rfl⟩

/-- A ring that keeps to one in FAULT is in FAULT, unless it was OFF. -/
theorem Ring.faulted_states {x y : Ring} (h : x.faulted.keepsTo y) :
    (x.state = .off → y.state = .off) ∧ (x.state ≠ .off → y.state = .fault ∧ y.mute = true) := by
  obtain ⟨p, l, rfl⟩ := h
  refine ⟨fun off => ?_, fun on => ?_⟩
  · rw [Ring.faulted, if_pos off]
    exact off
  · rw [Ring.faulted, if_neg on]
    exact ⟨rfl, rfl⟩

/-- A port that has nothing to send. -/
def Port.emptied (x : Port) : Port :=
  { x with queue := [], sending := none, flowFlight := none, ahead := none, replies := [], flowDue := [], launchAt := none,
           launchOk := false, tx := if x.tx = .off ∨ x.tx = .starved ∨ x.tx = .held then x.tx else .idle }

/-- A port sends nothing and waits for nothing to send. -/
def Port.empty (x : Port) : Prop := x.queue = [] ∧ x.sending = none ∧ x.replies = []

theorem State.unbuildHeld_leaves : LeavesPair s s.unbuildHeld :=
  ((LeavesPair.refl s).foldl (fun _ x k => k.modPort x.port _) _).of_same rfl rfl rfl rfl

theorem State.unbuildHeld_empty (h : ∀ p, (s.port p).empty) (p : Nat) : (s.unbuildHeld.port p).empty := by
  refine List.foldlRecOn (motive := fun t : State => ∀ p, (t.port p).empty) _ _ h (fun t k x _ p => ?_) p
  rw [State.modPort_eq]
  by_cases at_ : p = x.port
  · subst at_
    rw [State.port_setPort_self]
    exact k x.port
  · rw [State.port_setPort_other _ _ _ _ at_]
    exact k p

/-- The member sends nothing, and its rings are in FAULT. -/
def State.disarmed (s : State) : State :=
  { s with rings := s.rings.map (fun x => (x.1, x.2.faulted)), ports := s.ports.map (fun x => (x.1, x.2.emptied)),
           hinge := { s.hinge with tkdeg := true, alImage := none } }

theorem State.disarmed_ring (m : Nat) : s.disarmed.ring m = (s.ring m).faulted := Sparse.get_map _ Ring.faulted _ _ rfl

theorem State.disarmed_port (p : Nat) : s.disarmed.port p = (s.port p).emptied := Sparse.get_map _ Port.emptied _ _ rfl

theorem State.takeDegraded_eq : s.takeDegraded = (({ s.disarmed.unbuildHeld.settle with
    almanac := s.disarmed.unbuildHeld.settle.almanac.restore } : State).raiseEvent 275
      (s.disarmed.unbuildHeld.settle.rd Reg.HG_TKINFO_CAUSE + 4 +
        s.disarmed.unbuildHeld.settle.rd Reg.HG_TKINFO_CUT * 65536)) := by
  unfold State.takeDegraded
  extract_lets fault empty _ disarmed unbuilt restored
  have same : disarmed = s.disarmed := rfl
  clear_value disarmed
  subst same
  rfl

theorem State.takeDegraded_leaves : LeavesPair s.disarmed s.takeDegraded := by
  rw [State.takeDegraded_eq]
  have settled : LeavesPair s.disarmed s.disarmed.unbuildHeld.settle := s.disarmed.unbuildHeld_leaves.settle
  generalize s.disarmed.unbuildHeld.settle = v at settled ⊢
  have restored : LeavesPair s.disarmed { v with almanac := v.almanac.restore } := settled.of_same rfl rfl rfl rfl
  exact restored.raiseEvent ..

theorem State.takeDegraded_empty (p : Nat) : (s.takeDegraded.port p).empty := by
  rw [State.takeDegraded_eq, State.port_raiseEvent]
  have settled : s.disarmed.unbuildHeld.settle.port p = s.disarmed.unbuildHeld.port p := by
    rw [State.port, (State.settle_recordsOnly (.refl s.disarmed.unbuildHeld)).ports, ← State.port]
  exact settled ▸ State.unbuildHeld_empty (fun p => s.disarmed_port p ▸ ⟨rfl, rfl, rfl⟩) p

theorem State.takeDegraded_ring (m : Nat) : (s.ring m).faulted.keepsTo (s.takeDegraded.ring m) :=
  s.disarmed_ring m ▸ s.takeDegraded_leaves.rings m

theorem TakenOver.takeDegraded {s₀ : State} {n c : Nat} {u : Stamp} {deg : Bool} (h : TakenOver s₀ n u c deg s) :
    TakenOver s₀ n u c true s.takeDegraded := by
  have disarms : TakenOver s₀ n u c true s.disarmed := ⟨h.now, h.state, h.stamp, h.from_, h.relo, rfl, h.told, h.cause⟩
  exact disarms.leavesPair s.takeDegraded_leaves

/-! ### The claim that takes over -/

/-- What a takeover finds of a release notice: 2 for a deliberate one (R258). -/
def State.tkCause (s : State) : Nat :=
  if s.hinge.noticeAt.any (fun m => decide (m ≤ s.now ∧ s.now ≤ m + 1600)) then 2 else 1

theorem State.tkCause_lt : s.tkCause < 4 := by
  unfold State.tkCause
  split <;> decide

/-- The takeover up to what its rings and transmitters do. -/
theorem State.takeover_takes (s : State) (n : Nat) (u : Stamp) (relo : s.hinge.relo = true) : ∃ v, TakenOver s n u s.tkCause false v ∧
    (∀ m, (s.ring m).keepsTo (v.ring m)) ∧
    s.takeover n u = if s.hinge.state = .engaged then v.takeEngaged else v.takeDegraded := by
  unfold State.takeover
  extract_lets was deliberate ports decided _ _ taken ended stored told rested
  have decides : LeavesPair s decided := (LeavesPair.refl s).foldl (fun _ p k => k.decideLater p) ports
  have ends : LeavesPair taken ended := (LeavesPair.refl taken).pairEnds
  have rests : LeavesPair told rested := (LeavesPair.refl told).foldl (fun _ p k => k.decideRest p) ports
  have hinge : told.hinge = taken.hinge := ends.hinge
  have now : told.now = s.now := ends.now.trans decides.now
  have kept : taken.hinge.relo = true := (congrArg Hinge.relo decides.hinge).trans relo
  have shown : told.on Reg.HG_STAT_EV_TK = true :=
    congrArg (· == 1) (stored.rd_wr_self Reg.HG_STAT_EV_TK 1 0 (by decide))
  have cause : told.rd Reg.HG_TKINFO_CAUSE = s.tkCause :=
    calc told.rd Reg.HG_TKINFO_CAUSE
      _ = stored.rd Reg.HG_TKINFO_CAUSE :=
        stored.rd_wr_word Reg.HG_TKINFO_CAUSE Reg.HG_STAT_EV_TK 1 0 0 (by decide) (by decide) (by decide)
      _ = s.tkCause % 2 ^ Reg.HG_TKINFO_CAUSE.width := State.rd_wr_self _ Reg.HG_TKINFO_CAUSE _ 0 (by decide)
      _ = s.tkCause := Nat.mod_eq_of_lt s.tkCause_lt
  have takes : TakenOver s n u s.tkCause false told := by
    refine ⟨now, ?_, ?_, ?_, ?_, ?_, shown, cause⟩ <;> rw [hinge]
    exact kept
  exact ⟨rested, takes.leavesPair rests, fun m =>
    Ring.keepsTo_trans (decides.rings m) (Ring.keepsTo_trans (ends.rings m) (rests.rings m)), rfl⟩

theorem State.qualified_ring (n m : Nat) : (s.qualified n).ring m = s.ring m := by
  obtain ⟨c, e⟩ := s.advance_eq (n + 64)
  rw [State.qualified, e]
  rfl

theorem exec_claimQualify_takes {n : Nat} {u : Stamp} (first : s.hinge.firstRel = some (n, u)) (past : s.pastV = true)
    (reli : s.hinge.reli = true) (relo : s.hinge.relo = false) (free : s.hinge.claim = false) (open_ : s.hinge.blocked = false)
    (may : s.mayTake = true) : ∃ t, exec .claimQualify s = .next t ∧
      TakenOver (s.qualified n) n u (s.qualified n).tkCause (decide (s.hinge.state ≠ .engaged)) t ∧
      (s.hinge.state ≠ .engaged → (∀ m, (s.ring m).faulted.keepsTo (t.ring m)) ∧ ∀ p, (t.port p).empty) := by
  obtain ⟨v, takes, rings, taken⟩ := (s.qualified n).takeover_takes n u rfl
  refine ⟨_, exec_claimQualify first past reli relo free open_ (.inr may), ?_⟩
  have was : (s.qualified n).hinge.state = s.hinge.state := rfl
  rw [if_pos may, taken, was]
  by_cases engaged : s.hinge.state = .engaged
  · rw [if_pos engaged, decide_eq_false (not_not.mpr engaged)]
    exact ⟨takes.takeEngaged, fun other => absurd engaged other⟩
  · rw [if_neg engaged, decide_eq_true engaged]
    refine ⟨takes.takeDegraded, fun _ => ⟨fun m => ?_, v.takeDegraded_empty⟩⟩
    rw [← s.qualified_ring n m]
    exact Ring.keepsTo_trans (rings m).faulted (v.takeDegraded_ring m)

/-- Settles O41: the claim's rules each by its own lemma, a takeover by `TakenOver` from the sample to its end. -/
theorem claimsAndTakeovers : Obligations.ClaimsAndTakeovers := by
  unfold Obligations.ClaimsAndTakeovers
  refine ⟨fun s run => ⟨exec_reliReleased run, fun n u first => ⟨exec_claimQualify_eligible first, exec_claimHeld run first,
      exec_octantDriverEnable run first, exec_claimRetry run first, exec_claimBlocked run first⟩,
    fun n => exec_reloRelease, exec_vstPFall⟩, ?_⟩
  intro s n u first past reli relo free open_ may
  obtain ⟨t, done, takes, degraded⟩ := exec_claimQualify_takes first past reli relo free open_ may
  refine ⟨t, done, takes.state, takes.stamp, takes.from_, takes.relo, takes.now.trans (s.advance_now _), takes.told, ?_, takes.deg,
    fun other => ?_⟩
  · rw [takes.cause, State.tkCause, takes.now]
    rfl
  · obtain ⟨rings, empty⟩ := degraded other
    exact ⟨fun m => Ring.faulted_states (rings m), empty⟩

end Sys2Proof.Machine
end

section
namespace Sys2Proof.Machine

/-! ### A source that a takeover clears while its input is asserted

A takeover clears the state of a station source and leaves its input (R290). The image of the primary may have given the shadow an
asserted input that the shadow's own filter has still to see (R252, R273): the filter then finds the input as it is to be, and
the source stays IDLE. -/

/-- Source 1024 of a member enabled with priority 3 and level sense, its input asserted as the primary's was; the pin of station 0
stands high, and the member's own debounced level is still low. -/
def inputAheadOfFilter : State :=
  { eventSourceSelected with
    regs := [(1024 * 4096 + 0x201, Reg.CA_SCFG_PRIO.set (Reg.CA_SCFG_EN.set (resetWord (1024 * 4096 + 0x201)) 1) 3)]
    pins := [(3, { owner := .gpioIn, level := some true, history := [(90000, .high)] })]
    srcs := [(1024, { state := .pend, input := true })] }

/-- The same member once a takeover has cleared its sources. -/
def clearedAheadOfFilter : State := inputAheadOfFilter.takeCarillon

/-- The source is asserted under its level sense and enabled, and the filter takes the new level; it stays IDLE. -/
theorem clearedAheadOfFilter_staysIdle :
    Ends (fun t => (t.src 1024).state = .idle) (exec (.stationInputChange 0 true) clearedAheadOfFilter) := by
  rfl

/-- Refutes O42: the filter of a station takes a level that the source's input has had since before a takeover, and the enabled
source with level sense is asserted and stays IDLE. -/
theorem not_sourcesPendAndClear : ¬ Obligations.SourcesPendAndClear := by
  unfold Obligations.SourcesPendAndClear
  intro h
  obtain ⟨-, input, -⟩ := h clearedAheadOfFilter
  obtain ⟨t, e, -, -, -, pends, -⟩ := input 0 true (by decide) (by decide) (by decide) (by decide) (by decide)
  have pending : (t.src 1024).state = .pend :=
    pends (by decide +kernel) (by decide +kernel) (by decide +kernel) (by decide +kernel)
  have idle : (t.src 1024).state = .idle := clearedAheadOfFilter_staysIdle.of_next e
  exact absurd (pending.symm.trans idle) (by decide)

end Sys2Proof.Machine
end

section
namespace Sys2Proof.Machine

section

variable {s u : State} {t n : Nat}

/-- A source depends on the sources alone. -/
theorem State.src_congr (h : u.srcs = s.srcs) (k : Nat) : u.src k = s.src k := by rw [State.src, State.src, h]

/-- A target depends on the targets alone. -/
theorem State.tgt_congr (h : u.tgts = s.tgts) (k : Nat) : u.tgt k = s.tgt k := by rw [State.tgt, State.tgt, h]

/-! ### What a claim or a message decision activates (R277, R278, R281) -/

variable (s t n)

/-- An activation is an entry on the stack and a source in ACTIVE, with two registers that count it. -/
theorem State.activate_eq (slot : Option Nat) : s.activate t n slot =
    (((s.setTgt t { s.tgt t with stack := (s.tgt t).stack ++ [⟨n, s.rd Reg.CA_SCFG_PRIO n, slot⟩], last := n % 4096 }).setSrc n
      { s.src n with state := .active, held := 0, timer := none, mark := false, cut := false, recs := [] }).incWrap
        Reg.CA_SCNT n).incWrap Reg.CA_TCNT t := by
  unfold State.activate
  simp only [State.modTgt_eq, State.modSrc_eq]
  rw [State.src_congr (s.setTgt_srcs t _)]

theorem State.activate_src (slot : Option Nat) : (s.activate t n slot).src n =
    { s.src n with state := .active, held := 0, timer := none, mark := false, cut := false, recs := [] } := by
  rw [s.activate_eq t n slot, State.incWrap_eq, State.src_congr (State.wr_srcs ..), State.incWrap_eq,
    State.src_congr (State.wr_srcs ..), State.src_setSrc_self]

theorem State.activate_stack (slot : Option Nat) :
    ((s.activate t n slot).tgt t).stack = (s.tgt t).stack ++ [⟨n, s.rd Reg.CA_SCFG_PRIO n, slot⟩] := by
  rw [s.activate_eq t n slot, State.incWrap_eq, State.tgt_congr (State.wr_tgts ..), State.incWrap_eq,
    State.tgt_congr (State.wr_tgts ..), State.tgt_congr (State.setSrc_tgts ..), State.tgt_setTgt_self]

theorem State.activate_count (slot : Option Nat) :
    (s.activate t n slot).rd Reg.CA_TCNT t = (s.rd Reg.CA_TCNT t + 1) % 2 ^ Reg.CA_TCNT.width := by
  rw [s.activate_eq t n slot, State.incWrap_eq, State.rd_wr_self _ _ _ _ (by decide), State.incWrap_eq,
    State.rd_wr_word _ _ _ _ _ _ (by decide) (by decide) (by decide),
    State.rd_congr _ _ (State.setSrc_regs ..), State.rd_congr _ _ (State.setTgt_regs ..)]

theorem State.activate_msgs (slot : Option Nat) : (s.activate t n slot).msgs = s.msgs := by simp [s.activate_eq t n slot]

theorem State.activate_out (slot : Option Nat) : (s.activate t n slot).out = s.out := by simp [s.activate_eq t n slot]

variable {s t n}

theorem State.claim_winner (pin : s.on Reg.CA_TCFG_KIND t = false) (win : s.winner t = some n) :
    s.claim t = (n % 4096, s.activate t n none) := by
  simp only [State.claim, pin, win, Bool.false_eq_true, if_false]

theorem State.claim_nothing (idle : s.on Reg.CA_TCFG_KIND t = true ∨ s.winner t = none) : s.claim t = (0, s) := by
  unfold State.claim
  split
  · rfl
  · rename_i pin
    rw [idle.resolve_left pin]

/-! ### The claims (R281) -/

variable (s) in
/-- A response leaves sources and targets as they are. -/
theorem State.respond_srcs_tgts (head : BitVec 64) (c : Code) (data : Word) (more : List Word) (delay : Nat) :
    (s.respond head c data more delay).srcs = s.srcs ∧ (s.respond head c data more delay).tgts = s.tgts := by
  obtain ⟨x, r, e⟩ := s.respond_eq head c data more delay
  rw [e]
  exact ⟨rfl, rfl⟩

/-- A READ of CA_CLAIM that nothing refuses is the claim of the target that CA_TGTSEL names, answered with its source. -/
theorem exec_caClaimRead_chain (read : s.takesRead 0x228 = true) (sel : s.selOf 0x228 = t) :
    exec (.caClaimRead none) s =
      .next ((s.claim t).2.respond (slotHead 1 0x228 0) Code.ok (BitVec.ofNat 32 (s.claim t).1) [] 48) := by
  subst sel
  exact congrArg _ (s.readWord_takes 0x228 read)

theorem exec_caClaimRead_chain_winner (read : s.takesRead 0x228 = true) (sel : s.selOf 0x228 = t)
    (pin : s.on Reg.CA_TCFG_KIND t = false) (win : s.winner t = some n) :
    ∃ u, exec (.caClaimRead none) s = .next u ∧ u.answers Code.ok (BitVec.ofNat 32 (n % 4096)) ∧
      (u.src n).state = .active ∧ (u.tgt t).stack = (s.tgt t).stack ++ [⟨n, s.rd Reg.CA_SCFG_PRIO n, none⟩] := by
  have done := exec_caClaimRead_chain read sel
  rw [State.claim_winner pin win] at done
  obtain ⟨srcs, tgts⟩ := (s.activate t n none).respond_srcs_tgts (slotHead 1 0x228 0) Code.ok (BitVec.ofNat 32 (n % 4096)) [] 48
  refine ⟨_, done, State.respond_answers .., ?_, ?_⟩
  · rw [State.src_congr srcs, State.activate_src]
  · rw [State.tgt_congr tgts, State.activate_stack]

/-- The host's read of the claim word is the same claim, given back as the data of the read. -/
theorem exec_caClaimRead_host (host : Fin 16) (run : s.running = true) (up : s.link.up = true) :
    exec (.caClaimRead (some host)) s = .next ((s.claim host.val).2.emit (.readData [BitVec.ofNat 32 (s.claim host.val).1])) := by
  change execCaClaimRead (some host) s = _
  simp only [execCaClaimRead, run, up, Bool.and_self, if_true]

theorem exec_caClaimRead_host_winner {host : Fin 16} (run : s.running = true) (up : s.link.up = true)
    (pin : s.on Reg.CA_TCFG_KIND host.val = false) (win : s.winner host.val = some n) :
    ∃ u, exec (.caClaimRead (some host)) s = .next u ∧ (u.src n).state = .active ∧ (u.src n).held = 0 ∧
      (u.tgt host.val).stack = (s.tgt host.val).stack ++ [⟨n, s.rd Reg.CA_SCFG_PRIO n, none⟩] ∧
      u.out = s.out ++ [.readData [BitVec.ofNat 32 (n % 4096)]] ∧
      u.rd Reg.CA_TCNT host.val = (s.rd Reg.CA_TCNT host.val + 1) % 2 ^ Reg.CA_TCNT.width := by
  have done := exec_caClaimRead_host host run up
  rw [State.claim_winner pin win] at done
  have active := State.src_congr (State.emit_srcs (s.activate host.val n none) (.readData [BitVec.ofNat 32 (n % 4096)])) n
  rw [State.activate_src] at active
  refine ⟨_, done, congrArg Src.state active, congrArg Src.held active, ?_, ?_, ?_⟩
  · rw [State.tgt_congr (State.emit_tgts ..), State.activate_stack]
  · rw [State.emit_out, State.activate_out]
  · rw [State.rd_congr _ _ (State.emit_regs ..), State.activate_count]

theorem exec_caClaimRead_host_nothing {host : Fin 16} (run : s.running = true) (up : s.link.up = true)
    (idle : s.on Reg.CA_TCFG_KIND host.val = true ∨ s.winner host.val = none) :
    exec (.caClaimRead (some host)) s = .next { s with out := s.out ++ [.readData [0]] } := by
  rw [exec_caClaimRead_host host run up, State.claim_nothing idle]
  rfl

/-! ### The message decision (R283) -/

/-- A decision activates the winner in the lowest free mailbox slot and forms one message of it. -/
theorem exec_messageDecision_decides {k : Fin 16} (message : s.on Reg.CA_TCFG_KIND k.val = true) (may : s.mayRequest = true)
    (msix : s.link.msix = true) (open_ : s.on Reg.CA_MSIX_CTL_VMASK k.val = false) (win : s.winner k.val = some n) :
    ∃ (u : State) (m : Msg), exec (.messageDecision k) s = .next u ∧
      u.msgs = (s.activate k.val n (some (s.tgt k.val).freeSlot)).msgs ++ [m] ∧
      u.srcs = (s.activate k.val n (some (s.tgt k.val).freeSlot)).srcs ∧
      u.tgts = (s.activate k.val n (some (s.tgt k.val).freeSlot)).tgts ∧
      m.target = k.val ∧ m.source = n ∧ m.slot = (s.tgt k.val).freeSlot := by
  change ∃ (u : State) (m : Msg), execMessageDecision k s = .next u ∧ _
  simp only [execMessageDecision, message, may, msix, open_, win, Bool.not_false, Bool.and_self, if_true]
  refine ⟨_, ⟨_, _, _, _, _, _⟩, rfl, rfl, ?_, ?_, rfl, rfl, rfl⟩ <;> with_reducible rfl

theorem exec_messageDecision_winner {k : Fin 16} (message : s.on Reg.CA_TCFG_KIND k.val = true) (may : s.mayRequest = true)
    (msix : s.link.msix = true) (open_ : s.on Reg.CA_MSIX_CTL_VMASK k.val = false) (win : s.winner k.val = some n) :
    ∃ u m, exec (.messageDecision k) s = .next u ∧ u.msgs = s.msgs ++ [m] ∧ m.target = k.val ∧ m.source = n ∧
      m.slot = (s.tgt k.val).freeSlot ∧ (u.src n).state = .active ∧
      (u.tgt k.val).stack = (s.tgt k.val).stack ++ [⟨n, s.rd Reg.CA_SCFG_PRIO n, some m.slot⟩] := by
  obtain ⟨u, m, done, msgs, srcs, tgts, target, source, slot⟩ := exec_messageDecision_decides message may msix open_ win
  refine ⟨u, m, done, ?_, target, source, slot, ?_, ?_⟩
  · rw [msgs, State.activate_msgs]
  · rw [State.src_congr srcs, State.activate_src]
  · rw [State.tgt_congr tgts, State.activate_stack, slot]

/-! ### Ends of interrupt (R277, R279) -/

theorem State.endOfInterrupt_unnamed (unnamed : (s.tgt t).stack.find? (fun e => e.source % 4096 == n) = none) :
    s.endOfInterrupt t n = s.incSat Reg.CA_TSTAT_BADW t := by
  simp only [State.endOfInterrupt, unnamed]

/-- An end of interrupt of a source on the stack touches that stack and that source alone. -/
theorem State.endOfInterrupt_named {e : StackEntry} (named : (s.tgt t).stack.find? (fun e => e.source % 4096 == n) = some e) :
    ∃ x, s.endOfInterrupt t n =
        (s.setTgt t { s.tgt t with stack := (s.tgt t).stack.filter (fun y => y.source != e.source) }).setSrc e.source x ∧
      ((s.src e.source).held = 0 → (s.src e.source).mark = false → (s.src e.source).input = false → x.state = .idle) := by
  simp only [State.endOfInterrupt, named, State.modTgt_eq, State.modSrc_eq]
  refine ⟨_, rfl, fun held mark input => ?_⟩
  rw [State.src_congr (s.setTgt_srcs t _)]
  simp [State.ripe, held, mark, input]

theorem State.endOfInterrupt_stack {e : StackEntry} (named : (s.tgt t).stack.find? (fun e => e.source % 4096 == n) = some e) :
    ((s.endOfInterrupt t n).tgt t).stack = (s.tgt t).stack.filter (fun y => y.source != e.source) := by
  obtain ⟨x, done, -⟩ := State.endOfInterrupt_named named
  rw [done, State.tgt_congr (State.setSrc_tgts ..), State.tgt_setTgt_self]

theorem exec_caEoi_host {host : Fin 16} (run : s.running = true) (up : s.link.up = true) (d : Word) :
    exec (.caEoi (some host) d) s = .next (s.endOfInterrupt host.val (Reg.CA_EOI.get d)) := by
  change execCaEoi (some host) d s = _
  simp only [execCaEoi, State.hostReaches, run, up, Bool.and_self, if_true]

theorem exec_caEoi_host_named {host : Fin 16} {d : Word} {e : StackEntry} (run : s.running = true) (up : s.link.up = true)
    (named : (s.tgt host.val).stack.find? (fun e => e.source % 4096 == Reg.CA_EOI.get d) = some e) :
    ∃ u, exec (.caEoi (some host) d) s = .next u ∧
      (u.tgt host.val).stack = (s.tgt host.val).stack.filter (fun y => y.source != e.source) ∧ u.regs = s.regs ∧
      ((s.src e.source).held = 0 → (s.src e.source).mark = false → (s.src e.source).input = false →
        (u.src e.source).state = .idle) := by
  refine ⟨_, exec_caEoi_host run up d, State.endOfInterrupt_stack named, ?_⟩
  obtain ⟨x, done, idle⟩ := State.endOfInterrupt_named named
  rw [done]
  refine ⟨rfl, fun held mark input => ?_⟩
  rw [State.src_setSrc_self]
  exact idle held mark input

theorem exec_caEoi_host_unnamed {host : Fin 16} {d : Word} (run : s.running = true) (up : s.link.up = true)
    (unnamed : (s.tgt host.val).stack.find? (fun e => e.source % 4096 == Reg.CA_EOI.get d) = none) :
    ∃ u, exec (.caEoi (some host) d) s = .next u ∧ u = { s with regs := u.regs } ∧
      s.regsSameBut u [(host.val, Reg.CA_TSTAT_BADW.word)] ∧
      u.rd Reg.CA_TSTAT_BADW host.val = min (s.rd Reg.CA_TSTAT_BADW host.val + 1) (2 ^ Reg.CA_TSTAT_BADW.width - 1) := by
  have done := exec_caEoi_host (host := host) run up d
  rw [State.endOfInterrupt_unnamed unnamed] at done
  exact ⟨_, done, State.wr_frame .., State.wr_regsSameBut _ _ _ _ (by decide), State.rd_incSat _ _ _ (by decide)⟩

/-- Nothing follows the store of CA_EOI but its action. -/
theorem actWord_caEoi (i : Nat) (old d : Word) :
    actWord [] (applyWord s i Reg.CA_EOI.word old) i Reg.CA_EOI.word d = s.endOfInterrupt i (Reg.CA_EOI.get d) := by
  rfl

/-- An accepted write of CA_EOI ends an interrupt at the target that CA_TGTSEL names, with only octants that ask for RUN, the
chain part and registers beside it. -/
theorem exec_caEoi_chain {d : Word} (write : s.takesWrite Reg.CA_EOI.word d = true) (one : s.selAll Reg.CA_EOI.word = false)
    (sel : s.selOf Reg.CA_EOI.word = t) :
    ∃ v u : State, v.tgts = s.tgts ∧ v.srcs = s.srcs ∧ v.rd Reg.CA_TSTAT_BADW t = s.rd Reg.CA_TSTAT_BADW t ∧
      exec (.caEoi none d) s = .next u ∧ u.srcs = (v.endOfInterrupt t (Reg.CA_EOI.get d)).srcs ∧
      u.tgts = (v.endOfInterrupt t (Reg.CA_EOI.get d)).tgts ∧
      u.rd Reg.CA_TSTAT_BADW t = (v.endOfInterrupt t (Reg.CA_EOI.get d)).rd Reg.CA_TSTAT_BADW t := by
  subst sel
  obtain ⟨x, r, o, done, regs⟩ := s.writeWord_one 0x229 d write one (by decide) (by decide) _ (actWord_caEoi ..).symm
  refine ⟨s.setReg (s.selOf Reg.CA_EOI.word) Reg.CA_EOI.word (mergeWord s (s.selOf Reg.CA_EOI.word) Reg.CA_EOI.word d),
    s.writeWord 0x229 d, State.setReg_tgts .., State.setReg_srcs .., ?_, rfl, ?_, ?_, ?_⟩
  · rw [State.rd, State.rd, s.reg_setReg_word _ _ _ _ _ (by decide) (by decide) (by decide)]
  · rw [done]
    rfl
  · rw [done]
    rfl
  · exact congrArg Reg.CA_TSTAT_BADW.get (regs _ Reg.CA_TSTAT_BADW.word (by change _ * 4096 + 0x22A ≠ _; omega))

theorem exec_caEoi_chain_named {d : Word} {e : StackEntry} (write : s.takesWrite Reg.CA_EOI.word d = true)
    (one : s.selAll Reg.CA_EOI.word = false) (sel : s.selOf Reg.CA_EOI.word = t)
    (named : (s.tgt t).stack.find? (fun e => e.source % 4096 == Reg.CA_EOI.get d) = some e) :
    ∃ u, exec (.caEoi none d) s = .next u ∧
      (u.tgt t).stack = (s.tgt t).stack.filter (fun y => y.source != e.source) := by
  obtain ⟨v, u, tgts, -, -, done, -, ended, -⟩ := exec_caEoi_chain write one sel
  rw [← State.tgt_congr tgts t] at named ⊢
  exact ⟨u, done, by rw [State.tgt_congr ended, State.endOfInterrupt_stack named]⟩

theorem exec_caEoi_chain_unnamed {d : Word} (write : s.takesWrite Reg.CA_EOI.word d = true)
    (one : s.selAll Reg.CA_EOI.word = false) (sel : s.selOf Reg.CA_EOI.word = t)
    (unnamed : (s.tgt t).stack.find? (fun e => e.source % 4096 == Reg.CA_EOI.get d) = none) :
    ∃ u, exec (.caEoi none d) s = .next u ∧ u.tgts = s.tgts ∧ u.srcs = s.srcs ∧
      u.rd Reg.CA_TSTAT_BADW t = min (s.rd Reg.CA_TSTAT_BADW t + 1) (2 ^ Reg.CA_TSTAT_BADW.width - 1) := by
  obtain ⟨v, u, tgts, srcs, before, done, srcs', tgts', counted⟩ := exec_caEoi_chain write one sel
  rw [← State.tgt_congr tgts t] at unnamed
  rw [State.endOfInterrupt_unnamed unnamed, State.incSat_eq] at srcs' tgts'
  rw [State.endOfInterrupt_unnamed unnamed, State.rd_incSat _ _ _ (by decide), before] at counted
  exact ⟨u, done, (tgts'.trans (State.wr_tgts ..)).trans tgts, (srcs'.trans (State.wr_srcs ..)).trans srcs, counted⟩

end

/-! ### The obligation of claims and ends of interrupt -/

/-- Settles O43: each claim, decision and end of interrupt by its own lemma. -/
theorem claimsActivateTheWinner : Obligations.ClaimsActivateTheWinner := by
  unfold Obligations.ClaimsActivateTheWinner
  intro s t
  refine ⟨fun n => exec_caClaimRead_chain_winner, fun run up => ⟨fun n => exec_caClaimRead_host_winner run up,
    exec_caClaimRead_host_nothing run up, fun d e => exec_caEoi_host_named run up, fun d => exec_caEoi_host_unnamed run up⟩,
    fun d write one sel => ⟨fun e => exec_caEoi_chain_named write one sel, exec_caEoi_chain_unnamed write one sel⟩,
    fun n => exec_messageDecision_winner⟩

end Sys2Proof.Machine
end

section
namespace Sys2Proof.Machine

/-! ### What a response and a slot leave alone

A response changes the chain part and CH_LASTST; a slot alone runs on the state as it is, unless settings of the chain wait
(R328). -/

section

variable {s t : State}

/-- A response changes nothing but the chain part and CH_LASTST, whatever else the slot did to the chain part. -/
theorem State.respond_sameButChain (s : State) (x : Chain) (head : BitVec 64) (c : Code) (data : Word) (more : List Word)
    (delay : Nat) : s.sameButChain (State.respond { s with chain := x } head c data more delay) := by
  obtain ⟨y, r, e⟩ := State.respond_eq { s with chain := x } head c data more delay
  refine ⟨by rw [e], fun i w hw other => State.respond_reg { s with chain := x } head c data more delay i w fun key => other ?_⟩
  obtain ⟨rfl, rfl⟩ : i = 0 ∧ w = 0x047 := by omega
  exact List.mem_singleton_self _

/-- The settings of the chain that are due depend on the chain part alone. -/
theorem State.chainDue_chain_congr (h : t.chain = s.chain) : t.chainDue.chain = s.chainDue.chain := by
  unfold State.chainDue
  rw [h]
  cases s.chain.lenNext with
  | none => exact h
  | some x =>
    dsimp only
    split
    · rfl
    · exact h

/-- The chain part after a response: settings that are due take effect, and the response stands in it. -/
theorem State.respond_chain (s : State) (head : BitVec 64) (c : Code) (data : Word) (more : List Word) (delay : Nat) :
    ∃ r, (s.respond head c data more delay).chain = s.chainDue.chain.withResp r head c := by
  unfold State.respond
  dsimp only
  rw [State.chainDue_chain_congr (s.setReg_chain 0 0x047 (s.lastWord head c))]
  exact ⟨_, rfl⟩

/-- CH_STAT shows no part of a response. -/
theorem State.respond_chStat (s : State) (head : BitVec 64) (c : Code) (data : Word) (more : List Word) (delay : Nat) :
    (s.respond head c data more delay).chStat = s.chainDue.chStat := by
  obtain ⟨r, e⟩ := s.respond_chain head c data more delay
  rw [State.chStat, e]
  rfl

/-- A slot that a row names runs when slots are executed and none waits for the peer (R300, R323), in a frame of its own. -/
theorem State.slotAlone_ownFrame (on : s.chainOn = true) (idle : s.hinge.mirror = none) (run : State → State) :
    s.slotAlone run = run s.ownFrame := by
  simp [State.slotAlone, State.chainBusy, on, idle]

/-- It runs on the state as it is when no setting of the chain waits (R328). -/
theorem State.slotAlone_executes (on : s.chainOn = true) (idle : s.hinge.mirror = none) (due : s.chain.lenNext = none)
    (run : State → State) : s.slotAlone run = run s := by
  rw [State.slotAlone_ownFrame on idle, State.ownFrame, due]

/-- Without a position, DCLK or the end of Gesso nothing is executed (R300, R313). -/
theorem State.slotAlone_off (off : s.chainOn = false) (run : State → State) : s.slotAlone run = s := by
  simp [State.slotAlone, off]

/-- While a mirrored write waits for the peer a slot is discarded and counted (R323). -/
theorem State.slotAlone_busy (on : s.chainOn = true) (busy : s.hinge.mirror.isSome = true) (run : State → State) :
    s.slotAlone run = s.discardSlot := by
  simp [State.slotAlone, State.chainBusy, on, busy]

end

/-! ### Single writes (R318 to R323) -/

variable {s : State} {i : Instr} {w : BitVec 12} {d : Word}

/-- A command that is one single WRITE writes its word. -/
theorem exec_singleWrite (s : State) (h : singleWrite i = some (w, d)) : exec i s = .next (s.writeWord w d) := by
  unfold singleWrite at h
  split at h <;> cases h <;> rfl

/-- Settles O6: a refused write is a response of its code, and a response changes the chain part and CH_LASTST alone. -/
theorem refusedWriteOnlyAnswers : Obligations.RefusedWriteOnlyAnswers := by
  intro i w d c s single refused _
  refine ⟨_, exec_singleWrite s single, ?_⟩
  rw [s.writeWord_refuses w d c refused]
  exact ⟨s.respond_answers .., s.respond_sameButChain s.chain ..⟩

/-- Settles O7: a taken write is applied and answered, and is applied alone when the position went with it. -/
theorem acceptedWriteAnswersOk : Obligations.AcceptedWriteAnswersOk := by
  intro i w d s single taken
  refine ⟨_, exec_singleWrite s single, ?_⟩
  rw [s.writeWord_takes w d taken]
  generalize s.applyWrite [(w.toNat, d)] [] = u
  refine ⟨fun placed => ⟨u.answerWrite_answers _ _ _ placed, ?_⟩, fun lost => ?_⟩
  · rw [State.answerWrite, if_pos placed]
    exact u.respond_sameButChain u.chain ..
  · rw [State.answerWrite, if_neg (by simp [lost])]

/-- A discarded slot is counted in CH_ERR2_BUSY, and changes nothing else (R323). -/
theorem State.discardSlot_counts (s : State) : s.discardSlot = { s with regs := s.discardSlot.regs } ∧
    s.regsSameBut s.discardSlot [(0, 0x046)] ∧
    s.discardSlot.rd Reg.CH_ERR2_BUSY = min (s.rd Reg.CH_ERR2_BUSY + 1) 0xFFFF :=
  ⟨s.wr_frame .., s.wr_regsSameBut _ _ _ (by decide), s.rd_incSat _ _ (by decide)⟩

/-- A single mirrored write that passes the checks, in a pair that is engaged or degraded, is not applied: it waits for the peer
(R249), or is refused (R250). -/
theorem State.writeWord_mirrored (ready : s.slotReady = true) (passes : s.checkWrite w.toNat [d] true = none)
    (mirrored : mirroredWrite w.toNat d = true) :
    (s.hinge.state = .engaged → ∃ m : MirrorWait, m.addr = w ∧ m.data = [d] ∧
      s.writeWord w d = ({ s with hinge := { s.hinge with mirror := some m } } : State).emit (.hinge (.mirror w m.inst [d]))) ∧
    (s.hinge.state = .degraded →
      s.writeWord w d = s.respond (slotHead 2 w d) Code.mirror 0 [] (accessTime true w.toNat 1 true)) := by
  obtain ⟨-, -, len, due⟩ := s.slotReady_iff.mp ready
  have one : (s.chain.len == 0 && [d].length == 1) = true := by simp [len]
  have found : (writeWords w.toNat [d]).findIdx? (fun x => mirroredWrite x.1 x.2) = some 0 := by
    simp [writeWords_one, mirrored]
  simp only [State.writeWord, State.writeBits, s.slotAlone_runs ready, State.runWrite, one, s.chainDue_eq due, passes, found]
  refine ⟨fun engaged => ?_, fun degraded => ?_⟩
  · simp only [engaged]
    exact ⟨_, rfl, rfl, rfl⟩
  · simp only [degraded, if_true]
    rfl

/-- Settles O8: off the chain nothing, behind a waiting write a count, in a pair a forwarding or E_MIRROR. -/
theorem writeIsNotAppliedHere : Obligations.WriteIsNotAppliedHere := by
  refine ⟨fun i w d s single => ⟨fun off => ?_, fun on busy => ?_⟩,
    fun i w d s single ready passes mirrored => ⟨fun engaged => ?_, fun degraded => ?_⟩⟩
  · rw [exec_singleWrite s single, State.writeWord, State.writeBits, State.slotAlone_off off]
  · refine ⟨s.discardSlot, ?_, s.discardSlot_counts⟩
    rw [exec_singleWrite s single, State.writeWord, State.writeBits, State.slotAlone_busy on busy]
  · obtain ⟨m, addr, data, forwarded⟩ := (State.writeWord_mirrored ready passes mirrored).1 engaged
    exact ⟨_, m, (exec_singleWrite s single).trans (congrArg _ forwarded), rfl, addr, data, rfl⟩
  · have refused := (State.writeWord_mirrored ready passes mirrored).2 degraded
    exact ⟨_, (exec_singleWrite s single).trans (congrArg _ refused), s.respond_answers .., s.respond_sameButChain s.chain ..⟩

end Sys2Proof.Machine
end

section
namespace Sys2Proof.Machine

/-! ### Heads of slots (R306)

A head is used but for its last byte, the CRC-8: what a slot does and what its response repeats is read from the bits above. -/

/-- The bits of a head above its CRC-8. -/
abbrev headMask : BitVec 64 := 0xFFFFFFFFFFFFFF00#64

/-- A field above the CRC-8 reads the same in the masked head. -/
theorem head_field_masked (h : BitVec 64) (n k : Nat) (above : (headMask >>> n).setWidth k = BitVec.allOnes k) :
    ((h &&& headMask) >>> n).setWidth k = (h >>> n).setWidth k := by
  rw [BitVec.ushiftRight_and_distrib, BitVec.setWidth_and, above, BitVec.and_allOnes]

theorem slotOp_masked (h : BitVec 64) : slotOp (h &&& headMask) = slotOp h := head_field_masked h 60 4 (by decide)

theorem headAddr_masked (h : BitVec 64) : headAddr (h &&& headMask) = headAddr h := head_field_masked h 44 12 (by decide)

theorem slotData_masked (h : BitVec 64) : slotData (h &&& headMask) = slotData h := head_field_masked h 12 32 (by decide)

/-- The bits of an append above its lower part are those of its upper part. -/
theorem append_shiftRight_add {m n : Nat} (x : BitVec m) (y : BitVec n) (k j : Nat) :
    ((x ++ y) >>> (n + k)).setWidth j = (x >>> k).setWidth j := by
  ext i hi
  simp [BitVec.getLsbD_append, Nat.add_assoc]

/-- The lowest bits of an append are its lower part. -/
theorem append_setWidth {m n : Nat} (x : BitVec m) (y : BitVec n) : ((x ++ y) >>> 0).setWidth n = y := by
  ext i hi
  simp [BitVec.getLsbD_append, hi]

section

variable (op : BitVec 4) (addr : BitVec 12) (data : Word)

theorem slotData_slotHead : slotData (slotHead op addr data) = data :=
  (append_shiftRight_add _ 0#12 0 32).trans (append_setWidth _ data)

theorem headAddr_slotHead : headAddr (slotHead op addr data) = addr :=
  (append_shiftRight_add _ 0#12 32 12).trans ((append_shiftRight_add _ data 0 12).trans (append_setWidth _ addr))

theorem slotOp_slotHead : slotOp (slotHead op addr data) = op :=
  calc slotOp (slotHead op addr data)
    _ = ((op ++ 0#4 ++ addr ++ data) >>> 48).setWidth 4 := append_shiftRight_add _ 0#12 48 4
    _ = ((op ++ 0#4 ++ addr) >>> 16).setWidth 4 := append_shiftRight_add _ data 16 4
    _ = ((op ++ 0#4) >>> 4).setWidth 4 := append_shiftRight_add _ addr 4 4
    _ = (op >>> 0).setWidth 4 := append_shiftRight_add _ 0#4 0 4
    _ = op := by simp

end

/-! ### Slots do not depend on the CRC-8 of their head -/

section

variable (s : State) (h : BitVec 64)

/-- A response repeats no bit of the CRC-8 of its slot (R310, R330). -/
theorem State.respond_masked (c : Code) (d : Word) (more : List Word) (delay : Nat) :
    s.respond (h &&& headMask) c d more delay = s.respond h c d more delay := by
  have op : respOp (h &&& headMask) c = respOp h c := ite_congr rfl (fun _ => rfl) fun _ => slotOp_masked h
  have tag : respTag (h &&& headMask) c = respTag h c :=
    ite_congr rfl (fun _ => rfl) fun _ => head_field_masked h 58 2 (by decide)
  have last : s.lastWord (h &&& headMask) c = s.lastWord h c := by
    rw [State.lastWord, State.lastWord, op, tag]
    exact congrArg _ (congrArg _ (headAddr_masked h))
  have logged : h &&& headMask &&& ~~~0xFF#64 = h &&& ~~~0xFF#64 := by
    rw [BitVec.and_assoc]
    rfl
  simp only [State.respond, Chain.withResp, op, tag, last, logged]

theorem State.runNop_masked : s.runNop (h &&& headMask) = s.runNop h := by
  rw [State.runNop, State.respond_masked, State.runNop]

theorem State.runRead_masked (addr : BitVec 12) (count : Nat) : s.runRead (h &&& headMask) addr count = s.runRead h addr count := by
  simp only [State.runRead, State.readSingle, State.readBurst, State.respond_masked]

theorem State.runSelect_masked (d : Word) : s.runSelect (h &&& headMask) d = s.runSelect h d := by
  simp only [State.runSelect, State.respond_masked]

theorem State.runAssign_masked (d : Word) : s.runAssign (h &&& headMask) d = s.runAssign h d := by
  simp only [State.runAssign, State.respond_masked]

/-- Apart from a write that an engaged pair keeps waiting with its whole head, neither does a WRITE. -/
theorem State.runWrite_masked (due : s.chain.lenNext = none) (apart : s.hinge.state ≠ .engaged) (addr : BitVec 12)
    (data : List Word) (bits : List Bool) : s.runWrite (h &&& headMask) addr data bits = s.runWrite h addr data bits := by
  simp only [State.runWrite, s.chainDue_eq due, apart, if_false, State.answerWrite, State.respond_masked]

theorem State.runSlot_masked (due : s.chain.lenNext = none) (apart : s.hinge.state ≠ .engaged) (more : List Word) :
    s.runSlot (h &&& headMask) more = s.runSlot h more := by
  unfold State.runSlot
  rw [slotOp_masked, headAddr_masked, slotData_masked]
  dsimp only
  split
  · exact s.runRead_masked ..
  · exact s.runWrite_masked h due apart ..
  · exact s.runSelect_masked ..
  · exact s.runAssign_masked ..
  · rfl
  · exact s.runNop_masked h

end

/-- A chain reset, named in PW_RSTSTAT_LAST (R326). -/
def State.chainCleared (s : State) : State := s.chainReset.wr Reg.PW_RSTSTAT_LAST 10

/-- CHAINRST resets the chain, and the reset response stands in the stage (R326). -/
theorem State.runSlot_chainrst (s : State) (d : Word) (more : List Word) : s.runSlot (slotHead 5 0 d) more =
    { s.chainCleared with chain := s.chainCleared.chain.load (s.chainCleared.resetResponse.bits false 0) } := by
  rw [State.runSlot, slotOp_slotHead]
  rfl

/-! ### Rows that execute a slot (R308) -/

section

variable {s : State} (on : s.chainOn = true) (idle : s.hinge.mirror = none) (due : s.chain.lenNext = none)
include on idle due

/-- A slot of the length that CH_LEN_K gives is executed (R309). -/
theorem State.slotLong_executes {n : Nat} (long : n = max 1 s.chain.len) (head : BitVec 64) (run : State → State) :
    s.slotLong head n run = run s := by
  rw [State.slotLong, State.slotAlone_executes on idle due, if_pos long]

/-- A slot of another length displaces its frame (R324). -/
theorem State.slotLong_rejects {n : Nat} (other : n ≠ max 1 s.chain.len) (head : BitVec 64) (run : State → State) :
    s.slotLong head n run = s.rejectCrc head s.chain.lengthChecked := by
  rw [State.slotLong, State.slotAlone_executes on idle due, if_neg other]

/-- The commands of slots execute the slot of their opcode. -/
theorem exec_chainRead_slot (addr : BitVec 12) (more : List Word) (long : more.length + 1 = max 1 s.chain.len) :
    exec (.chainRead addr (more.length + 1)) s = .next (s.runSlot (slotHead 1 addr 0) more) := by
  change Host.Outcome.next (s.chainRead addr (more.length + 1)) = _
  rw [State.chainRead, State.slotLong_executes on idle due long, State.runSlot, slotOp_slotHead, headAddr_slotHead]
  rfl

theorem exec_chainWrite_slot (addr : BitVec 12) (d : Word) (more : List Word) (long : more.length + 1 = max 1 s.chain.len) :
    exec (.chainWrite addr (d :: more)) s = .next (s.runSlot (slotHead 2 addr d) more) := by
  change Host.Outcome.next (s.chainWrite addr (d :: more)) = _
  rw [State.chainWrite, List.length_cons, State.slotLong_executes on idle due long, State.runSlot, slotOp_slotHead,
    headAddr_slotHead, slotData_slotHead]
  rfl

theorem exec_chainSelect_slot (d : Word) (more : List Word) :
    exec (.chainSelect d) s = .next (s.runSlot (slotHead 3 0 d) more) := by
  change Host.Outcome.next (s.slotAlone _) = _
  rw [State.slotAlone_executes on idle due, State.runSlot, slotOp_slotHead, slotData_slotHead]
  rfl

theorem exec_chainAssign_slot (assigned : s.chain.assigned = true) (d : Word) (more : List Word) :
    exec (.chainAssign d) s = .next (s.runSlot (slotHead 4 0 d) more) := by
  change execChainAssign d s = _
  rw [execChainAssign, if_pos assigned, State.slotAlone_executes on idle due, State.runSlot, slotOp_slotHead, slotData_slotHead]
  rfl

theorem exec_chainrst_slot (more : List Word) : exec .chainrst s = .next (s.runSlot (slotHead 5 0 0xC5) more) := by
  change Host.Outcome.next (s.slotAlone _) = _
  rw [State.slotAlone_executes on idle due, State.runSlot_chainrst, State.runSlot_chainrst]

end

end Sys2Proof.Machine
end

section
namespace Sys2Proof.Machine

/-! ### What the chain part and the registers keep -/

section

variable {s t u : State} {l m : List (Nat × Nat)}

/-- Words that two updates in turn leave alone, both leave alone. -/
theorem State.regsSameBut_trans (h : s.regsSameBut t l) (k : t.regsSameBut u m) : s.regsSameBut u (l ++ m) := by
  intro i w hw other
  rw [List.mem_append, not_or] at other
  rw [k i w hw other.2, h i w hw other.1]

/-- Settings that are due change the settings in force, and nothing else (R328). -/
theorem State.chainDue_settings (s : State) : ∃ k n f x,
    s.chainDue = { s with chain := { s.chain with len := k, ndev := n, frmfull := f, lenNext := x } } := by
  unfold State.chainDue
  split
  · split
    · exact ⟨_, _, _, _, rfl⟩
    · exact ⟨s.chain.len, s.chain.ndev, s.chain.frmfull, s.chain.lenNext, rfl⟩
  · exact ⟨s.chain.len, s.chain.ndev, s.chain.frmfull, s.chain.lenNext, rfl⟩

/-- CH_STAT shows the settings in force, which a second look does not change. -/
theorem State.chainDue_chainDue (s : State) : s.chainDue.chainDue = s.chainDue := by
  by_cases wait : s.chain.lenWait = 0
  · apply State.chainDue_eq
    unfold State.chainDue
    split
    · rw [if_pos wait]
    · assumption
  · have stays (v : State) (h : v.chain.lenWait ≠ 0) : v.chainDue = v := by
      unfold State.chainDue
      split
      · rw [if_neg h]
      · rfl
    rw [stays s wait, stays s wait]

variable (s) (head : BitVec 64) (c : Code) (data : Word) (more : List Word) (delay : Nat)

theorem State.respond_inFrame : (s.respond head c data more delay).chain.inFrame = s.chain.inFrame := by
  obtain ⟨r, e⟩ := s.respond_chain head c data more delay
  obtain ⟨k, n, f, x, settings⟩ := s.chainDue_settings
  rw [e, settings]
  rfl

theorem State.respond_regsSameBut : s.regsSameBut (s.respond head c data more delay) [(0, 0x047)] :=
  (s.respond_sameButChain s.chain head c data more delay).2

/-- A response leaves every field but those of CH_LASTST. -/
theorem State.rd_respond (f : Fld) (i : Nat) (other : i * 4096 + f.word ≠ 0x047) :
    (s.respond head c data more delay).rd f i = s.rd f i := by
  rw [State.rd, State.rd, s.respond_reg head c data more delay i f.word other]

theorem State.raiseEvent_chain (n detail : Nat) (port : Option Nat) : (s.raiseEvent n detail port).chain = s.chain := by
  obtain ⟨t, x, records, e⟩ := s.raiseEvent_eq n detail port
  rw [e]
  exact records.chain

/-- A slot that fails its CRC or the length of its frame is counted and answered E_CRC (R318, R319). -/
theorem State.rejectCrc_answers (length : Bool) : (s.rejectCrc head length).answers Code.crc 0 ∧
    (s.rejectCrc head length).rd Reg.CH_ERR_CRC = min (s.rd Reg.CH_ERR_CRC + 1) 0xFFFF ∧
    (s.rejectCrc head length).chain.inFrame = s.chain.inFrame := by
  have counted : ((s.incSat Reg.CH_ERR_CRC).incSat Reg.CH_ERR_FRM).rd Reg.CH_ERR_CRC = (s.incSat Reg.CH_ERR_CRC).rd Reg.CH_ERR_CRC :=
    State.rd_wr_apart _ _ _ _ _ _ rfl (by decide) (by decide)
  unfold State.rejectCrc
  refine ⟨State.respond_answers .., ?_, ?_⟩
  · rw [State.rd_respond _ _ _ _ _ _ _ _ (by decide), State.rd_raiseEvent _ _ _ _ _ _ (by decide) (by decide)]
    cases length with
    | false => exact s.rd_incSat _ _ (by decide)
    | true => exact counted.trans (s.rd_incSat _ _ (by decide))
  · rw [State.respond_inFrame, State.raiseEvent_chain]
    cases length <;> rfl

end

/-! ### The beginning of a frame (R297, R304, R322) -/

section

variable {s : State} (clocked : s.clocked = true) (out : s.chain.inFrame = false)

variable (s) in
/-- Loading the stage moves the responses and counts an underrun. -/
theorem State.loadStage_loads : ∃ r stage dout resp prev,
    s.loadStage = { s with regs := r, chain := { s.chain with stage := stage, dout := dout, resp := resp, prev := prev } } := by
  unfold State.loadStage
  dsimp only
  split
  · split <;> exact ⟨_, _, _, _, _, rfl⟩
  · split
    · split <;> exact ⟨_, _, _, _, _, rfl⟩
    · split
      · exact ⟨_, _, _, _, _, rfl⟩
      · split
        · exact ⟨_, _, _, _, _, rfl⟩
        · split <;> exact ⟨_, _, _, _, _, rfl⟩

/-- The frame stands open over a loaded stage. -/
def State.openFrame (s : State) : State := { s with chain := { s.chain with inFrame := true, edges := 0, input := [] } }

include clocked out

/-- A frame that begins after CH_RSTN fell waits until it is high again (R298). -/
theorem State.frameBegin_after_reset {n : Nat} (low : s.chain.rstLow = some n) : s.frameBegin.chain.inFrame = true ∧
    s.frameBegin.chain.rstLow = none ∧ s.frameBegin.now = max s.now (n + 1664) := by
  obtain ⟨x, rise⟩ : ∃ x, s.rstRise = { s with now := max s.now (n + 1664), c := x, chain := { s.chain with rstLow := none } } := by
    obtain ⟨x, e⟩ := s.advance_eq (n + 1664)
    refine ⟨x, ?_⟩
    rw [State.rstRise, low]
    dsimp only
    rw [e]
  obtain ⟨k, d, f, y, settings⟩ := s.rstRise.chainDue_settings
  obtain ⟨r, stage, dout, resp, prev, load⟩ := s.rstRise.chainDue.loadStage_loads
  rw [State.frameBegin, if_neg (by simp [clocked, out]), load, settings, rise]
  exact ⟨rfl, rfl, rfl⟩

/-- With nothing that waits, a frame begins by loading the stage. -/
theorem State.frameBegin_loads (high : s.chain.rstLow = none) (due : s.chain.lenNext = none) :
    s.frameBegin = s.loadStage.openFrame := by
  have rise : s.rstRise = s := by rw [State.rstRise, high]
  rw [State.frameBegin, if_neg (by simp [clocked, out]), rise, s.chainDue_eq due]
  rfl

omit clocked out

/-- A response that is ready stands in the stage (R304). -/
theorem State.loadStage_ready (assigned : s.chain.assigned = true) (full : s.chain.mode = .full) {r : Resp}
    (ready : s.respReady = some r) : s.loadStage =
      { s with chain := ({ s.chain with resp := none, prev := some r } : Chain).load (r.bits false s.chain.len) } := by
  simp only [State.loadStage, ready, full, assigned, ChMode.oneBit]
  rfl

/-- One that is not gives way to the one before it, with UNDERRUN (R322). -/
theorem State.loadStage_underrun (assigned : s.chain.assigned = true) (full : s.chain.mode = .full) {r : Resp}
    (late : s.respReady = none) (waits : s.chainPending = true) (prev : s.chain.prev = some r) : s.loadStage =
      { s.incSat Reg.CH_ERR2_UNDER with chain := s.chain.load (r.bits true s.chain.len) } := by
  simp only [State.loadStage, late, waits, full, assigned, prev, ChMode.oneBit, State.incSat_eq, State.wr_chain]
  rfl

end

end Sys2Proof.Machine
end

section
namespace Sys2Proof.Machine

/-! ### The end of a frame (R297, R300, R305, R318) -/

section

variable {s : State} {h : BitVec 64} {ws : List Word}

/-- CH_SEL has risen. -/
def State.closeFrame (s : State) : State :=
  { s with chain := { s.chain with inFrame := false, lenWait := s.chain.lenWait - 1 } }

/-- The frame has ended and is counted: its slot is still to be taken. -/
def State.endedFrame (s : State) : State := s.closeFrame.incWrap Reg.CH_CNT_FRAMES

theorem State.endedFrame_regsSameBut (s : State) : s.regsSameBut s.endedFrame [(0, 0x044)] :=
  s.closeFrame.wr_regsSameBut Reg.CH_CNT_FRAMES _ 0 (by decide)

/-- CH_CNT_FRAMES counts it, and wraps. -/
theorem State.endedFrame_frames (s : State) : s.endedFrame.rd Reg.CH_CNT_FRAMES = (s.rd Reg.CH_CNT_FRAMES + 1) % 2 ^ 32 :=
  s.closeFrame.rd_wr_self Reg.CH_CNT_FRAMES _ 0 (by decide)

theorem State.endedFrame_errors (s : State) : s.endedFrame.rd Reg.CH_ERR_CRC = s.rd Reg.CH_ERR_CRC :=
  s.closeFrame.rd_wr_word Reg.CH_ERR_CRC Reg.CH_CNT_FRAMES _ 0 0 (by decide) (by decide) (by decide)

/-- A NOP answers CH_STAT (R308, R320). -/
theorem State.runNop_answers (s : State) (head : BitVec 64) : (s.runNop head).answers Code.ok (s.runNop head).chStat := by
  have stat : (s.runNop head).chStat = s.chainDue.chStat := by
    rw [State.runNop, State.respond_chStat, State.chainDue_chainDue]
  rw [stat]
  exact State.respond_answers ..

theorem State.runNop_sameButChain (s : State) (head : BitVec 64) : s.sameButChain (s.runNop head) := by
  obtain ⟨k, n, f, x, settings⟩ := s.chainDue_settings
  rw [State.runNop, settings]
  exact s.respond_sameButChain ..

theorem State.runNop_inFrame (s : State) (head : BitVec 64) : (s.runNop head).chain.inFrame = s.chain.inFrame := by
  obtain ⟨k, n, f, x, settings⟩ := s.chainDue_settings
  rw [State.runNop, State.respond_inFrame, settings]

/-- NOP, RESP and every opcode without an operation run as a NOP. -/
theorem State.runSlot_nop (op : slotOp h = 0 ∨ slotOp h = 15) (more : List Word) : s.runSlot h more = s.runNop h := by
  rcases op with op | op <;> (rw [State.runSlot, op]; rfl)

/-- A frame ends by its slot, or as one without edges. -/
theorem State.frameEnd_closes (clocked : s.clocked = true) (open_ : s.chain.inFrame = true) :
    s.frameEnd = if s.chain.edges = 0 then s.closeFrame.chainDue.emptyEnd else s.endedFrame.takeSlot := by
  rw [State.frameEnd, if_neg (by simp [clocked, open_])]
  rfl

/-- A frame without edges returns the device to Full mode (R305). -/
theorem State.frameEnd_empty (clocked : s.clocked = true) (open_ : s.chain.inFrame = true) (empty : s.chain.edges = 0)
    (due : s.chain.lenNext = none) (assigned : s.chain.assigned = true) :
    s.frameEnd.chain.mode = .full ∧ s.frameEnd.chain.target = 0xFF ∧ s.frameEnd.chain.inFrame = false := by
  have placed : s.closeFrame.chain.assigned = true := assigned
  rw [State.frameEnd_closes clocked open_, if_pos empty, s.closeFrame.chainDue_eq due, State.emptyEnd, if_pos placed]
  exact ⟨rfl, rfl, rfl⟩

section

variable (clocked : s.clocked = true) (open_ : s.chain.inFrame = true) (edges : s.chain.edges ≠ 0)
  (assigned : s.chain.assigned = true) (full : s.chain.mode = .full) (gesso : s.boot.stage ≠ .gesso)
  (idle : s.chainPending = false) (slot : slotOf s.chain.slotBits = (h, ws))
include clocked open_ edges assigned full gesso idle slot

/-- The slot of a frame with edges fails its CRC or the length, is not well formed, or is executed (R318). -/
theorem State.frameEnd_takes : s.frameEnd =
    if s.chain.lengthBad || !slotCrcOk h ws then s.endedFrame.rejectCrc h s.chain.lengthBad
    else if !slotWellFormed h ws then s.endedFrame.respond h Code.value 0 [] 48
    else s.endedFrame.runSlot h ws.dropLast := by
  have slot' : slotOf s.endedFrame.chain.slotBits = (h, ws) := slot
  have assigned' : s.endedFrame.chain.assigned = true := assigned
  have full' : s.endedFrame.chain.mode = .full := full
  have bits : s.endedFrame.clearBit = s.endedFrame := by rw [State.clearBit, full']; rfl
  have gesso' : s.endedFrame.boot.stage ≠ .gesso := gesso
  have idle' : s.endedFrame.chainPending = false := idle
  have length : s.endedFrame.chain.lengthBad = s.chain.lengthBad := rfl
  rw [State.frameEnd_closes clocked open_, if_neg edges, State.takeSlot]
  simp only [slot', bits, assigned', full', gesso', idle', length]
  rfl

theorem State.frameEnd_rejects (bad : s.chain.lengthBad = true ∨ slotCrcOk h ws = false) :
    s.frameEnd = s.endedFrame.rejectCrc h s.chain.lengthBad := by
  rw [State.frameEnd_takes clocked open_ edges assigned full gesso idle slot, if_pos]
  rcases bad with bad | bad <;> simp [bad]

theorem State.frameEnd_malformed (length : s.chain.lengthBad = false) (crc : slotCrcOk h ws = true)
    (formed : slotWellFormed h ws = false) : s.frameEnd = s.endedFrame.respond h Code.value 0 [] 48 := by
  rw [State.frameEnd_takes clocked open_ edges assigned full gesso idle slot, if_neg (by simp [length, crc]),
    if_pos (by simp [formed])]

theorem State.frameEnd_runs (length : s.chain.lengthBad = false) (crc : slotCrcOk h ws = true)
    (formed : slotWellFormed h ws = true) : s.frameEnd = s.endedFrame.runSlot h ws.dropLast := by
  rw [State.frameEnd_takes clocked open_ edges assigned full gesso idle slot, if_neg (by simp [length, crc]),
    if_neg (by simp [formed])]

/-- A frame executes its slot as the row of its opcode does: the slot of the head without its CRC-8 (R308). -/
theorem exec_frameEnd_slot (length : s.chain.lengthBad = false) (crc : slotCrcOk h ws = true) (formed : slotWellFormed h ws = true)
    (due : s.chain.lenNext = none) (apart : s.hinge.state ≠ .engaged) {head : BitVec 64} (row : h &&& headMask = head) :
    exec .frameEnd s = .next (s.endedFrame.runSlot head ws.dropLast) := by
  change Host.Outcome.next s.frameEnd = _
  rw [State.frameEnd_runs clocked open_ edges assigned full gesso idle slot length crc formed, ← row,
    s.endedFrame.runSlot_masked h due apart]

end

end

end Sys2Proof.Machine
end

section
namespace Sys2Proof.Machine

/-! ### The obligation of frames -/

section

variable {s : State}

/-- An edge inside a frame shifts the stage by one bit (R296, R297). -/
theorem exec_chClkRisingEdge_inside (clocked : s.clocked = true) (open_ : s.chain.inFrame = true) (b : Bool) :
    exec (.chClkRisingEdge b) s = .next { s with chain := s.chain.shift b } :=
  congrArg Host.Outcome.next (if_pos (by simp [clocked, open_]))

theorem exec_chClkRisingEdge_outside (out : s.chain.inFrame = false) (b : Bool) : exec (.chClkRisingEdge b) s = .next s :=
  congrArg Host.Outcome.next (if_neg (by simp [out]))

/-- An empty frame returns the device to Full mode (R305). -/
theorem exec_emptyFrame_full (clocked : s.clocked = true) (out : s.chain.inFrame = false) (high : s.chain.rstLow = none)
    (due : s.chain.lenNext = none) (assigned : s.chain.assigned = true) :
    ∃ t, exec .emptyFrame s = .next t ∧ t.chain.mode = .full ∧ t.chain.target = 0xFF ∧ t.chain.inFrame = false := by
  obtain ⟨r, stage, dout, resp, prev, load⟩ := s.loadStage_loads
  refine ⟨_, congrArg Host.Outcome.next (if_neg (by simp [out])), ?_⟩
  rw [State.frameBegin_loads clocked out high due, load]
  exact State.frameEnd_empty clocked rfl rfl due assigned

/-- A response is ready when its time has passed (R322). -/
theorem exec_responseReady_ready (clocked : s.clocked = true) {r : Resp} (waits : s.chain.resp = some r) :
    ∃ t, exec .responseReady s = .next t ∧ t.now = max s.now r.readyAt ∧ t.chain.resp = some { r with ready := true } ∧
      t.regs = s.regs := by
  have done : exec .responseReady s = .next
      { s.advance r.readyAt with chain := { (s.advance r.readyAt).chain with resp := some { r with ready := true } } } := by
    change execResponseReady s = _
    simp only [execResponseReady, waits, clocked]
    rfl
  exact ⟨_, done, s.advance_now _, rfl, s.advance_regs _⟩

section

variable (clocked : s.clocked = true) (out : s.chain.inFrame = false) (high : s.chain.rstLow = none)
  (due : s.chain.lenNext = none) (assigned : s.chain.assigned = true) (full : s.chain.mode = .full) {r : Resp}
include clocked out high due assigned full

/-- A frame begins with the response when it is ready (R304). -/
theorem exec_frameBegin_ready (ready : s.respReady = some r) : ∃ t, exec .frameBegin s = .next t ∧ t.chain.inFrame = true ∧
    t.chain.edges = 0 ∧ t.chain.stage = r.bits false s.chain.len ∧ t.chain.resp = none ∧ t.chain.prev = some r ∧
    t.regs = s.regs := by
  refine ⟨_, rfl, ?_⟩
  rw [State.frameBegin_loads clocked out high due, State.loadStage_ready assigned full ready]
  exact ⟨rfl, rfl, rfl, rfl, rfl, rfl⟩

/-- While the response waits a frame begins with the one before it, and CH_ERR2_UNDER counts it (R322). -/
theorem exec_frameBegin_underrun (late : s.respReady = none) (waits : s.chainPending = true) (prev : s.chain.prev = some r) :
    ∃ t, exec .frameBegin s = .next t ∧ t.chain.inFrame = true ∧ t.chain.stage = r.bits true s.chain.len ∧
      t.chain.resp = s.chain.resp ∧ t.rd Reg.CH_ERR2_UNDER = min (s.rd Reg.CH_ERR2_UNDER + 1) 0xFFFF := by
  refine ⟨_, rfl, ?_⟩
  rw [State.frameBegin_loads clocked out high due, State.loadStage_underrun assigned full late waits prev]
  exact ⟨rfl, rfl, rfl, s.rd_incSat Reg.CH_ERR2_UNDER 0 (by decide)⟩

end

section

variable {h : BitVec 64} {ws : List Word} (clocked : s.clocked = true) (open_ : s.chain.inFrame = true) (edges : s.chain.edges ≠ 0)
  (assigned : s.chain.assigned = true) (full : s.chain.mode = .full) (gesso : s.boot.stage ≠ .gesso)
  (idle : s.chainPending = false) (slot : slotOf s.chain.slotBits = (h, ws))
include clocked open_ edges assigned full gesso idle slot

/-- A frame that carries a NOP answers CH_STAT and is counted (R308, R320). -/
theorem exec_frameEnd_nop (length : s.chain.lengthBad = false) (crc : slotCrcOk h ws = true) (formed : slotWellFormed h ws = true)
    (op : slotOp h = 0 ∨ slotOp h = 15) : ∃ t, exec .frameEnd s = .next t ∧ t.chain.inFrame = false ∧
      t.answers Code.ok t.chStat ∧ t.rd Reg.CH_CNT_FRAMES = (s.rd Reg.CH_CNT_FRAMES + 1) % 2 ^ 32 ∧
      s.regsSameBut t [(0, 0x044), (0, 0x047)] := by
  have done : exec .frameEnd s = .next (s.endedFrame.runNop h) := by
    change Host.Outcome.next s.frameEnd = _
    rw [State.frameEnd_runs clocked open_ edges assigned full gesso idle slot length crc formed, State.runSlot_nop op]
  have regs := (s.endedFrame.runNop_sameButChain h).2
  have frames : (s.endedFrame.runNop h).rd Reg.CH_CNT_FRAMES = s.endedFrame.rd Reg.CH_CNT_FRAMES :=
    congrArg Reg.CH_CNT_FRAMES.get (regs 0 0x044 (by decide) (by decide))
  exact ⟨_, done, s.endedFrame.runNop_inFrame h, s.endedFrame.runNop_answers h, frames.trans s.endedFrame_frames,
    State.regsSameBut_trans s.endedFrame_regsSameBut regs⟩

/-- A frame whose slot is not well formed answers E_VALUE (R318). -/
theorem exec_frameEnd_malformed (length : s.chain.lengthBad = false) (crc : slotCrcOk h ws = true)
    (formed : slotWellFormed h ws = false) : ∃ t, exec .frameEnd s = .next t ∧ t.chain.inFrame = false ∧
      t.answers Code.value 0 ∧ s.regsSameBut t [(0, 0x044), (0, 0x047)] := by
  have done := State.frameEnd_malformed clocked open_ edges assigned full gesso idle slot length crc formed
  have regs := s.endedFrame.respond_regsSameBut h Code.value 0 [] 48
  refine ⟨_, congrArg Host.Outcome.next done, ?_, State.respond_answers .., State.regsSameBut_trans s.endedFrame_regsSameBut regs⟩
  rw [State.respond_inFrame]
  rfl

/-- A frame whose CRC or length does not hold answers E_CRC and is counted (R318, R319). -/
theorem exec_frameEnd_rejects (bad : s.chain.lengthBad = true ∨ slotCrcOk h ws = false) : ∃ t, exec .frameEnd s = .next t ∧
    t.chain.inFrame = false ∧ t.answers Code.crc 0 ∧ t.rd Reg.CH_ERR_CRC = min (s.rd Reg.CH_ERR_CRC + 1) 0xFFFF := by
  have done := State.frameEnd_rejects clocked open_ edges assigned full gesso idle slot bad
  obtain ⟨answer, counted, inFrame⟩ := s.endedFrame.rejectCrc_answers h s.chain.lengthBad
  exact ⟨_, congrArg Host.Outcome.next done, inFrame, answer, s.endedFrame_errors ▸ counted⟩

/-- A frame executes its slot as the row of its opcode does (R308). -/
theorem exec_frameEnd_rows (length : s.chain.lengthBad = false) (crc : slotCrcOk h ws = true) (formed : slotWellFormed h ws = true)
    (due : s.chain.lenNext = none) (apart : s.hinge.state ≠ .engaged) (long : ws.length = s.chain.len) (a : BitVec 12) (d : Word) :
    (h &&& headMask = slotHead 1 a 0 → exec .frameEnd s = exec (.chainRead a (ws.dropLast.length + 1)) s.endedFrame) ∧
    (h &&& headMask = slotHead 2 a d → exec .frameEnd s = exec (.chainWrite a (d :: ws.dropLast)) s.endedFrame) ∧
    (h &&& headMask = slotHead 3 0 d → exec .frameEnd s = exec (.chainSelect d) s.endedFrame) ∧
    (h &&& headMask = slotHead 4 0 d → exec .frameEnd s = exec (.chainAssign d) s.endedFrame) ∧
    (h &&& headMask = slotHead 5 0 0xC5 → exec .frameEnd s = exec .chainrst s.endedFrame) := by
  have runs {head : BitVec 64} (row : h &&& headMask = head) :=
    exec_frameEnd_slot clocked open_ edges assigned full gesso idle slot length crc formed due apart row
  have on : s.endedFrame.chainOn = true := by
    change (s.clocked && s.boot.stage != .gesso && s.chain.assigned && s.chain.mode != .bypassed) = true
    simp [clocked, gesso, assigned, full]
  have mirror : s.endedFrame.hinge.mirror = none := by
    change s.hinge.mirror = none
    simpa using (Bool.or_eq_false_iff.mp idle).2
  have words : ws.dropLast.length + 1 = max 1 s.endedFrame.chain.len := by
    change _ = max 1 s.chain.len
    rw [List.length_dropLast]
    omega
  exact ⟨fun row => (runs row).trans (exec_chainRead_slot on mirror due a _ words).symm,
    fun row => (runs row).trans (exec_chainWrite_slot on mirror due a d _ words).symm,
    fun row => (runs row).trans (exec_chainSelect_slot on mirror due d _).symm,
    fun row => (runs row).trans (exec_chainAssign_slot on mirror due assigned d _).symm,
    fun row => (runs row).trans (exec_chainrst_slot on mirror due _).symm⟩

end

end

/-- Settles O44: edges, the beginning, the end and the response of a frame, each by its own lemma. -/
theorem framesCarrySlots : Obligations.FramesCarrySlots := by
  unfold Obligations.FramesCarrySlots
  intro s clocked
  refine ⟨fun b open_ => ⟨_, exec_chClkRisingEdge_inside clocked open_ b, rfl, rfl, rfl, rfl, rfl⟩,
    fun b out => exec_chClkRisingEdge_outside out b, fun n out low => ⟨_, rfl, State.frameBegin_after_reset clocked out low⟩,
    fun out high due assigned full => ⟨fun r => exec_frameBegin_ready clocked out high due assigned full,
      fun r => exec_frameBegin_underrun clocked out high due assigned full,
      exec_emptyFrame_full clocked out high due assigned⟩,
    fun h ws open_ edges assigned full gesso idle slot => ⟨fun length crc formed => ⟨?_, ?_⟩, ?_, ?_⟩,
    fun r => exec_responseReady_ready clocked⟩
  · exact exec_frameEnd_nop clocked open_ edges assigned full gesso idle slot length crc formed
  · intro a d u due apart long ended
    rw [show u = s.endedFrame from ended]
    exact exec_frameEnd_rows clocked open_ edges assigned full gesso idle slot length crc formed due apart long a d
  · exact exec_frameEnd_malformed clocked open_ edges assigned full gesso idle slot
  · exact exec_frameEnd_rejects clocked open_ edges assigned full gesso idle slot

end Sys2Proof.Machine
end

section
namespace Sys2Proof.Machine

/-! ### What a SELECT says (R316) -/

/-- In Full mode a SELECT of one byte is taken when it names all, none, or a place of the chain. -/
theorem State.selectCode_full {s : State} {d : Word} {n : Nat} (full : s.chain.mode = .full) (byte : d.toNat < 256) :
    s.selectCode n d = Code.unless
      (decide (d.toNat = 254 ∨ d.toNat = 255 ∨ (d.toNat < 64 ∧ (n = 0 ∨ d.toNat < n)))) Code.position := by
  rw [State.selectCode, if_neg (by simp [full]), if_neg (by omega), Nat.mod_eq_of_lt byte]
  congr 1
  simp [Bool.or_assoc, Bool.decide_or, Bool.decide_and, Bool.beq_eq_decide_eq]

/-- The last byte of a word below 256 is the word. -/
theorem truncate_eq_iff {d : Word} (byte : d.toNat < 256) (p : BitVec 8) : d.truncate 8 = p ↔ d.toNat = p.toNat := by
  rw [BitVec.toNat_eq, BitVec.truncate_eq_setWidth, BitVec.toNat_setWidth, Nat.mod_eq_of_lt byte]

/-- The device that a SELECT has named. -/
def State.selectTo (s : State) (p : BitVec 8) : State := { s with chain := s.chain.select p }

theorem Chain.select_mode (c : Chain) {d : Word} (byte : d.toNat < 256) : (c.select (d.truncate 8)).mode =
    if d.toNat = 254 then .broadcast else if d.toNat = 255 then .full
    else if d.toNat = c.pos.toNat then .selected else .bypassed := by
  have pos : (c.pos.zeroExtend 8).toNat = c.pos.toNat := by
    rw [BitVec.toNat_setWidth]
    exact Nat.mod_eq_of_lt (by omega)
  simp only [Chain.select, truncate_eq_iff byte, pos]
  rfl

/-! ### Slots of a row (R308, R309, R316 to R321) -/

section

variable {s : State} (on : s.chainOn = true) (idle : s.hinge.mirror = none) (due : s.chain.lenNext = none)
include on idle due

theorem exec_chainNop_answers : ∃ t, exec .chainNop s = .next t ∧ t.answers Code.ok s.chStat ∧ s.sameButChain t := by
  have done : exec .chainNop s = .next (s.runNop (slotHead 0 0 0)) := by
    change Host.Outcome.next _ = _
    rw [if_neg (by simp [State.chainBusy, idle]), State.slotAlone_executes on idle due]
  refine ⟨_, done, ?_, s.runNop_sameButChain _⟩
  rw [State.runNop, s.chainDue_eq due]
  exact s.respond_answers ..

/-- A READ of one word is that of the row that names the word. -/
theorem exec_chainRead_answers {addr : BitVec 12} (read : s.takesRead addr.toNat = true) :
    ∃ t, exec (.chainRead addr 1) s = .next t ∧ t.answers Code.ok (s.readValue false (s.selOf addr.toNat) addr.toNat) := by
  have ready : s.slotReady = true := by
    unfold State.takesRead at read
    simp only [Bool.and_eq_true] at read
    obtain ⟨⟨⟨⟨ready, -⟩, -⟩, -⟩, -⟩ := read
    exact ready
  obtain ⟨-, -, len, -⟩ := s.slotReady_iff.mp ready
  have done : s.chainRead addr 1 = s.readWord addr := by
    rw [State.chainRead, State.slotLong_executes on idle due (by rw [len]; rfl), State.readWord,
      State.slotAlone_executes on idle due]
  refine ⟨_, congrArg Host.Outcome.next (done.trans (s.readWord_takes addr read)), State.respond_answers ..⟩

/-- A READ or WRITE of another length than CH_LEN_K gives answers E_CRC (R324). -/
theorem State.slotLong_answers {n : Nat} (other : n ≠ max 1 s.chain.len) (head : BitVec 64) (run : State → State) :
    (s.slotLong head n run).answers Code.crc 0 ∧
    (s.slotLong head n run).rd Reg.CH_ERR_CRC = min (s.rd Reg.CH_ERR_CRC + 1) 0xFFFF := by
  rw [State.slotLong_rejects on idle due other]
  obtain ⟨answer, counted, -⟩ := s.rejectCrc_answers head s.chain.lengthChecked
  exact ⟨answer, counted⟩

section

variable {addr : BitVec 12} {data : List Word} (long : data.length = max 1 s.chain.len)
include long

/-- A WRITE that a check refuses applies nothing (R318, R321). -/
theorem exec_chainWrite_refused {c : Code} {k : Nat}
    (refused : s.checkWrite addr.toNat data (s.chain.len == 0 && data.length == 1) = some (c, k)) :
    ∃ t, exec (.chainWrite addr data) s = .next t ∧ s.sameButChain t ∧
      t.answers c (if s.chain.len == 0 && data.length == 1 then 0 else BitVec.ofNat 32 k) := by
  refine ⟨_, rfl, ?_⟩
  rw [State.chainWrite, State.slotLong_executes on idle due long]
  simp only [State.runWrite, s.chainDue_eq due, refused]
  exact ⟨s.respond_sameButChain s.chain .., s.respond_answers ..⟩

/-- One that passes, and reaches no mirrored field, is applied and answered OK (R320, R321). -/
theorem exec_chainWrite_applied (passes : s.checkWrite addr.toNat data (s.chain.len == 0 && data.length == 1) = none)
    (own : ∀ x ∈ writeWords addr.toNat data, mirroredWrite x.1 x.2 = false) {u : State}
    (applied : u = s.applyWrite (writeWords addr.toNat data) []) (placed : u.chain.assigned = true) :
    ∃ t, exec (.chainWrite addr data) s = .next t ∧ u.sameButChain t ∧
      t.answers Code.ok (if s.chain.len == 0 && data.length == 1 then u.afterWrite addr.toNat else 0) := by
  have none : (writeWords addr.toNat data).findIdx? (fun x => mirroredWrite x.1 x.2) = none := List.findIdx?_eq_none_iff.mpr own
  refine ⟨_, rfl, ?_⟩
  rw [State.chainWrite, State.slotLong_executes on idle due long]
  simp only [State.runWrite, s.chainDue_eq due, passes, none, ← applied, State.answerWrite, placed, if_true]
  exact ⟨u.respond_sameButChain u.chain .., u.respond_answers ..⟩

end

/-- A SELECT in Full mode that names a place, all or none changes the mode and answers CH_STAT (R316, R320). -/
theorem exec_chainSelect_selects {d : Word} (byte : d.toNat < 256) (full : s.chain.mode = .full)
    (named : d.toNat = 254 ∨ d.toNat = 255 ∨ (d.toNat < 64 ∧ (s.chain.ndev = 0 ∨ d.toNat < s.chain.ndev))) :
    ∃ t, exec (.chainSelect d) s = .next t ∧ t.answers Code.ok t.chStat ∧ s.sameButChain t ∧ t.chain.target = d.truncate 8 ∧
      t.chain.mode = (if d.toNat = 254 then .broadcast else if d.toNat = 255 then .full
        else if d.toNat = s.chain.pos.toNat then .selected else .bypassed) := by
  have code : s.selectCode s.chain.ndev d = Code.ok := by
    rw [State.selectCode_full full byte, Code.unless_eq_ok _ _ (by decide)]
    simpa using named
  have done : exec (.chainSelect d) s =
      .next ((s.selectTo (d.truncate 8)).respond (slotHead 3 0 d) Code.ok (s.selectTo (d.truncate 8)).chStat [] 48) := by
    change Host.Outcome.next _ = _
    rw [State.slotAlone_executes on idle due, State.runSelect]
    simp only [s.chainDue_eq due, code, ne_eq, not_true_eq_false, if_false]
    rfl
  have due' : (s.selectTo (d.truncate 8)).chainDue = s.selectTo (d.truncate 8) := State.chainDue_eq _ due
  obtain ⟨r, chain⟩ := (s.selectTo (d.truncate 8)).respond_chain (slotHead 3 0 d) Code.ok (s.selectTo (d.truncate 8)).chStat [] 48
  rw [due'] at chain
  refine ⟨_, done, ?_, s.respond_sameButChain .., ?_, ?_⟩
  · rw [State.respond_chStat, due']
    exact State.respond_answers ..
  · rw [chain]
    rfl
  · rw [chain]
    exact s.chain.select_mode byte

/-- A SELECT in Full mode of another place answers E_POSITION (R316). -/
theorem exec_chainSelect_refused {d : Word} (full : s.chain.mode = .full) (low : 64 ≤ d.toNat) (high : d.toNat < 254) :
    ∃ t, exec (.chainSelect d) s = .next t ∧ t.answers Code.position 0 ∧ t.chain.mode = .full ∧ s.sameButChain t := by
  have code : s.selectCode s.chain.ndev d = Code.position := by
    rw [State.selectCode_full full (by omega), decide_eq_false (p := d.toNat = 254 ∨ _) (by omega)]
    rfl
  have done : exec (.chainSelect d) s = .next (s.respond (slotHead 3 0 d) Code.position 0 [] 48) := by
    change Host.Outcome.next _ = _
    rw [State.slotAlone_executes on idle due, State.runSelect]
    simp only [s.chainDue_eq due, code]
    rfl
  obtain ⟨r, chain⟩ := s.respond_chain (slotHead 3 0 d) Code.position 0 [] 48
  rw [s.chainDue_eq due] at chain
  exact ⟨_, done, s.respond_answers .., by rw [chain]; exact full, s.respond_sameButChain s.chain ..⟩

end

end Sys2Proof.Machine
end

section
namespace Sys2Proof.Machine

/-! ### ASSIGN (R313, R314, R317) -/

/-- The device at a place of the chain. -/
def State.placedAt (s : State) (p : BitVec 6) : State :=
  { s with chain := { s.chain with assigned := true, pos := p, mode := .full, target := 0xFF, len := 0 } }

section

variable {s : State} {d : Word} (clocked : s.clocked = true) (gesso : s.boot.stage ≠ .gesso) (new : s.chain.assigned = false)
  (due : s.chain.lenNext = none) (high : s.chain.rstLow = none)
include clocked gesso new due high

omit due in
/-- A device without a position executes an ASSIGN as soon as Gesso has ended. -/
theorem exec_chainAssign_unassigned : exec (.chainAssign d) s = .next (s.runAssign (slotHead 4 0 d) d) := by
  have rise : s.rstRise = s := by rw [State.rstRise, high]
  change execChainAssign d s = _
  rw [execChainAssign, if_neg (by simp [new]), if_neg (by simp [clocked, gesso]), rise]

theorem exec_chainAssign_takes (place : d.toNat < 64) : ∃ t, exec (.chainAssign d) s = .next t ∧ t.chain.assigned = true ∧
    t.chain.pos.toNat = d.toNat ∧ t.chain.mode = .full ∧ t.answers Code.ok (s.reg 0 0x000) ∧ s.sameButChain t := by
  have taken : s.runAssign (slotHead 4 0 d) d =
      (s.placedAt (d.truncate 6)).respond (slotHead 4 0 d) Code.ok (s.reg 0 0x000) [] 48 := by
    simp only [State.runAssign, s.chainDue_eq due, new, Bool.false_eq_true, if_false, show ¬ 256 ≤ d.toNat by omega,
      show ¬ 64 ≤ d.toNat by omega]
    rfl
  have due' : (s.placedAt (d.truncate 6)).chainDue = s.placedAt (d.truncate 6) := State.chainDue_eq _ due
  obtain ⟨r, chain⟩ := (s.placedAt (d.truncate 6)).respond_chain (slotHead 4 0 d) Code.ok (s.reg 0 0x000) [] 48
  rw [due'] at chain
  refine ⟨_, exec_chainAssign_unassigned clocked gesso new high, ?_⟩
  rw [taken, chain]
  refine ⟨rfl, ?_, rfl, State.respond_answers .., s.respond_sameButChain ..⟩
  exact (BitVec.toNat_setWidth 6 d).trans (Nat.mod_eq_of_lt place)

theorem exec_chainAssign_refused (beyond : 64 ≤ d.toNat) : ∃ t, exec (.chainAssign d) s = .next t ∧
    t.chain.assigned = false ∧ t.answers (if 256 ≤ d.toNat then Code.value else Code.position) 0 ∧ s.sameButChain t := by
  have refused : s.runAssign (slotHead 4 0 d) d =
      s.respond (slotHead 4 0 d) (if 256 ≤ d.toNat then Code.value else Code.position) 0 [] 48 := by
    simp only [State.runAssign, s.chainDue_eq due, new, Bool.false_eq_true, if_false, beyond, if_true]
    split <;> rfl
  obtain ⟨r, chain⟩ := s.respond_chain (slotHead 4 0 d) (if 256 ≤ d.toNat then Code.value else Code.position) 0 [] 48
  refine ⟨_, exec_chainAssign_unassigned clocked gesso new high, ?_⟩
  rw [refused]
  refine ⟨?_, s.respond_answers .., s.respond_sameButChain s.chain ..⟩
  rw [chain, s.chainDue_eq due]
  exact new

end

/-! ### Chain resets (R326) -/

section

variable (s : State)

/-- The register file with device-wide words at their reset values. -/
def resetWords (l : List Nat) (m : Sparse Word) : Sparse Word :=
  l.foldl (fun m w => Sparse.put resetWord m (0 * 4096 + w) (resetWord w)) m

theorem State.setReg_resetWords (l : List Nat) :
    l.foldl (fun s w => s.setReg 0 w (resetWord w)) s = { s with regs := resetWords l s.regs } := by
  induction l generalizing s with
  | nil => rfl
  | cons x l ih => rw [List.foldl_cons, ih, resetWords, resetWords, List.foldl_cons, State.setReg]

theorem get_resetWords (l : List Nat) (m : Sparse Word) (k : Nat) :
    Sparse.get resetWord (resetWords l m) k = if k ∈ l then resetWord k else Sparse.get resetWord m k := by
  induction l generalizing m with
  | nil => rfl
  | cons x l ih =>
    rw [resetWords, List.foldl_cons]
    refine (ih _).trans ?_
    by_cases here : k = x
    · subst here
      simp
    · simp [here]

/-- A chain reset puts the CH_ block and the chain part at their reset values but for GL_ERRLOG, and drops what waits. -/
theorem State.chainReset_eq : s.chainReset =
    { s with regs := resetWords chWords s.regs,
             chain := { errlog := s.chain.errlog, errHold := s.chain.errHold, rstLow := s.chain.rstLow },
             hinge := { s.hinge with mirror := none, mirrorLate := none } } := by
  unfold State.chainReset
  rw [s.setReg_resetWords chWords]

theorem State.chainReset_reg (i w : Nat) :
    s.chainReset.reg i w = if i * 4096 + w ∈ chWords then resetWord (i * 4096 + w) else s.reg i w := by
  rw [s.chainReset_eq, State.reg, get_resetWords, State.reg]

theorem State.chainCleared_parts : s.chainCleared.now = s.now ∧ s.chainCleared.hinge.mirror = none ∧
    s.chainCleared.chain = { errlog := s.chain.errlog, errHold := s.chain.errHold, rstLow := s.chain.rstLow } := by
  rw [State.chainCleared, State.wr_now, State.wr_hinge, State.wr_chain, s.chainReset_eq]
  exact ⟨rfl, rfl, rfl⟩

theorem State.chainCleared_last : s.chainCleared.rd Reg.PW_RSTSTAT_LAST = 10 := by
  rw [State.chainCleared, State.rd_wr_self _ _ _ _ (by decide)]
  decide

theorem State.chainCleared_block {w : Nat} (low : 0x040 ≤ w) (high : w ≤ 0x047) : s.chainCleared.reg 0 w = resetWord w := by
  have mem : 0 * 4096 + w ∈ chWords := by
    simp only [chWords, List.mem_cons, List.not_mem_nil]
    omega
  rw [State.chainCleared, State.reg_wr_word _ _ _ _ _ _ (by decide) (by omega) (by change w ≠ 0x121; omega), s.chainReset_reg,
    if_pos mem, Nat.zero_mul, Nat.zero_add]

theorem State.chainCleared_regsSameBut : s.regsSameBut s.chainCleared [(0, 0x040), (0, 0x041), (0, 0x042), (0, 0x043), (0, 0x044),
    (0, 0x045), (0, 0x046), (0, 0x047), (0, Reg.PW_RSTSTAT_LAST.word)] := by
  intro i w hw other
  have word : Reg.PW_RSTSTAT_LAST.word = 0x121 := rfl
  simp only [word, List.mem_cons, Prod.mk.injEq, List.not_mem_nil, or_false, not_or] at other
  have block : i * 4096 + w ∉ chWords := by
    simp only [chWords, List.mem_cons, List.not_mem_nil, or_false]
    omega
  rw [State.chainCleared, State.wr, State.reg_setReg_other _ _ _ _ _ _ (by rw [word]; omega), s.chainReset_reg, if_neg block]

theorem msbBits_length (n x : Nat) : (msbBits n x).length = n := by
  induction n with
  | zero => rfl
  | succ n ih => rw [msbBits, List.length_cons, ih]

/-- A response at K = 0 has 64 bits (R310). -/
theorem Resp.bits_length (r : Resp) (under : Bool) : (r.bits under 0).length = 64 := by
  simp [Resp.bits, msbBits_length]

/-- CH_RSTN resets the chain, and is low from then on (R296, R326; log entry 109). -/
theorem exec_chRstnAssert_clears (clocked : s.clocked = true) : exec .chRstnAssert s =
    .next { s.chainCleared with chain := { s.chainCleared.chain with rstLow := some s.chainCleared.now } } := by
  change execChRstnAssert s = _
  rw [execChRstnAssert, if_neg (by simp [clocked]), State.chainCleared]

/-- A chain reset does not depend on the frames that settings of the chain wait for. -/
theorem State.ownFrame_chainReset : s.ownFrame.chainReset = s.chainReset := by
  rw [State.chainReset_eq, State.chainReset_eq, State.ownFrame]
  split <;> rfl

/-- CHAINRST resets as CH_RSTN does, and loads the reset response. -/
theorem exec_chainrst_restarts (on : s.chainOn = true) (idle : s.hinge.mirror = none) : exec .chainrst s =
    .next { s.chainCleared with chain := s.chainCleared.chain.load (s.chainCleared.resetResponse.bits false 0) } := by
  change Host.Outcome.next (s.slotAlone _) = _
  rw [State.slotAlone_ownFrame on idle, State.runSlot_chainrst, State.chainCleared, State.chainCleared, s.ownFrame_chainReset]

theorem exec_chainrst_off (off : s.chainOn = false) : exec .chainrst s = .next s := by
  change Host.Outcome.next (s.slotAlone _) = _
  rw [State.slotAlone_off off]

end

/-- Settles O45: each slot and each reset by its own lemma. -/
theorem slotsAndChainResets : Obligations.SlotsAndChainResets := by
  unfold Obligations.SlotsAndChainResets
  refine ⟨fun s => ⟨fun on idle due => ⟨exec_chainNop_answers on idle due, fun addr => exec_chainRead_answers on idle due,
    fun addr data c k long => exec_chainWrite_refused on idle due long,
    fun addr data n odd other => ⟨⟨_, rfl, State.slotLong_answers on idle due odd ..⟩, ⟨_, rfl, State.slotLong_answers on idle due other ..⟩⟩,
    fun addr data u long passes own => exec_chainWrite_applied on idle due long passes own,
    fun d byte full => ⟨exec_chainSelect_selects on idle due byte full, exec_chainSelect_refused on idle due full⟩⟩,
    fun d clocked gesso new due high => ⟨exec_chainAssign_takes clocked gesso new due high,
      exec_chainAssign_refused clocked gesso new due high⟩⟩, fun s clocked => ?_⟩
  have asserts := exec_chRstnAssert_clears s clocked
  have restarts := exec_chainrst_restarts s
  obtain ⟨now, mirror, chain⟩ := s.chainCleared_parts
  have last := s.chainCleared_last
  have block (w : Nat) := s.chainCleared_block (w := w)
  have others := s.chainCleared_regsSameBut
  generalize s.chainCleared = v at *
  rw [now, chain] at asserts
  rw [chain] at restarts
  refine ⟨_, asserts, rfl, mirror, last, block, others, fun on idle => ⟨_, restarts on idle, rfl, rfl, Resp.bits_length ..⟩,
    exec_chainrst_off s⟩

end Sys2Proof.Machine
end

section
namespace Sys2Proof.Machine

/-! ### A level that stood through samples between the thresholds

ST_GPIN follows a level that stood for its time (R346), and a sample between the thresholds keeps the level before it (log
entry 108): the time runs from the first sample of the level, not from the last change of the sample. -/

/-- A device in service whose pin 0 went high at edge 90,000, fell below the upper threshold for ten edges, and is high again.
Its station has the longest debounce time. -/
def highThroughBetween : State :=
  { eventSourceSelected with
    regs := [(Reg.ST_GPDEB.word, 0xFFFF)]
    pins := [(0, { level := some true, sample := .high,
                   history := [(90000, .high), (99000, .between), (99010, .high)] })] }

/-- The debounce time counted from the last change of the sample. -/
theorem highThroughBetween_lastChange :
    max highThroughBetween.now (99010 + 64 * highThroughBetween.rd Reg.ST_GPDEB ((0 : PinIx).val / 4)) = 4293250 := by
  decide +kernel

/-- ST_GPIN follows at the time counted from the first high sample. -/
theorem highThroughBetween_gpin :
    Ends (fun t => t.now = 4284240) (exec (.gpinChange 0 true) highThroughBetween) := by
  rfl

/-- Refutes O46: a level that passed between the thresholds stood from its first sample on. -/
theorem not_pinsSwitchAndSample : ¬ Obligations.PinsSwitchAndSample := by
  unfold Obligations.PinsSwitchAndSample
  intro h
  obtain ⟨-, -, gpin⟩ := h highThroughBetween 0 (by decide)
  obtain ⟨t, e, -, edge, -⟩ := gpin true 99010 .high (by decide) (by decide) (by decide) (by decide) (by decide)
  have late : t.now = 4293250 := edge.trans highThroughBetween_lastChange
  have early : t.now = 4284240 := highThroughBetween_gpin.of_next e
  omega

end Sys2Proof.Machine
end

section
namespace Sys2Proof.Machine

/-! ### The end of a span change on a failed die

A die that fails holds the pads of its octants (R13): the end of a span change does not drive a kept pad there again. -/

/-- The last step of a span change of group 0, whose octant failed since it began. The transmitter of pin 0 has its claim. -/
def failsInSpanChange : State :=
  { eventSourceSelected with
    hinge := { drivers := 8 }
    octs := [(0, { failed := true })]
    groups := [(0, { busyAt := some 90000, step := 4 })]
    pins := [(0, { owner := .tx, pad := .keep, driven := some true })] }

/-- The claim of pin 0 does not ask whether its die failed. -/
theorem failsInSpanChange_driver : failsInSpanChange.driverOn 0 = true ∧ failsInSpanChange.engagedShadow = false := by
  decide +kernel

/-- The pad stays with the keeper. -/
theorem failsInSpanChange_kept : Ends (fun t => (t.pin 0).pad = .keep) (exec (.spanChangeEnd 0) failsInSpanChange) := by
  rfl

/-- Refutes O47: the end of the change leaves the pads of a failed die kept. -/
theorem not_spanChangesRunInSteps : ¬ Obligations.SpanChangesRunInSteps := by
  unfold Obligations.SpanChangesRunInSteps
  intro h
  obtain ⟨driver, single⟩ := failsInSpanChange_driver
  obtain ⟨-, -, -, -, last⟩ := h failsInSpanChange 0 90000 (by decide) (by decide)
  obtain ⟨t, e, -, -, -, driven⟩ := last (by decide)
  exact driven 0 (by decide) driver single (failsInSpanChange_kept.of_next e)

end Sys2Proof.Machine
end

section
namespace Sys2Proof.Machine

/-! ### A timeout that ran out before the monitor is armed again

The TIMEOUT of a monitor runs on outside ARMED, and one that runs out there is remembered (R359). A monitor that is disabled in
CAPTURE and enabled again forgets it when it is ARMED. -/

/-- A device in service whose monitor of pin 0 is arming and remembers a timeout. -/
def armsAfterTimeout : State := { eventSourceSelected with mons := [(0, { state := .arming, toOut := true })] }

/-- ARMED begins without it. -/
theorem armsAfterTimeout_forgets :
    Ends (fun t => (t.mon (0 : PinIx).val).toOut = false) (exec (.monitorArmed 0) armsAfterTimeout) := by
  rfl

/-- Refutes O48: the entry to ARMED also clears the timeout that ran out, which the statement keeps. -/
theorem not_monitorsArmAndTrigger : ¬ Obligations.MonitorsArmAndTrigger := by
  unfold Obligations.MonitorsArmAndTrigger
  intro h
  obtain ⟨arms, -⟩ := h armsAfterTimeout 0 (by decide)
  obtain ⟨t, e, -, -, monitor⟩ := arms (by decide) (by decide) (by decide)
  have kept : (t.mon (0 : PinIx).val).toOut = true := congrArg Monitor.toOut monitor
  exact Bool.false_ne_true ((armsAfterTimeout_forgets.of_next e).symm.trans kept)

end Sys2Proof.Machine
end

section
namespace Sys2Proof.Machine

/-! ### A detach during the closing of a switch

A unit that is detached while its switch closes opens it (R382): the closing does not end in CLOSED. -/

/-- A device in service whose contact unit 0 is detached while it closes. -/
def detachedWhileClosing : State := { eventSourceSelected with cus := [(0, { state := .closing, opening := true, swAt := 99900 })] }

/-- The unit does not close. -/
theorem detachedWhileClosing_open :
    Ends (fun t => (t.cu (0 : Fin 16).val).closed = false) (exec (.cuSwitchClosed 0) detachedWhileClosing) := by
  rfl

/-- Refutes O50: a closing unit that is detached is not CLOSED 160 DCLK after W. -/
theorem not_contactUnitsSwitchAndFault : ¬ Obligations.ContactUnitsSwitchAndFault := by
  unfold Obligations.ContactUnitsSwitchAndFault
  intro h
  obtain ⟨closes, -⟩ := h detachedWhileClosing 0 (by decide)
  obtain ⟨t, e, -, unit, -⟩ := closes (by decide)
  have closed : (t.cu (0 : Fin 16).val).closed = true := congrArg Cu.closed unit
  exact Bool.false_ne_true ((detachedWhileClosing_open.of_next e).symm.trans closed)

end Sys2Proof.Machine
end

section
namespace Sys2Proof.Machine

/-! ### The phase step in force

The model keeps the phase step in force at a unit beside the word CU_FREQ, which a write of the word renews (R388). The
statement asks nothing that ties the two. -/

/-- A device in service whose contact unit 0 forces a sine with phase step 5, while CU_FREQ has its reset value. -/
def sineOfStepFive : State :=
  { eventSourceSelected with
    regs := [(Reg.CU_CFG_EN.word, Reg.CU_CFG_EN.set (resetWord Reg.CU_CFG_EN.word) 1)]
    cus := [(0, { state := .closed, closed := true, src := 1, freq := 5 })] }

/-- The unit runs, and CU_FREQ is 42,950. -/
theorem sineOfStepFive_runs : sineOfStepFive.cuRuns (0 : Fin 16).val = true ∧
    sineOfStepFive.rd Reg.CU_FREQ (0 : Fin 16).val = 42950 := by decide +kernel

/-- The phase advances by 5. -/
theorem sineOfStepFive_advances :
    Ends (fun t => (t.cu (0 : Fin 16).val).theta = 5) (exec (.sineUpdate 0) sineOfStepFive) := by
  change (((sineOfStepFive.advance 16).setCu 0 _).cu 0).theta = 5
  decide +kernel

/-- Refutes O51: the phase advances by the step in force and not by CU_FREQ. -/
theorem not_contactUnitsForceAndMeasure : ¬ Obligations.ContactUnitsForceAndMeasure := by
  unfold Obligations.ContactUnitsForceAndMeasure
  intro h
  obtain ⟨runs, step⟩ := sineOfStepFive_runs
  obtain ⟨sine, -⟩ := h sineOfStepFive 0 (by decide)
  obtain ⟨t, e, -, -, theta, -⟩ := sine runs (by decide)
  rw [step] at theta
  exact absurd (theta.symm.trans (sineOfStepFive_advances.of_next e)) (by decide)

end Sys2Proof.Machine
end

section
namespace Sys2Proof.Machine

/-! ### What a SOFT reset keeps of the ports -/

/-- A device in service whose port 0 has begun one session. -/
def sessionBegun : State := { eventSourceSelected with ports := [(0, { session := 1 })] }

/-- A SOFT reset is accepted, and the device is no primary of a pair. -/
theorem sessionBegun_taken : sessionBegun.takesOne 0x120 Tests.softWord = true ∧ sessionBegun.regsWf = true ∧
    (sessionBegun.isPrimary && sessionBegun.hinge.state.paired) = false := by decide +kernel

/-- The port stays with its session number. -/
theorem sessionBegun_kept : Ends (fun t => t.ports ≠ []) (exec (.softReset Tests.softWord) sessionBegun) := by
  change (sessionBegun.writeWord 0x120 Tests.softWord).ports ≠ []
  decide +kernel

/-- Refutes O23: the session numbers of the ports go on over a SOFT reset. -/
theorem not_masterBootAndResetWritesAct : ¬ Obligations.MasterBootAndResetWritesAct := by
  unfold Obligations.MasterBootAndResetWritesAct
  intro h
  obtain ⟨taken, canonical, alone⟩ := sessionBegun_taken
  obtain ⟨-, -, -, -, -, -, resets, -⟩ := h sessionBegun Tests.softWord
  obtain ⟨soft, -⟩ := resets taken alone
  obtain ⟨t, e, -, -, -, -, -, ports, -⟩ := soft (by decide) canonical
  exact sessionBegun_kept.of_next e ports

end Sys2Proof.Machine
end

section
namespace Sys2Proof.Machine

/-! ### What a thermal trip keeps of the monitors -/

/-- A device in service whose monitor of pin 0 has captured once. -/
def capturedOnce : State := { eventSourceSelected with mons := [(0, { pseq := 1 })] }

/-- The monitor stays with its capture number. -/
theorem capturedOnce_kept : Ends (fun t => t.mons ≠ []) (exec (.thermalTrip 0) capturedOnce) := by
  have clocked : capturedOnce.clocked = true := by decide
  simp only [exec, execThermalTrip, clocked, Bool.not_true, Bool.false_eq_true, if_false]
  unfold Ends
  decide +kernel

/-- Refutes O58: the capture numbers of the monitors go on over the SOFT reset of a trip. -/
theorem not_heatWarnsAndTrips : ¬ Obligations.HeatWarnsAndTrips := by
  unfold Obligations.HeatWarnsAndTrips
  intro h
  obtain ⟨-, trips, -⟩ := h capturedOnce
  obtain ⟨t, e, -, -, monitors, -⟩ := trips 0 (by decide) (by decide +kernel)
  exact capturedOnce_kept.of_next e monitors

end Sys2Proof.Machine
end

section
namespace Sys2Proof.Machine

/-! ### Power-on, and the lock of the PLL (R35, R39, R44, R412, R413) -/

/-- Settles O4: the register file of the reset state lists no word, and nothing is queued. -/
theorem resetStateIsWellFormed : Obligations.ResetStateIsWellFormed := ⟨rfl, rfl⟩

variable (s : State)

theorem State.powerOn_role (strap : Role) : (s.powerOn strap).rd Reg.HG_CFG_ROLE = strap.code := by
  unfold State.powerOn
  rw [State.rd_wr_self _ _ _ _ (by decide)]
  cases strap <;> rfl

theorem State.powerOn_reg (strap : Role) {i w : Nat} (hw : w < 4096) (other : (i, w) ≠ (0, 0x180)) :
    (s.powerOn strap).reg i w = resetWord (i * 4096 + w) := by
  unfold State.powerOn
  refine State.wr_regsSameBut _ Reg.HG_CFG_ROLE strap.code 0 (by decide) i w hw ?_
  simpa [show Reg.HG_CFG_ROLE.word = 0x180 from rfl] using other

/-- Sampling of SYNC_IN begins anew, and SYNC_OUT shows it: the time of the calibration stays. -/
theorem State.startSync_eq : ∃ sent l, s.startSync = { s with
    tb := { s.tb with syncAt := 16 * s.now, syncEdge := none, syncOut := s.tb.syncIn, syncSent := sent }, out := l } :=
  State.sendSync_eq _ _

theorem exec_pllLock_first (porN : s.clk.porN = true) (unlocked : s.clk.locked = false) (never : s.clk.once = false) :
    exec .pllLock s = .next (({ s with
      clk := { s.clk with locked := true, once := true }, now := 0, c := 0, boot := { s.boot with fuseAt := 0 },
      tb := { s.tb with calAt := some 0 } } : State).startSync) := by
  simp [exec, execPllLock, porN, unlocked, never]

theorem exec_pllLock_again (porN : s.clk.porN = true) (unlocked : s.clk.locked = false) (once : s.clk.once = true) :
    exec .pllLock s = .next (({ s with clk := { s.clk with locked := true } } : State).startSync) := by
  simp [exec, execPllLock, porN, unlocked, once]

/-- Settles O10: power-on leaves the reset state and its strap; a lock changes the clock and what follows SYNC_IN. -/
theorem powerAndFirstLockBeginAnew : Obligations.PowerAndFirstLockBeginAnew := by
  unfold Obligations.PowerAndFirstLockBeginAnew
  intro s
  refine ⟨fun strap => ?_, ?_, fun porN unlocked never => ?_, fun porN unlocked once => ?_⟩
  · exact ⟨_, rfl, rfl, rfl, rfl, rfl, rfl, s.powerOn_role strap, fun _ _ => s.powerOn_reg strap, rfl, rfl, rfl, rfl, rfl, rfl⟩
  · exact ⟨_, rfl, rfl, rfl, rfl, s.powerOn_role s.strap, fun _ _ => s.powerOn_reg s.strap, rfl, rfl, rfl, rfl⟩
  · refine ⟨_, exec_pllLock_first s porN unlocked never, ?_⟩
    obtain ⟨sent, l, e⟩ := State.startSync_eq ({ s with
      clk := { s.clk with locked := true, once := true }, now := 0, c := 0, boot := { s.boot with fuseAt := 0 },
      tb := { s.tb with calAt := some 0 } } : State)
    rw [e]
    exact ⟨rfl, rfl, rfl, rfl, rfl, rfl⟩
  · refine ⟨_, exec_pllLock_again s porN unlocked once, ?_⟩
    obtain ⟨sent, l, e⟩ := State.startSync_eq ({ s with clk := { s.clk with locked := true } } : State)
    rw [e]
    exact ⟨rfl, rfl, rfl, rfl⟩

end Sys2Proof.Machine
end

section
namespace Sys2Proof.Machine

/-! ### Gesso (R413 to R415) -/

variable (s : State)

/-- The fuse read ends: time, the contents that failed, and the status words. -/
def State.fusesRead (corrected failRows : BitVec 16) (failed : List FuseContent) : State :=
  let t := s.advance (s.boot.fuseAt + 65536)
  let t : State := { t with boot := { t.boot with fusesRead := true, failed := failed } }
  ((t.wr Reg.GL_FUSESTAT_CORRECTED corrected.toNat).wr Reg.GL_FUSESTAT_FAILROWS failRows.toNat).wrBit Reg.AL_STAT_NOKEY
    (failed.contains .keys)

@[simp] theorem State.advance_boot (n : Nat) : (s.advance n).boot = s.boot := by
  obtain ⟨c, e⟩ := s.advance_eq n
  rw [e]

theorem exec_fuseReadDone_reads (clocked : s.clocked = true) (gesso : s.boot.stage = .gesso) (unread : s.boot.fusesRead = false)
    (cool : s.boot.hot = false) (corrected failRows : BitVec 16) (failed : List FuseContent) :
    exec (.fuseReadDone corrected failRows failed) s = .next (s.fusesRead corrected failRows failed) := by
  simp only [exec, execFuseReadDone, clocked, gesso, unread, cool]
  rfl

theorem State.fusesRead_shown (corrected failRows : BitVec 16) (failed : List FuseContent) :
    (s.fusesRead corrected failRows failed).rd Reg.GL_FUSESTAT_CORRECTED = corrected.toNat ∧
    (s.fusesRead corrected failRows failed).rd Reg.GL_FUSESTAT_FAILROWS = failRows.toNat ∧
    (s.fusesRead corrected failRows failed).on Reg.AL_STAT_NOKEY = failed.contains .keys ∧
    (s.fusesRead corrected failRows failed).now = max s.now (s.boot.fuseAt + 65536) := by
  unfold State.fusesRead
  refine ⟨?_, ?_, State.on_wrBit_self _ _ _ _ (by decide) rfl, ?_⟩
  · simp (disch := decide) only [State.wrBit_eq, State.rd_wr_word, State.rd_wr_apart, State.rd_wr_self]
    exact Nat.mod_eq_of_lt corrected.isLt
  · simp (disch := decide) only [State.wrBit_eq, State.rd_wr_word, State.rd_wr_self]
    exact Nat.mod_eq_of_lt failRows.isLt
  · simp only [State.wrBit_eq, State.wr_now, State.advance_now]

/-- GL_BOOTSTAT with the status of an earlier load cleared. -/
def State.loadStatusCleared : State :=
  (((s.wr Reg.GL_BOOTSTAT_RETRY 0).wr Reg.GL_BOOTSTAT_FASTCLK 0).wr Reg.GL_BOOTSTAT_SIGNED 0).wr Reg.GL_BOOTSTAT_HOLD 0

/-- The registers after a store depend on the registers before it alone. -/
theorem State.wr_regs_congr {s t : State} (h : t.regs = s.regs) (f : Fld) (x i : Nat) : (t.wr f x i).regs = (s.wr f x i).regs := by
  simp only [State.wr, State.setReg, State.reg, h]

/-- AUX0 and the flash reader enter the load. -/
def State.loadEntered : State :=
  ({ s with
    boot := { s.boot with stage := .load, header := none, image := none, fast := false, retried := false, digestOk := false,
                          sigOk := false },
    flash := { discovering := true } } : State).modAux 0 (fun x => { x with state := .boot, csOn := false, startWaits := false })

theorem State.startLoad_eq : s.startLoad = s.loadEntered.loadStatusCleared.emit .discover := rfl

theorem State.startLoad_regs : s.startLoad.regs = s.loadStatusCleared.regs := by
  rw [State.startLoad_eq, State.emit_regs]
  unfold State.loadStatusCleared
  have entered : s.loadEntered.regs = s.regs := rfl
  exact State.wr_regs_congr (State.wr_regs_congr (State.wr_regs_congr (State.wr_regs_congr entered ..) ..) ..) ..

theorem State.rd_startLoad (f : Fld) (i : Nat) : s.startLoad.rd f i = s.loadStatusCleared.rd f i :=
  State.rd_congr _ _ s.startLoad_regs f i

theorem State.startLoad_aux : (s.startLoad.aux 0).state = .boot := by
  have auxs : s.startLoad.auxs = s.loadEntered.auxs := rfl
  rw [State.aux, auxs]
  change (State.aux (State.setAux _ 0 _) 0).state = .boot
  rw [State.aux_setAux_self]

theorem State.startLoad_status : s.startLoad.rd Reg.GL_BOOTSTAT_RETRY = 0 ∧ s.startLoad.rd Reg.GL_BOOTSTAT_FASTCLK = 0 ∧
    s.startLoad.rd Reg.GL_BOOTSTAT_SIGNED = 0 ∧ s.startLoad.rd Reg.GL_BOOTSTAT_HOLD = 0 := by
  simp only [State.rd_startLoad]
  unfold State.loadStatusCleared
  refine ⟨?_, ?_, ?_, ?_⟩
  · simp (disch := decide) only [State.rd_wr_apart, State.rd_wr_self, Nat.zero_mod]
  · simp (disch := decide) only [State.rd_wr_apart, State.rd_wr_self, Nat.zero_mod]
  · simp (disch := decide) only [State.rd_wr_apart, State.rd_wr_self, Nat.zero_mod]
  · simp (disch := decide) only [State.rd_wr_self, Nat.zero_mod]

/-- Beside GL_BOOTSTAT, a load that begins leaves the registers. -/
theorem State.rd_startLoad_other (f : Fld) (i : Nat) (hw : f.word < 4096) (h : f.word ≠ Reg.GL_BOOTSTAT_RETRY.word) :
    s.startLoad.rd f i = s.rd f i := by
  rw [State.rd_startLoad, State.loadStatusCleared, State.rd_wr_word _ f Reg.GL_BOOTSTAT_HOLD _ _ _ (by decide) hw h,
    State.rd_wr_word _ f Reg.GL_BOOTSTAT_SIGNED _ _ _ (by decide) hw h,
    State.rd_wr_word _ f Reg.GL_BOOTSTAT_FASTCLK _ _ _ (by decide) hw h,
    State.rd_wr_word _ f Reg.GL_BOOTSTAT_RETRY _ _ _ (by decide) hw h]

/-- No die or stack failed its training. -/
theorem foldl_unflagged {n : Nat} (f : State → Nat → State) (l : List Nat) (t : State) :
    l.foldl (fun u d => if (0 : BitVec n).getLsbD d then f u d else u) t = t := by
  induction l with
  | nil => rfl
  | cons d l ih => simp

/-- What the end of Gesso leaves before the load begins (R413, R448). -/
def State.gessoEnds (sioFail : BitVec 4) (hbmFail : BitVec 2) (sineOk : Bool) : State :=
  let t : State := ({ s with boot := { s.boot with stage := .load } } : State).wrBit Reg.CU_GSTAT_SINE_OK sineOk
  let t := (List.range 4).foldl (fun s d => if sioFail.getLsbD d then s.sioFails d else s) t
  let t := (List.range 2).foldl (fun s h => if hbmFail.getLsbD h then s.hbmFails h else s) t
  if t.almanac.index = 0 ∧ t.almanac.lapseDue.isNone then
    ({ t with almanac := { t.almanac with cutAt := t.now } } : State).genesisEntry else t

theorem exec_gessoEnd_loads (clocked : s.clocked = true) (gesso : s.boot.stage = .gesso) (fuses : s.boot.fusesRead = true)
    (sioFail : BitVec 4) (hbmFail : BitVec 2) (sineOk : Bool) :
    exec (.gessoEnd sioFail hbmFail sineOk) s = .next (s.gessoEnds sioFail hbmFail sineOk).startLoad := by
  simp only [exec, execGessoEnd, clocked, gesso, fuses, State.gessoEnds]
  rfl

theorem State.gessoEnds_sineOk (sineOk : Bool) : (s.gessoEnds 0 0 sineOk).on Reg.CU_GSTAT_SINE_OK = sineOk := by
  unfold State.gessoEnds
  dsimp only
  rw [foldl_unflagged, foldl_unflagged]
  split
  · unfold State.genesisEntry
    rw [State.on, State.rd_formEntry _ _ _ _ _ _ _ (by decide) (by decide), State.rd_setAlmanac]
    exact State.on_wrBit_self _ _ _ _ (by decide) rfl
  · exact State.on_wrBit_self _ _ _ _ (by decide) rfl

/-- Settles O11: the fuse read shows its counts, and the end of training begins the load. -/
theorem gessoLeadsToTheLoad : Obligations.GessoLeadsToTheLoad := by
  unfold Obligations.GessoLeadsToTheLoad
  intro s clocked gesso
  refine ⟨fun corrected failRows failed unread cool => ?_, fun sioFail hbmFail sineOk fuses => ?_⟩
  · obtain ⟨count, rows, keys, now⟩ := s.fusesRead_shown corrected failRows failed
    refine ⟨_, exec_fuseReadDone_reads s clocked gesso unread cool corrected failRows failed, rfl, rfl, count, rows, keys,
      now, ?_⟩
    simp only [State.fusesRead, State.wrBit_eq, State.wr_boot, State.advance_boot, gesso]
  · obtain ⟨retry, fast, signed, hold⟩ := (s.gessoEnds sioFail hbmFail sineOk).startLoad_status
    refine ⟨_, exec_gessoEnd_loads s clocked gesso fuses sioFail hbmFail sineOk, rfl, rfl, State.startLoad_aux _, ⟨_, rfl⟩, retry,
      fast, signed, hold, ?_⟩
    rintro rfl rfl
    rw [State.on, State.rd_startLoad_other _ _ _ (by decide) (by decide)]
    exact s.gessoEnds_sineOk sineOk

end Sys2Proof.Machine
end

section
namespace Sys2Proof.Machine

/-! ### What raising an event source leaves (R216, R271) -/

variable (s : State)

@[simp] theorem State.raiseEvent_flash (n detail : Nat) (port : Option Nat) : (s.raiseEvent n detail port).flash = s.flash := by
  obtain ⟨t, x, h, e⟩ := s.raiseEvent_eq n detail port
  rw [e]
  exact h.flash

@[simp] theorem State.raiseEvent_boot (n detail : Nat) (port : Option Nat) : (s.raiseEvent n detail port).boot = s.boot := by
  obtain ⟨t, x, h, e⟩ := s.raiseEvent_eq n detail port
  rw [e]
  exact h.boot

@[simp] theorem State.raiseEvent_auxs (n detail : Nat) (port : Option Nat) : (s.raiseEvent n detail port).auxs = s.auxs := by
  obtain ⟨t, x, h, e⟩ := s.raiseEvent_eq n detail port
  rw [e]
  exact h.auxs

theorem State.aux_congr {s t : State} (h : t.auxs = s.auxs) (m : Nat) : t.aux m = s.aux m := by
  simp only [State.aux, h]

/-- An error of a master sets its flag (R403). -/
theorem State.auxError_flag (m : Nat) (f : Fld) (cause : Nat) (hw : f.word < 4096) (hg : gatedWord f.word = false)
    (fits : f.fits) (bit : f.width = 1) : (s.auxError m f cause).on f m = true := by
  rw [State.on, State.auxError, State.rd_raiseEvent _ _ _ _ _ _ hw hg, State.rd_wr_self _ _ _ _ fits, bit]
  rfl

theorem State.aux_auxError (m : Nat) (f : Fld) (cause k : Nat) : (s.auxError m f cause).aux k = s.aux k :=
  State.aux_congr (by simp only [State.auxError, State.raiseEvent_auxs, State.wr_auxs]) k

theorem State.auxError_now (m : Nat) (f : Fld) (cause : Nat) : (s.auxError m f cause).now = s.now := by
  simp only [State.auxError, State.raiseEvent_now, State.wr_now]

/-- An error of a master leaves the other words. -/
theorem State.rd_auxError (m : Nat) (f g : Fld) (cause i : Nat) (hf : f.word < 4096) (hg : g.word < 4096)
    (gate : gatedWord g.word = false) (h : g.word ≠ f.word) : (s.auxError m f cause).rd g i = s.rd g i := by
  rw [State.auxError, State.rd_raiseEvent _ _ _ _ _ _ hg gate, State.rd_wr_word _ _ _ _ _ _ hf hg h]

end Sys2Proof.Machine
end

section
namespace Sys2Proof.Machine

/-! ### The flash reader (R405 to R408) -/

variable (s : State)

/-- Discovery that succeeds shows density and revision. -/
def State.showsSfdp (major minor : BitVec 8) (dens : BitVec 6) : State :=
  (((s.wr Reg.AX_SFDP_OK 1).wr Reg.AX_SFDP_DENS dens.toNat).wr Reg.AX_SFDP_MAJOR major.toNat).wr Reg.AX_SFDP_MINOR minor.toNat

/-- Discovery that fails shows none, and is an error outside the load. -/
def State.failsSfdp : State :=
  let t := (s.wr Reg.AX_SFDP_OK 0).wr Reg.AX_SFDP_DENS 0
  if (s.aux 0).state == .boot then t else t.auxError 0 Reg.AX_STAT_EV_DISC 3

/-- The result of a discovery. -/
def State.discovered (ok : Bool) (major minor : BitVec 8) (dens : BitVec 6) : State :=
  let t : State := { s with flash := { s.flash with discovering := false } }
  if ok && major == 1 then t.showsSfdp major minor dens else t.failsSfdp

/-- The load goes on with the read of an image's first bytes (R420). -/
def State.startsRead : State := ({ s with boot := { s.boot with readAt := s.now } } : State).emit (.imageRead 32)

theorem exec_discoveryDone_eq (run : s.running = true) (disc : s.flash.discovering = true) (ok : Bool)
    (major minor : BitVec 8) (dens : BitVec 6) : exec (.discoveryDone ok major minor dens) s = .next
      (if (s.aux 0).state == .boot then (s.discovered ok major minor dens).startsRead else s.discovered ok major minor dens) := by
  simp only [exec, execDiscoveryDone, run, disc, Bool.not_true, Bool.false_eq_true, if_false]
  rfl

theorem State.showsSfdp_shows (major minor : BitVec 8) (dens : BitVec 6) :
    (s.showsSfdp major minor dens).rd Reg.AX_SFDP_OK = 1 ∧ (s.showsSfdp major minor dens).rd Reg.AX_SFDP_DENS = dens.toNat ∧
    (s.showsSfdp major minor dens).rd Reg.AX_SFDP_MAJOR = major.toNat ∧
    (s.showsSfdp major minor dens).rd Reg.AX_SFDP_MINOR = minor.toNat := by
  unfold State.showsSfdp
  refine ⟨?_, ?_, ?_, ?_⟩
  · simp (disch := decide) only [State.rd_wr_apart, State.rd_wr_self]
    rfl
  · simp (disch := decide) only [State.rd_wr_apart, State.rd_wr_self]
    exact Nat.mod_eq_of_lt dens.isLt
  · simp (disch := decide) only [State.rd_wr_apart, State.rd_wr_self]
    exact Nat.mod_eq_of_lt major.isLt
  · simp (disch := decide) only [State.rd_wr_self]
    exact Nat.mod_eq_of_lt minor.isLt

theorem State.failsSfdp_shows : s.failsSfdp.rd Reg.AX_SFDP_OK = 0 ∧ s.failsSfdp.rd Reg.AX_SFDP_DENS = 0 := by
  unfold State.failsSfdp
  dsimp only
  split
  · refine ⟨?_, ?_⟩
    · simp (disch := decide) only [State.rd_wr_apart, State.rd_wr_self, Nat.zero_mod]
    · simp (disch := decide) only [State.rd_wr_self, Nat.zero_mod]
  · refine ⟨?_, ?_⟩
    · rw [State.rd_auxError _ _ _ _ _ _ (by decide) (by decide) (by decide) (by decide)]
      simp (disch := decide) only [State.rd_wr_apart, State.rd_wr_self, Nat.zero_mod]
    · rw [State.rd_auxError _ _ _ _ _ _ (by decide) (by decide) (by decide) (by decide)]
      simp (disch := decide) only [State.rd_wr_self, Nat.zero_mod]

theorem State.failsSfdp_flag (outside : (s.aux 0).state ≠ .boot) : s.failsSfdp.on Reg.AX_STAT_EV_DISC = true := by
  unfold State.failsSfdp
  rw [if_neg (by simpa using outside)]
  exact State.auxError_flag _ _ _ _ (by decide) (by decide) (by decide) rfl

theorem State.discovered_success (major minor : BitVec 8) (dens : BitVec 6) (one : major = 1) :
    s.discovered true major minor dens =
      ({ s with flash := { s.flash with discovering := false } } : State).showsSfdp major minor dens := by
  subst one
  rfl

theorem State.discovered_failure {ok : Bool} {major : BitVec 8} (minor : BitVec 8) (dens : BitVec 6)
    (h : ok = false ∨ major ≠ 1) : s.discovered ok major minor dens =
      ({ s with flash := { s.flash with discovering := false } } : State).failsSfdp := by
  have fails : ¬ (ok && major == 1) = true := by
    rcases h with rfl | h
    · simp
    · simpa using fun _ => h
  exact if_neg fails

/-- In the load, a discovery that fails is no error of the master. -/
theorem State.discovered_boot (boot : (s.aux 0).state = .boot) (ok : Bool) (major minor : BitVec 8) (dens : BitVec 6) :
    (s.discovered ok major minor dens).boot = s.boot ∧ (s.discovered ok major minor dens).now = s.now ∧
    (s.discovered ok major minor dens).out = s.out := by
  have boot : ((({ s with flash := { s.flash with discovering := false } } : State).aux 0).state == .boot) = true :=
    beq_iff_eq.mpr boot
  unfold State.discovered State.failsSfdp State.showsSfdp
  dsimp only
  rw [if_pos boot]
  split <;> simp only [State.wr_boot, State.wr_now, State.wr_out, and_self]

theorem State.discovered_flash (ok : Bool) (major minor : BitVec 8) (dens : BitVec 6) :
    (s.discovered ok major minor dens).flash = { s.flash with discovering := false } := by
  unfold State.discovered State.showsSfdp State.failsSfdp State.auxError
  dsimp only
  split
  · rfl
  · split
    · rfl
    · exact State.raiseEvent_flash ..

theorem exec_discoveryDone (run : s.running = true) (disc : s.flash.discovering = true) (ok : Bool) (major minor : BitVec 8)
    (dens : BitVec 6) : ∃ t u, exec (.discoveryDone ok major minor dens) s = .next t ∧ u = s.discovered ok major minor dens ∧
      t.flash = u.flash ∧ t.regs = u.regs ∧
      ((s.aux 0).state = .boot → t.boot = { s.boot with readAt := s.now } ∧ t.out = s.out ++ [.imageRead 32]) := by
  by_cases boot : (s.aux 0).state = .boot
  · refine ⟨_, _, exec_discoveryDone_eq s run disc ok major minor dens, rfl, ?_⟩
    rw [if_pos (beq_iff_eq.mpr boot)]
    obtain ⟨boot, now, out⟩ := s.discovered_boot boot ok major minor dens
    refine ⟨rfl, rfl, fun _ => ⟨?_, ?_⟩⟩
    · simp only [State.startsRead, State.emit_boot, boot, now]
    · exact congrArg (· ++ [.imageRead 32]) out
  · refine ⟨_, _, exec_discoveryDone_eq s run disc ok major minor dens, rfl, ?_⟩
    rw [if_neg (by simpa using boot)]
    exact ⟨rfl, rfl, fun h => absurd h boot⟩

/-- CS0 stays asserted after a block (R408). -/
def State.continuous : Bool := s.on Reg.AX_FLCFG_CONT && s.on Reg.AX_FLCFG_EN

/-- The block whose words have arrived is held and counted (R406). -/
def State.blockHeld (words : List Word) : State :=
  let t := s.advance s.flash.doneAt
  ({ t with free := t.free + 1
            flash := { t.flash with words := words, busy := false, hold := t.continuous, holdAt := t.now } } : State).incWrap
    Reg.AX_FLCNT

/-- A block has arrived, and no START waits for it. -/
def State.blockArrived (words : List Word) : State :=
  let t := s.blockHeld words
  if (s.advance s.flash.doneAt).continuous then t
  else (t.modAux 0 (fun x => { x with freeAt := t.now + t.auxTrail 0 + t.auxGap 0 })).emit (.auxSelect 0 0 false)

theorem map_getElem?_getD_self {α : Type} (words : List α) (v : α) {n : Nat} (h : words.length = n) :
    (List.range n).map (fun i => (words[i]?).getD v) = words := by
  subst h
  refine List.ext_getElem (by simp) fun i h₁ h₂ => ?_
  simp [List.getElem?_eq_getElem h₂]

@[simp] theorem State.advance_auxs (n : Nat) : (s.advance n).auxs = s.auxs := by
  obtain ⟨c, e⟩ := s.advance_eq n
  rw [e]

@[simp] theorem State.advance_flash (n : Nat) : (s.advance n).flash = s.flash := by
  obtain ⟨c, e⟩ := s.advance_eq n
  rw [e]

@[simp] theorem State.continuous_advance (n : Nat) : (s.advance n).continuous = s.continuous := by
  simp only [State.continuous, State.on, State.rd_advance]

theorem State.blockHeld_flash (words : List Word) : (s.blockHeld words).flash =
    { s.flash with words := words, busy := false, hold := s.continuous, holdAt := max s.now s.flash.doneAt } := by
  simp only [State.blockHeld, State.incWrap_eq, State.wr_flash, State.advance_flash, State.continuous_advance, State.advance_now]

theorem State.blockHeld_now (words : List Word) : (s.blockHeld words).now = max s.now s.flash.doneAt := by
  simp only [State.blockHeld, State.incWrap_eq, State.wr_now, State.advance_now]

theorem State.blockHeld_count (words : List Word) :
    (s.blockHeld words).rd Reg.AX_FLCNT = (s.rd Reg.AX_FLCNT + 1) % 2 ^ Reg.AX_FLCNT.width := by
  rw [State.blockHeld, State.incWrap_eq, State.rd_wr_self _ _ _ _ (by decide)]
  change ((s.advance s.flash.doneAt).rd Reg.AX_FLCNT + 1) % _ = _
  rw [State.rd_advance]

/-- The release of CS0 touches its master and what the device puts out. -/
theorem State.blockArrived_held (words : List Word) : (s.blockArrived words).now = (s.blockHeld words).now ∧
    (s.blockArrived words).flash = (s.blockHeld words).flash ∧ (s.blockArrived words).regs = (s.blockHeld words).regs := by
  unfold State.blockArrived
  dsimp only
  split
  · exact ⟨rfl, rfl, rfl⟩
  · simp only [State.emit, State.modAux, State.setAux, and_self]

theorem State.blockArrived_out (words : List Word) : (s.blockArrived words).out =
    if s.continuous then s.out else s.out ++ [.auxSelect 0 0 false] := by
  have out : (s.blockHeld words).out = s.out := by
    simp only [State.blockHeld, State.incWrap_eq, State.wr_out, State.advance_out]
  simp only [State.blockArrived, State.continuous_advance, ← out]
  split <;> rfl

theorem State.blockArrived_waits (words : List Word) :
    ((s.blockArrived words).aux 0).startWaits = (s.aux 0).startWaits := by
  have aux : (s.blockHeld words).aux 0 = s.aux 0 := State.aux_congr (by
    simp only [State.blockHeld, State.incWrap_eq, State.wr_auxs, State.advance_auxs]) 0
  simp only [State.blockArrived]
  split
  · rw [aux]
  · rw [State.aux_congr (State.emit_auxs ..), State.modAux, State.aux_setAux_self, aux]

theorem exec_flashBlockLoaded (run : s.running = true) (busy : s.flash.busy = true) {words : List Word}
    (whole : words.length = 64) (alone : (s.aux 0).startWaits = false) :
    exec (.flashBlockLoaded words) s = .next (s.blockArrived words) := by
  have runs : exec (.flashBlockLoaded words) s = .next (if ((s.blockArrived words).aux 0).startWaits then
      (s.blockArrived words).endHold.auxBegin 0 else s.blockArrived words) := by
    simp only [exec, execFlashBlockLoaded, run, busy, Bool.not_true, Bool.false_eq_true, if_false, State.takeFree,
      map_getElem?_getD_self words _ whole]
    rfl
  rw [runs, State.blockArrived_waits, alone]
  rfl

theorem State.endHold_releases (hold : s.flash.hold = true) : ∃ x, s.endHold =
    { s with flash := { s.flash with hold := false }, auxs := x, out := s.out ++ [.auxSelect 0 0 false] } :=
  ⟨_, if_pos hold⟩

theorem exec_flashContTimeout (run : s.running = true) (hold : s.flash.hold = true) : exec .flashContTimeout s =
    .next (s.advance (s.flash.holdAt + 64 * s.rd Reg.AX_FLCFG_CTOUT)).endHold := by
  simp only [exec, execFlashContTimeout, run, hold]
  rfl

/-- Settles O53: discovery and block loads end in these states, and continuous read in `State.endHold`. -/
theorem theFlashReaderLoadsBlocks : Obligations.TheFlashReaderLoadsBlocks := by
  unfold Obligations.TheFlashReaderLoadsBlocks
  intro s run
  refine ⟨fun ok major minor dens disc => ?_, fun words busy whole alone => ?_, fun hold => ?_⟩
  · obtain ⟨t, u, e, rfl, flash, regs, boot⟩ := exec_discoveryDone s run disc ok major minor dens
    refine ⟨t, e, flash.trans (s.discovered_flash ok major minor dens), ?_, ?_, boot⟩
    · rintro ⟨rfl, one⟩
      rw [s.discovered_success major minor dens one] at regs
      simp only [State.on, State.rd_congr _ _ regs]
      obtain ⟨ok, density, first, second⟩ := State.showsSfdp_shows
        ({ s with flash := { s.flash with discovering := false } } : State) major minor dens
      exact ⟨beq_iff_eq.mpr ok, density, first.trans (by rw [one]; rfl), second⟩
    · intro fails
      rw [s.discovered_failure minor dens fails] at regs
      simp only [State.on, State.rd_congr _ _ regs]
      obtain ⟨ok, density⟩ := State.failsSfdp_shows ({ s with flash := { s.flash with discovering := false } } : State)
      refine ⟨by rw [ok]; rfl, density, fun outside => State.failsSfdp_flag _ outside⟩
  · obtain ⟨now, flash, regs⟩ := s.blockArrived_held words
    refine ⟨_, exec_flashBlockLoaded s run busy whole alone, now.trans (s.blockHeld_now words), ?_, ?_, s.blockArrived_out words⟩
    · rw [flash, now, State.blockHeld_flash, State.blockHeld_now]
      rfl
    · rw [State.rd_congr _ _ regs, State.blockHeld_count]
  · refine ⟨_, exec_flashContTimeout s run hold, ?_⟩
    obtain ⟨x, e⟩ := (s.advance (s.flash.holdAt + 64 * s.rd Reg.AX_FLCFG_CTOUT)).endHold_releases (by simpa using hold)
    rw [e]
    exact ⟨by rw [State.advance_now], by rw [State.advance_flash], by rw [State.advance_out], s.advance_regs _⟩

end Sys2Proof.Machine
end

section
namespace Sys2Proof.Machine

/-! ### Transfers of the auxiliary masters (R399 to R401) -/

variable (s : State)

theorem State.aux_modAux_self (m : Nat) (f : Aux → Aux) : (s.modAux m f).aux m = f (s.aux m) := State.aux_setAux_self ..

theorem State.aux_modAux_other (m k : Nat) (f : Aux → Aux) (h : k ≠ m) : (s.modAux m f).aux k = s.aux k :=
  State.aux_setAux_other _ _ _ _ h

/-- The bits of a transfer are in the buffer (R399). -/
def State.bitsTaken (m : Nat) (bits : List Bool) : State :=
  let n := s.rd Reg.AX_XFER_LEN m
  let t := s.advance (s.auxEnd m)
  let (v, t) := t.takeFree
  let got := (List.range n).map (fun i => (bits[i]?).getD (v.getLsbD (i % 64)))
  let lsb := t.auxLsb m
  let last := t.auxBit m (n - 1)
  t.modAux m (fun x => { x with buf := storeBits lsb 0 got x.buf, lastBit := last })

/-- It is DONE and counted with its bits. -/
def State.transferDone (m : Nat) (bits : List Bool) : State :=
  (((s.bitsTaken m bits).wr Reg.AX_STAT_DONE 1 m).incWrap Reg.AX_CNT_CNT m).wr Reg.AX_CNT_BITS (s.rd Reg.AX_XFER_LEN m) m

/-- The select is held where KEEP is 1, else released T later (R400). -/
def State.transferEnds (m : Nat) : State :=
  if s.on Reg.AX_XFER_KEEP m then s.modAux m (fun x => { x with state := .held, heldAt := s.now }) else s.auxRelease m

theorem exec_axTransferDone (run : s.running = true) {m : Fin 8} (busy : (s.aux m.val).state = .busy)
    (begun : (s.aux m.val).startWaits = false) (open_ : (s.aux m.val).releaseAt = none) (bits : List Bool) :
    exec (.axTransferDone m bits) s = .next ((s.transferDone m.val bits).transferEnds m.val) := by
  simp only [exec, execAxTransferDone, run, busy, begun, open_, Bool.not_true, Bool.false_eq_true, if_false, ne_eq,
    not_true_eq_false, Option.isSome_none, or_self]
  rfl

theorem State.bitsTaken_frame (m : Nat) (bits : List Bool) : (s.bitsTaken m bits).now = max s.now (s.auxEnd m) ∧
    (s.bitsTaken m bits).regs = s.regs ∧ ∀ k, k ≠ m → (s.bitsTaken m bits).aux k = s.aux k := by
  unfold State.bitsTaken
  refine ⟨s.advance_now _, s.advance_regs _, fun k h => ?_⟩
  exact (State.aux_modAux_other _ _ _ _ h).trans (State.aux_congr (s.advance_auxs _) k)

theorem State.transferDone_now (m : Nat) (bits : List Bool) : (s.transferDone m bits).now = max s.now (s.auxEnd m) := by
  simp only [State.transferDone, State.incWrap_eq, State.wr_now, s.bitsTaken_frame m bits]

/-- A transfer counts itself and its bits, and is DONE. -/
theorem State.transferDone_counts (m : Nat) (bits : List Bool) : (s.transferDone m bits).on Reg.AX_STAT_DONE m = true ∧
    (s.transferDone m bits).rd Reg.AX_CNT_CNT m = (s.rd Reg.AX_CNT_CNT m + 1) % 2 ^ Reg.AX_CNT_CNT.width ∧
    (s.transferDone m bits).rd Reg.AX_CNT_BITS m = s.rd Reg.AX_XFER_LEN m % 2 ^ Reg.AX_CNT_BITS.width := by
  obtain ⟨-, regs, -⟩ := s.bitsTaken_frame m bits
  simp (disch := decide) only [State.transferDone, State.on, State.incWrap_eq, State.rd_wr_word, State.rd_wr_apart,
    State.rd_wr_self, State.rd_congr s _ regs, and_true]
  rfl

theorem State.transferDone_aux (m : Nat) (bits : List Bool) (k : Nat) :
    (s.transferDone m bits).aux k = (s.bitsTaken m bits).aux k :=
  State.aux_congr (by simp only [State.transferDone, State.incWrap_eq, State.wr_auxs]) k

@[simp] theorem State.rd_modAux (m : Nat) (f : Aux → Aux) (g : Fld) (i : Nat) : (s.modAux m f).rd g i = s.rd g i := rfl

@[simp] theorem State.rd_auxRelease (m : Nat) (g : Fld) (i : Nat) : (s.auxRelease m).rd g i = s.rd g i := rfl

/-- The end of a transfer keeps time and registers. -/
theorem State.transferEnds_frame (m : Nat) : (s.transferEnds m).now = s.now ∧ (s.transferEnds m).regs = s.regs ∧
    ∀ k, k ≠ m → (s.transferEnds m).aux k = s.aux k := by
  unfold State.transferEnds
  split
  · exact ⟨rfl, rfl, fun k h => State.aux_modAux_other _ _ _ _ h⟩
  · exact ⟨rfl, rfl, fun k h => State.aux_modAux_other _ _ _ _ h⟩

theorem State.transferEnds_keep {m : Nat} (keep : s.on Reg.AX_XFER_KEEP m = true) :
    ((s.transferEnds m).aux m).state = .held ∧ ((s.transferEnds m).aux m).heldAt = s.now := by
  rw [State.transferEnds, if_pos keep, State.aux_modAux_self]
  exact ⟨rfl, rfl⟩

/-- A master that releases its select is BUSY until T later (R399; log entry 28). -/
theorem State.auxRelease_releases (m : Nat) : ((s.auxRelease m).aux m).state = .busy ∧
    ((s.auxRelease m).aux m).releaseAt = some (s.now + s.rd Reg.AX_DLY_TRAIL m) := by
  rw [State.auxRelease, State.aux_modAux_self]
  exact ⟨rfl, rfl⟩

theorem State.transferEnds_release {m : Nat} (keep : s.on Reg.AX_XFER_KEEP m = false) :
    ((s.transferEnds m).aux m).releaseAt = some (s.now + s.rd Reg.AX_DLY_TRAIL m) := by
  rw [State.transferEnds, if_neg (by simp [keep])]
  exact (s.auxRelease_releases m).2

/-- The words that a transfer's end reads are not those it counts in. -/
theorem State.rd_transferDone (m : Nat) (bits : List Bool) (f : Fld) (i : Nat) (h : f.word < 4096)
    (stat : f.word ≠ Reg.AX_STAT_DONE.word) (count : f.word ≠ Reg.AX_CNT_CNT.word) :
    (s.transferDone m bits).rd f i = s.rd f i := by
  rw [State.transferDone, State.incWrap_eq, State.rd_wr_word _ f Reg.AX_CNT_BITS _ _ _ (by decide) h count,
    State.rd_wr_word _ f Reg.AX_CNT_CNT _ _ _ (by decide) h count,
    State.rd_wr_word _ f Reg.AX_STAT_DONE _ _ _ (by decide) h stat]
  exact State.rd_congr s _ (s.bitsTaken_frame m bits).2.1 f i

/-- The select of a master is released, and it is IDLE (R399). -/
def State.selectReleased (m : Nat) : State :=
  (s.modAux m (fun x => { x with state := .idle, csOn := false, releaseAt := none })).emit (.auxSelect m (s.aux m).cs false)

theorem exec_axSelectRelease {m : Fin 8} {n : Nat} (run : s.running = true) (due : (s.aux m.val).releaseAt = some n) :
    exec (.axSelectRelease m) s = .next (if m.val = 0 then ((s.advance n).selectReleased m.val).resumeLoad
      else (s.advance n).selectReleased m.val) := by
  simp only [exec, execAxSelectRelease, run, due, Bool.not_true, Bool.false_eq_true, if_false]
  rfl

theorem State.selectReleased_aux (m : Nat) : (s.selectReleased m).aux m =
    { s.aux m with state := .idle, csOn := false, releaseAt := none } := by
  rw [State.selectReleased, State.aux_congr (State.emit_auxs ..), State.aux_modAux_self]

/-- A block load that goes on starts its read, and leaves the masters. -/
theorem State.resumeLoad_eq : ∃ f l, s.resumeLoad = { s with flash := f, out := l } := by
  unfold State.resumeLoad
  split
  · split
    · exact ⟨_, _, rfl⟩
    · exact ⟨s.flash, s.out, rfl⟩
  · exact ⟨s.flash, s.out, rfl⟩

theorem exec_axHeldTimeout (run : s.running = true) {m : Fin 8} (held : (s.aux m.val).state = .held) :
    exec (.axHeldTimeout m) s = .next (((s.advance ((s.aux m.val).heldAt + 64 * s.rd Reg.AX_TOUT m.val)).auxRelease
      m.val).auxError m.val Reg.AX_STAT_EV_TOUT 1) := by
  simp only [exec, execAxHeldTimeout, run, held, Bool.not_true, Bool.false_eq_true, if_false, ne_eq, not_true_eq_false]

/-! ### ABORT of a running transfer (R401) -/

/-- An accepted single write of one instance of a word with actions alone: those actions, with only octants that ask for RUN, the
chain part and CH_LASTST beside them. -/
theorem State.writeBits_acts (w : BitVec 12) (d : Word) (bits : List Bool) (h : s.takesWrite w.toNat d = true)
    (one : s.selAll w.toNat = false) (h1 : ¬ (0x301 ≤ w.toNat ∧ w.toNat ≤ 0x304)) (h2 : w.toNat ≠ 0x401) (u : State)
    (hu : u = actWord bits (applyWord (s.setReg (s.selOf w.toNat) w.toNat (mergeWord s (s.selOf w.toNat) w.toNat d))
      (s.selOf w.toNat) w.toNat (s.reg (s.selOf w.toNat) w.toNat)) (s.selOf w.toNat) w.toNat d) :
    ∃ x r o, s.writeBits w d bits = { u with chain := x, regs := r, octs := o } ∧
      ∀ i v, i * 4096 + v ≠ 0x047 → (s.writeBits w d bits).reg i v = u.reg i v := by
  have check : s.checkWrite w.toNat [d] true = none := by
    unfold State.takesWrite at h
    simp only [Bool.and_eq_true, Option.isNone_iff_eq_none] at h
    exact h.1.2
  rw [s.writeBits_takes w d bits h, s.applyWrite_one w.toNat d check one, State.takeEffect_one _ _ _ (by exact h1) (by exact h2)]
  dsimp only
  rw [← hu]
  obtain ⟨o, e⟩ := u.notePermits_eq
  obtain ⟨x, r, k, l⟩ := u.notePermits.answerWrite_frame (slotHead 2 w d) true w.toNat (accessTime true w.toNat 1 true)
  refine ⟨x, r, o, ?_, fun i v hv => ?_⟩
  · rw [k, e]
  · rw [l i v hv, e]
    rfl

/-- A write of AX_CTL with ABORT and without START stores the word and aborts. -/
theorem actWord_axAbort (bits : List Bool) (i : Nat) (old : Word) {d : Word} (abort : Reg.AX_CTL_ABORT.get d = 1)
    (start : Reg.AX_CTL_START.get d = 0) :
    actWord bits (applyWord s i 0x884 old) i 0x884 d = s.auxAbort i bits := by
  simp [actWord, applyWord, applyBlock, settingOct, axApply, isAperture, axAct, abort, start]

/-- The bits of the transfer up to the abort are taken and counted (R401). -/
theorem State.auxAbort_running {m : Nat} (busy : (s.aux m).state = .busy) (open_ : (s.aux m).releaseAt = none)
    (begun : (s.aux m).startWaits = false) (bits : List Bool) :
    ∃ u : State, u.now = s.now ∧ u.rd Reg.AX_DLY_TRAIL m = s.rd Reg.AX_DLY_TRAIL m ∧
      s.auxAbort m bits = (u.auxRelease m).auxError m Reg.AX_STAT_EV_ABORT 2 := by
  simp only [State.auxAbort, busy, open_, begun, Option.isSome_none, Bool.false_eq_true, if_false]
  refine ⟨_, ?_, ?_, rfl⟩
  · simp only [State.takeFree, State.wr_now, State.modAux, State.setAux]
  · rw [State.rd_wr_word _ _ _ _ _ _ (by decide) (by decide) (by decide), State.rd_modAux]
    rfl

/-- AX_CTL with the written word stored. -/
def State.axCtlStored (d : Word) : State := s.setReg (s.selOf 0x884) 0x884 (mergeWord s (s.selOf 0x884) 0x884 d)

theorem State.axCtlStored_keeps (d : Word) (m : Nat) : (s.axCtlStored d).aux m = s.aux m ∧ (s.axCtlStored d).now = s.now ∧
    (s.axCtlStored d).rd Reg.AX_DLY_TRAIL m = s.rd Reg.AX_DLY_TRAIL m := by
  unfold State.axCtlStored
  exact ⟨State.aux_congr (State.setReg_auxs ..) m, State.setReg_now ..,
    congrArg Reg.AX_DLY_TRAIL.get (s.reg_setReg_word _ _ _ _ _ (by decide) (by decide) (by decide))⟩

theorem State.writeBits_axAbort {d : Word} (abort : Reg.AX_CTL_ABORT.get d = 1) (start : Reg.AX_CTL_START.get d = 0)
    (takes : s.takesWrite 0x884 d = true) (one : s.selAll 0x884 = false) (bits : List Bool) :
    ∃ x r o, s.writeBits 0x884 d bits = { (s.axCtlStored d).auxAbort (s.selOf 0x884) bits with chain := x, regs := r, octs := o } ∧
      ∀ i v, i * 4096 + v ≠ 0x047 →
        (s.writeBits 0x884 d bits).reg i v = ((s.axCtlStored d).auxAbort (s.selOf 0x884) bits).reg i v :=
  s.writeBits_acts 0x884 d bits takes one (by decide) (by decide) _ (actWord_axAbort _ bits _ _ abort start).symm

theorem exec_axAbort_running {m : Nat} {d : Word} (abort : Reg.AX_CTL_ABORT.get d = 1) (start : Reg.AX_CTL_START.get d = 0)
    (takes : s.takesWrite 0x884 d = true) (one : s.selAll 0x884 = false) (sel : s.selOf 0x884 = m)
    (busy : (s.aux m).state = .busy) (open_ : (s.aux m).releaseAt = none) (begun : (s.aux m).startWaits = false)
    (bits : List Bool) : ∃ t, exec (.axAbort d bits) s = .next t ∧ (t.aux m).state = .busy ∧
      (t.aux m).releaseAt = some (s.now + s.rd Reg.AX_DLY_TRAIL m) ∧ t.on Reg.AX_STAT_EV_ABORT m = true := by
  subst sel
  obtain ⟨x, r, o, e, regs⟩ := s.writeBits_axAbort abort start takes one bits
  obtain ⟨aux, now, trail⟩ := s.axCtlStored_keeps d (s.selOf 0x884)
  obtain ⟨u, same, delay, acts⟩ := (s.axCtlStored d).auxAbort_running (by rw [aux, busy]) (by rw [aux, open_]) (by rw [aux, begun]) bits
  obtain ⟨masterBusy, release⟩ := u.auxRelease_releases (s.selOf 0x884)
  have flag := (u.auxRelease (s.selOf 0x884)).auxError_flag (s.selOf 0x884) Reg.AX_STAT_EV_ABORT 2 (by decide) (by decide)
    (by decide) rfl
  have master : (s.writeBits 0x884 d bits).aux (s.selOf 0x884) = (u.auxRelease (s.selOf 0x884)).aux (s.selOf 0x884) := by
    rw [← (u.auxRelease (s.selOf 0x884)).aux_auxError (s.selOf 0x884) Reg.AX_STAT_EV_ABORT 2, ← acts, e]
    rfl
  refine ⟨_, rfl, ?_, ?_, ?_⟩
  · rw [master, masterBusy]
  · rw [master, release, same, now, delay, trail]
  · rw [← flag, ← acts]
    exact congrArg (fun w => Reg.AX_STAT_EV_ABORT.get w == 1) (regs _ _ (by change _ * 4096 + 0x885 ≠ _; omega))

/-- Settles O52: the end of a transfer, of its trail delay and of HELD, and an ABORT, by the rule of each. -/
theorem auxiliaryTransfersEnd : Obligations.AuxiliaryTransfersEnd := by
  unfold Obligations.AuxiliaryTransfersEnd
  intro s m run
  refine ⟨fun bits busy begun open_ => ?_, fun n due other => ?_, fun n due => ?_, fun held => ?_,
    fun d bits abort start takes one sel busy open_ begun => ?_⟩
  · obtain ⟨done, count, length⟩ := s.transferDone_counts m.val bits
    obtain ⟨now, regs, others⟩ := (s.transferDone m.val bits).transferEnds_frame m.val
    have keeps : (s.transferDone m.val bits).rd Reg.AX_XFER_KEEP m.val = s.rd Reg.AX_XFER_KEEP m.val :=
      s.rd_transferDone _ _ _ _ (by decide) (by decide) (by decide)
    refine ⟨_, exec_axTransferDone s run busy begun open_ bits, now.trans (s.transferDone_now m.val bits), ?_, ?_, ?_,
      fun keep => ?_, fun keep => ?_, fun k h => ?_⟩
    · rw [State.on, State.rd_congr _ _ regs]
      exact done
    · rw [State.rd_congr _ _ regs, count]
    · rw [State.rd_congr _ _ regs, length]
    · rw [now]
      exact State.transferEnds_keep _ (by rw [State.on, keeps]; exact keep)
    · rw [State.transferEnds_release _ (by rw [State.on, keeps]; exact keep), now,
        s.rd_transferDone _ _ _ _ (by decide) (by decide) (by decide)]
    · rw [others k h, State.transferDone_aux]
      exact (s.bitsTaken_frame m.val bits).2.2 k h
  · refine ⟨_, exec_axSelectRelease s run due, ?_⟩
    rw [if_neg other]
    have aux : (s.advance n).aux m.val = s.aux m.val := State.aux_congr (s.advance_auxs n) _
    refine ⟨s.advance_now n, ?_, ?_, s.advance_regs n⟩
    · rw [State.selectReleased_aux, aux]
    · exact congrArg₂ (fun l x => l ++ [Out.auxSelect m.val (Aux.cs x) false]) (s.advance_out n) aux
  · have now := s.advance_now n
    have regs := s.advance_regs n
    have aux := (s.advance n).selectReleased_aux m.val
    refine ⟨_, exec_axSelectRelease s run due, ?_⟩
    split
    · obtain ⟨f, l, e⟩ := ((s.advance n).selectReleased m.val).resumeLoad_eq
      rw [e]
      exact ⟨now, congrArg Aux.state aux, congrArg Aux.csOn aux, regs⟩
    · exact ⟨now, congrArg Aux.state aux, congrArg Aux.csOn aux, regs⟩
  · obtain ⟨busy, release⟩ := (s.advance ((s.aux m.val).heldAt + 64 * s.rd Reg.AX_TOUT m.val)).auxRelease_releases m.val
    refine ⟨_, exec_axHeldTimeout s run held, ?_, ?_, ?_, State.auxError_flag _ _ _ _ (by decide) (by decide) (by decide) rfl⟩
    · rw [State.auxError_now]
      exact s.advance_now _
    · rw [State.aux_auxError, busy]
    · rw [State.aux_auxError, release, State.auxError_now, State.rd_advance]
      rfl
  · exact exec_axAbort_running s abort start takes one sel busy open_ begun bits

end Sys2Proof.Machine
end

section
namespace Sys2Proof.Machine

/-! ### What a stack's state reaches (R28, R143, R229) -/

/-- From `r` to `s` ports, pins and outputs apart, nothing changed. -/
def PadsMove (r s : State) : Prop := ∃ ports pins out, s = { r with ports := ports, pins := pins, out := out }

namespace PadsMove

variable {r s t : State}

theorem refl (s : State) : PadsMove s s := ⟨s.ports, s.pins, s.out, rfl⟩

theorem trans (h : PadsMove r s) (k : PadsMove s t) : PadsMove r t := by
  obtain ⟨a, b, c, rfl⟩ := h
  obtain ⟨x, y, z, rfl⟩ := k
  exact ⟨x, y, z, rfl⟩

theorem ite {c : Prop} [Decidable c] (h : PadsMove r s) (k : PadsMove r t) : PadsMove r (if c then s else t) := by
  split
  · exact h
  · exact k

theorem foldl {β : Type} {f : State → β → State} (k : ∀ s b, PadsMove s (f s b)) (l : List β) (s : State) :
    PadsMove s (l.foldl f s) :=
  List.foldlRecOn (motive := fun t => PadsMove s t) l f (refl s) fun t h b _ => h.trans (k t b)

theorem setPort (s : State) (p : Nat) (x : Port) : PadsMove s (s.setPort p x) := ⟨_, s.pins, s.out, rfl⟩

end PadsMove

variable (s : State)

theorem State.drive_padsMove (q : Nat) (b : Bool) : PadsMove s (s.drive q b) :=
  .ite ⟨s.ports, _, _, rfl⟩ (.refl s)

theorem State.setRts_padsMove (p : Nat) : PadsMove s (s.setRts p) :=
  .ite ((PadsMove.setPort s p _).trans (State.drive_padsMove _ _ _)) (PadsMove.setPort s p _)

theorem State.flowRelease_padsMove (p : Nat) : PadsMove s (s.flowRelease p) := by
  have pressure : PadsMove s (s.notePressure p) := .ite (.setPort s p _) (.ite (.setPort s p _) (.refl s))
  have decided (t : State) : PadsMove t (t.takeDecision p false) := (PadsMove.setPort t p _).trans (State.setRts_padsMove _ p)
  exact .ite (pressure.trans (decided _)) pressure

/-- A state of stack 0 moves pads and ports alone. -/
theorem State.setMem0_eq (x : DomState) : ∃ ports pins out,
    s.setMem0 x = { s with power := { s.power with mem0 := x }, ports := ports, pins := pins, out := out } :=
  PadsMove.foldl State.flowRelease_padsMove _ { s with power := { s.power with mem0 := x } }

@[simp] theorem State.advance_power (n : Nat) : (s.advance n).power = s.power := by
  obtain ⟨c, e⟩ := s.advance_eq n
  rw [e]

@[simp] theorem State.advance_ports (n : Nat) : (s.advance n).ports = s.ports := by
  obtain ⟨c, e⟩ := s.advance_eq n
  rw [e]

@[simp] theorem State.advance_segments (n : Nat) : (s.advance n).segments = s.segments := by
  obtain ⟨c, e⟩ := s.advance_eq n
  rw [e]

end Sys2Proof.Machine
end

section
namespace Sys2Proof.Machine

/-! ### Domains go to sleep and return (R431) -/

section

variable {s : State} (past : s.pastV = true)
include past

theorem exec_coreSleeps (awake : s.power.core = .run) (idle : s.coreBusy = false) :
    exec (.domainSleepEnter .core .idle) s =
      .next { s.advance (s.coreIdleFrom + 1600) with power := { s.power with core := .idle } } := by
  simp [exec, execDomainSleepEnter, past, awake, idle]

theorem exec_hostSleeps (cold : s.link.d3hot = true) (awake : s.power.host ≠ .dark) :
    exec (.domainSleepEnter .host .dark) s =
      .next (({ s with power := { s.power with host := .dark }, link := { s.link with pm := .l2 } } : State).noteSleep) := by
  simp [exec, execDomainSleepEnter, past, cold, awake]

theorem exec_hingeSleeps (solo : s.rd Reg.HG_CFG_ROLE = 0) : exec (.domainSleepEnter .hinge .dark) s =
    .next { s with power := { s.power with hinge := .dark }, hinge := { s.hinge with up := false } } := by
  simp [exec, execDomainSleepEnter, past, solo]

theorem exec_mem0Sleeps {into : DomState}
    (may : memMay s.power.mem0 into (s.rd Reg.PW_MEMCFG_MAXST0) s.reserveHolds s.mem0Wanted = true) :
    exec (.domainSleepEnter .mem0 into) s = .next ((s.advance (s.power.mem0At + s.memRest into)).setMem0 into) := by
  simp only [exec, execDomainSleepEnter, past, may, Bool.not_true, Bool.false_eq_true, if_false, if_true]

theorem exec_mem1Sleeps {into : DomState}
    (may : memMay s.power.mem1 into (s.rd Reg.PW_MEMCFG_MAXST1) (!s.segments.isEmpty) s.mem1Wanted = true) :
    exec (.domainSleepEnter .mem1 into) s =
      .next { s.advance (s.power.mem1At + s.memRest into) with power := { s.power with mem1 := into } } := by
  simp only [exec, execDomainSleepEnter, past, may, Bool.not_true, Bool.false_eq_true, if_false, if_true]

end

theorem exec_domainSleepEnter_early {s : State} (early : s.pastV = false) (d : Domain) (into : DomState) :
    exec (.domainSleepEnter d into) s = .next s := by
  simp [exec, execDomainSleepEnter, early]

/-- The sleep condition follows the host side without a change of power, link state or time (R206). -/
theorem State.noteSleep_keeps_power (s : State) :
    s.noteSleep.power = s.power ∧ s.noteSleep.link.pm = s.link.pm ∧ s.noteSleep.now = s.now := by
  obtain ⟨a, w, x, e⟩ := s.noteSleep_marks
  obtain ⟨g, f⟩ := State.noteReadyAll_eq { s with link := { s.link with sleepAt := a, waiting := w }, srcs := x }
  rw [e, f]
  exact ⟨rfl, rfl, rfl⟩

section

variable {s : State} (run : s.running = true)
include run

theorem exec_coreWakes (asleep : s.power.core ≠ .run) : exec (.domainWake .core) s =
    .next { s.advance (s.now + 16) with
      power := { (s.advance (s.now + 16)).power with core := .run, coreAt := (s.advance (s.now + 16)).now } } := by
  simp only [exec, execDomainWake, run, asleep, Bool.not_true, Bool.false_eq_true, if_false]

theorem exec_hostWakes (asleep : s.power.host = .nap) (warm : s.link.d3hot = false) : exec (.domainWake .host) s =
    .next { s.advance (s.now + 32) with power := { (s.advance (s.now + 32)).power with host := .run } } := by
  simp [exec, execDomainWake, run, asleep, warm]

theorem exec_hingeWakes (asleep : s.power.hinge = .dark) (pair : s.rd Reg.HG_CFG_ROLE ≠ 0) : exec (.domainWake .hinge) s =
    .next { s.advance (s.now + 64000) with power := { (s.advance (s.now + 64000)).power with hinge := .run } } := by
  simp [exec, execDomainWake, run, asleep, pair]

theorem exec_mem0Wakes (asleep : s.power.mem0 ≠ .run) {t : State}
    (at_ : t = s.advance (s.power.wake0.getD s.now + memLatency s.power.mem0)) : exec (.domainWake .mem0) s =
      .next (State.setMem0 { t with power := { t.power with mem0At := t.now, wake0 := none } } .run) := by
  subst at_
  simp only [exec, execDomainWake, run, asleep, Bool.not_true, Bool.false_eq_true, if_false]

theorem exec_mem1Wakes (asleep : s.power.mem1 ≠ .run) {t : State}
    (at_ : t = s.advance (s.power.wake1.getD s.now + memLatency s.power.mem1)) : exec (.domainWake .mem1) s =
      .next { t with power := { t.power with mem1 := .run, mem1At := t.now, wake1 := none } } := by
  subst at_
  simp only [exec, execDomainWake, run, asleep, Bool.not_true, Bool.false_eq_true, if_false]

end

/-- Settles O57: each domain's entry and return, by the rule of the domain. -/
theorem domainsSleepAndWake : Obligations.DomainsSleepAndWake := by
  unfold Obligations.DomainsSleepAndWake
  intro s
  refine ⟨fun past => ⟨fun awake idle => ?_, fun cold awake => ?_, exec_hingeSleeps past, fun into may => ?_, fun into may => ?_⟩,
    exec_domainSleepEnter_early,
    fun run => ⟨fun asleep => ?_, fun asleep warm => ?_, fun asleep pair => ?_, fun asleep => ?_, fun asleep => ?_⟩⟩
  · exact ⟨_, exec_coreSleeps past awake idle, s.advance_now _, rfl, s.advance_regs _, s.advance_ports _⟩
  · obtain ⟨power, pm, now⟩ := State.noteSleep_keeps_power
      ({ s with power := { s.power with host := .dark }, link := { s.link with pm := .l2 } } : State)
    exact ⟨_, exec_hostSleeps past cold awake, power, pm, now⟩
  · refine ⟨_, exec_mem0Sleeps past may, ?_⟩
    obtain ⟨ports, pins, out, e⟩ := (s.advance (s.power.mem0At + s.memRest into)).setMem0_eq into
    rw [e, State.advance_power]
    exact ⟨rfl, s.advance_regs _, s.advance_now _⟩
  · exact ⟨_, exec_mem1Sleeps past may, rfl, s.advance_regs _, s.advance_segments _, s.advance_now _⟩
  · refine ⟨_, exec_coreWakes run asleep, ?_, ?_, s.advance_regs _⟩
    · exact (s.advance_now _).trans (Nat.max_eq_right (Nat.le_add_right ..))
    · rw [State.advance_power]
  · refine ⟨_, exec_hostWakes run asleep warm, ?_, ?_, s.advance_regs _⟩
    · exact (s.advance_now _).trans (Nat.max_eq_right (Nat.le_add_right ..))
    · rw [State.advance_power]
  · refine ⟨_, exec_hingeWakes run asleep pair, ?_, ?_, s.advance_regs _⟩
    · exact (s.advance_now _).trans (Nat.max_eq_right (Nat.le_add_right ..))
    · rw [State.advance_power]
  · refine ⟨_, exec_mem0Wakes run asleep rfl, ?_⟩
    obtain ⟨ports, pins, out, e⟩ := State.setMem0_eq _ _
    rw [e, State.advance_power]
    exact ⟨s.advance_now _, rfl, s.advance_regs _⟩
  · refine ⟨_, exec_mem1Wakes run asleep rfl, s.advance_now _, ?_, s.advance_regs _⟩
    rw [State.advance_power]

end Sys2Proof.Machine
end

section
namespace Sys2Proof.Machine

/-! ### The Iatil load (R420 to R422) -/

variable (s : State)

theorem State.endRead_reading (reading : (s.aux 0).state = .boot) : s.endRead =
    { s.setAux 0 {} with regs := resetWords auxWords s.regs, flash := {}, out := s.out ++ [.auxSelect 0 0 false] } := by
  have boots : ¬ ((s.aux 0).state != .boot) = true := by simp [reading]
  rw [State.endRead, if_neg boots, State.setReg_resetWords]
  simp only [State.emit, State.setAux]

theorem State.endRead_over (ended : (s.aux 0).state ≠ .boot) : s.endRead = s := by
  have boots : ((s.aux 0).state != .boot) = true := by simp [ended]
  rw [State.endRead, if_pos boots]

/-- The end of the image read gives AUX0 and the flash reader back, and changes no other part of the device. -/
theorem State.endRead_eq : ∃ regs x f l, s.endRead = { s with regs := regs, auxs := x, flash := f, out := l } := by
  by_cases reading : (s.aux 0).state = .boot
  · exact ⟨_, _, _, _, s.endRead_reading reading⟩
  · exact ⟨s.regs, s.auxs, s.flash, s.out, s.endRead_over reading⟩

theorem State.endRead_aux : (s.endRead.aux 0).state ≠ .boot := by
  by_cases reading : (s.aux 0).state = .boot
  · have auxs : s.endRead.auxs = (s.setAux 0 {}).auxs := by rw [s.endRead_reading reading]
    rw [State.aux_congr auxs, State.aux_setAux_self]
    decide
  · rw [s.endRead_over reading]
    exact reading

theorem State.endRead_boot : s.endRead.boot = s.boot := by
  obtain ⟨regs, x, f, l, e⟩ := s.endRead_eq
  rw [e]

theorem State.endRead_now : s.endRead.now = s.now := by
  obtain ⟨regs, x, f, l, e⟩ := s.endRead_eq
  rw [e]

/-- A load that ends is in WAIT, with its code and offset shown (R421). -/
theorem State.endLoad_shows {code : Nat} (offset : Nat) (h : code < 16) : (s.endLoad code offset).boot.stage = .wait ∧
    (s.endLoad code offset).rd Reg.GL_BOOTSTAT_ERR = code ∧ (s.endLoad code offset).reg 0 0x012 = BitVec.ofNat 32 offset := by
  unfold State.endLoad
  refine ⟨?_, ?_, ?_⟩
  · simp only [State.raiseEvent_boot, State.setReg_boot, State.wr_boot]
  · rw [State.rd_raiseEvent _ _ _ _ _ _ (by decide) (by decide), State.rd,
      State.reg_setReg_word _ _ _ _ _ _ (by decide) (by decide) (by decide)]
    exact (State.rd_wr_self _ _ _ _ (by decide)).trans (Nat.mod_eq_of_lt h)
  · rw [State.raiseEvent_reg _ _ _ _ _ _ (by decide) (by decide), State.reg_setReg_self]

theorem State.endLoad_now (code offset : Nat) : (s.endLoad code offset).now = s.now := by
  simp only [State.endLoad, State.raiseEvent_now, State.setReg_now, State.wr_now, State.endRead_now]

/-! #### The header at its 256th byte -/

/-- A header that stands: the read goes on, at the clock the image asks for (R420). -/
def State.headerStands (h : List Byte) : State :=
  let fast := imgFast h && !s.boot.retried
  let t := ({ s with boot := { s.boot with header := some h, fast := fast } } : State).wrBit Reg.GL_BOOTSTAT_HOLD (imgHold h)
  if fast then (t.wr Reg.GL_BOOTSTAT_FASTCLK 1).emit (.imageRead (imgHalf h)) else t

theorem State.headerStands_shows (h : List Byte) : (s.headerStands h).boot =
      { s.boot with header := some h, fast := imgFast h && !s.boot.retried } ∧
    (s.headerStands h).now = s.now ∧ (s.headerStands h).on Reg.GL_BOOTSTAT_HOLD = imgHold h := by
  unfold State.headerStands
  dsimp only
  split
  · refine ⟨by simp only [State.emit_boot, State.wr_boot, State.wrBit_eq],
      by simp only [State.emit_now, State.wr_now, State.wrBit_eq], ?_⟩
    rw [State.on, State.rd_congr _ _ (State.emit_regs _ _), State.rd_wr_apart _ _ _ _ _ _ (by decide) (by decide) (by decide)]
    exact State.on_wrBit_self _ _ _ _ (by decide) rfl
  · exact ⟨by simp only [State.wr_boot, State.wrBit_eq], by simp only [State.wr_now, State.wrBit_eq],
      State.on_wrBit_self _ _ _ _ (by decide) rfl⟩

theorem State.headerFault_advance (n : Nat) (h : List Byte) : (s.advance n).headerFault h = s.headerFault h := by
  obtain ⟨c, e⟩ := s.advance_eq n
  rw [e]
  rfl

/-! #### What a check leaves -/

/-- The edge at which LENGTH bytes have been read (R420). -/
def State.readEnd (h : List Byte) : Nat :=
  s.boot.readAt + (5 + 256) * byteTime 32 + (imgLength h - 256) * byteTime (if s.boot.fast then imgHalf h else 32)

/-- The digest stands: the read ends, and the signature comes next. -/
def State.digestStands (h img : List Byte) : State :=
  let t := s.endRead
  { t with boot := { t.boot with image := some img, digestOk := true, sigOk := !needsSignature h } }

/-- The digest of a fast read fails: the read is tried once more at 25 MHz. -/
def State.readAgain : State :=
  let t := s.wr Reg.GL_BOOTSTAT_RETRY 1
  ({ t with boot := { t.boot with header := none, fast := false, retried := true, readAt := t.now } } : State).emit (.imageRead 32)

theorem State.digestStands_shows (h img : List Byte) : (s.digestStands h img).boot =
      { s.boot with image := some img, digestOk := true, sigOk := !needsSignature h } ∧
    ((s.digestStands h img).aux 0).state ≠ .boot := by
  refine ⟨?_, s.endRead_aux⟩
  simp only [State.digestStands, State.endRead_boot]

theorem State.readAgain_shows :
    s.readAgain.boot = { s.boot with header := none, fast := false, retried := true, readAt := s.now } ∧
    s.readAgain.on Reg.GL_BOOTSTAT_RETRY = true := by
  refine ⟨by simp only [State.readAgain, State.emit_boot, State.wr_boot, State.wr_now], ?_⟩
  have regs : s.readAgain.regs = (s.wr Reg.GL_BOOTSTAT_RETRY 1).regs := by simp only [State.readAgain, State.emit_regs]
  rw [State.on, State.rd_congr _ _ regs, State.rd_wr_self _ _ _ _ (by decide)]
  rfl

/-- The image in force: its identifier is kept, the load has no error, and a CONFIG entry names it (R422, R449). -/
def State.imageInForce (img : List Byte) : State :=
  let t : State := { s with boot := { s.boot with imageId := BitVec.ofNat 64 (imgField img 24 8), image := none, header := none,
                                                  stage := .loaded } }
  ((t.wr Reg.GL_BOOTSTAT_ERR 0).setReg 0 0x012 0).configEntry 1 (slice img 32 32) (BitVec.ofNat 64 (imgField img 24 8)).toNat

theorem State.formEntry_boot (kind nrec port : Nat) (body : List Byte) :
    (s.formEntry kind nrec port body).boot = s.boot := by
  unfold State.formEntry
  dsimp only
  split
  · rfl
  · split
    · simp only [State.incSat_eq, State.wr_boot]
    · rfl

theorem State.imageInForce_shows (img : List Byte) : (s.imageInForce img).boot =
      { s.boot with imageId := BitVec.ofNat 64 (imgField img 24 8), image := none, header := none, stage := .loaded } ∧
    (s.imageInForce img).rd Reg.GL_BOOTSTAT_ERR = 0 := by
  unfold State.imageInForce State.configEntry
  refine ⟨?_, ?_⟩
  · simp only [State.formEntry_boot, State.setReg_boot, State.wr_boot]
  · rw [State.rd_formEntry _ _ _ _ _ _ _ (by decide) (by decide), State.rd,
      State.reg_setReg_word _ _ _ _ _ _ (by decide) (by decide) (by decide)]
    exact State.rd_wr_self _ _ _ _ (by decide)

/-! #### The commands of the load -/

section

variable {s} (run : s.running = true) (load : s.boot.stage = .load)
include run load

theorem exec_imageHeaderCheck_fault (found : s.flash.discovering = false) (first : s.boot.header = none) {header : List Byte}
    {code a : Nat} (fault : s.headerFault (padTo 256 header) = some (code, a)) :
    exec (.imageHeaderCheck header) s = .next ((s.advance (s.boot.readAt + 261 * 512)).endLoad code a) := by
  simp only [exec, execImageHeaderCheck, run, load, found, first, State.headerFault_advance, fault, Bool.not_true,
    bne_self_eq_false, Option.isSome_none, Bool.or_self, Bool.false_eq_true, if_false]
  rfl

theorem exec_imageHeaderCheck_stands (found : s.flash.discovering = false) (first : s.boot.header = none) {header : List Byte}
    (stands : s.headerFault (padTo 256 header) = none) :
    exec (.imageHeaderCheck header) s =
      .next ((s.advance (s.boot.readAt + 261 * 512)).headerStands (padTo 256 header)) := by
  simp only [exec, execImageHeaderCheck, run, load, found, first, State.headerFault_advance, stands, Bool.not_true,
    bne_self_eq_false, Option.isSome_none, Bool.or_self, Bool.false_eq_true, if_false]
  rfl

theorem exec_imageReadEnd_stands {h image img : List Byte} (header : s.boot.header = some h) (first : s.boot.image = none)
    (read : img = h ++ (padTo (imgLength h) image).drop 256) (digest : sha256 (imgMessage img) = slice h 32 32) :
    exec (.imageReadEnd image) s = .next ((s.advance (s.readEnd h)).digestStands h img) := by
  subst read
  simp only [exec, execImageReadEnd, run, load, header, first, digest, Bool.not_true, bne_self_eq_false,
    Option.isSome_none, Bool.or_self, Bool.false_eq_true, if_false, if_true]
  rfl

theorem exec_imageReadEnd_again {h image img : List Byte} (header : s.boot.header = some h) (first : s.boot.image = none)
    (read : img = h ++ (padTo (imgLength h) image).drop 256) (digest : sha256 (imgMessage img) ≠ slice h 32 32)
    (fast : s.boot.fast = true) :
    exec (.imageReadEnd image) s = .next (s.advance (s.readEnd h)).readAgain := by
  subst read
  simp only [exec, execImageReadEnd, run, load, header, first, digest, fast, State.advance_boot, Bool.not_true, bne_self_eq_false,
    Option.isSome_none, Bool.or_self, Bool.false_eq_true, if_false, if_true, State.readEnd]
  rfl

theorem exec_imageReadEnd_fails {h image img : List Byte} (header : s.boot.header = some h) (first : s.boot.image = none)
    (read : img = h ++ (padTo (imgLength h) image).drop 256) (digest : sha256 (imgMessage img) ≠ slice h 32 32)
    (slow : s.boot.fast = false) :
    exec (.imageReadEnd image) s = .next ((s.advance (s.readEnd h)).endLoad 5 0) := by
  subst read
  simp only [exec, execImageReadEnd, run, load, header, first, digest, slow, State.advance_boot, Bool.not_true, bne_self_eq_false,
    Option.isSome_none, Bool.or_self, Bool.false_eq_true, if_false, State.readEnd]

theorem exec_signatureVerified_stands {img : List Byte} (image : s.boot.image = some img) (unsigned : s.boot.sigOk = false)
    (stands : Config.verify (slice img 64 64) (sha256 (imgMessage img)) (slice img 128 64) = true) :
    exec .signatureVerified s =
      .next (({ s with boot := { s.boot with sigOk := true } } : State).wr Reg.GL_BOOTSTAT_SIGNED 1) := by
  simp [exec, execSignatureVerified, run, load, image, unsigned, stands]

theorem exec_signatureVerified_fails {img : List Byte} (image : s.boot.image = some img) (unsigned : s.boot.sigOk = false)
    (fails : Config.verify (slice img 64 64) (sha256 (imgMessage img)) (slice img 128 64) = false) :
    exec .signatureVerified s = .next (s.endLoad 7 0) := by
  simp [exec, execSignatureVerified, run, load, image, unsigned, fails]

theorem exec_imageApply_rejects {img : List Byte} {a : Nat} (image : s.boot.image = some img) (digest : s.boot.digestOk = true)
    (signed : s.boot.sigOk = true) (body : s.bodyOf img = .error a) : exec .imageApply s = .next (s.endLoad 8 a) := by
  simp [exec, execImageApply, run, load, image, digest, signed, body]

theorem exec_imageApply_applies {img : List Byte} {ws : List (Nat × Word)} (image : s.boot.image = some img)
    (digest : s.boot.digestOk = true) (signed : s.boot.sigOk = true) (body : s.bodyOf img = .ok ws) :
    ∃ u : State, exec .imageApply s =
      .next (if imgHold img then u.imageInForce img else (u.imageInForce img).startVern) := by
  simp only [exec, execImageApply, run, load, image, digest, signed, body, Bool.not_true, bne_self_eq_false, Bool.or_self,
    Bool.false_eq_true, if_false]
  exact ⟨_, rfl⟩

end

/-- Settles O54: each check of the load ends in `State.endLoad` or goes on with what it stands for. -/
theorem theLoadChecksAndApplies : Obligations.TheLoadChecksAndApplies := by
  unfold Obligations.TheLoadChecksAndApplies
  intro s run load
  refine ⟨fun header found first => ?_, fun h image img header first read => ?_, fun img image unsigned => ?_,
    fun img image digest signed => ⟨fun a body => ?_, fun ws body => ?_⟩⟩
  · cases fault : s.headerFault (padTo 256 header) with
    | some f =>
      obtain ⟨code, a⟩ := f
      refine ⟨_, exec_imageHeaderCheck_fault run load found first fault, ?_, ?_, nofun⟩
      · rw [State.endLoad_now, State.advance_now]
      · rintro _ _ ⟨⟩ h
        exact State.endLoad_shows _ a h
    | none =>
      obtain ⟨boot, now, hold⟩ := (s.advance (s.boot.readAt + 261 * 512)).headerStands_shows (padTo 256 header)
      refine ⟨_, exec_imageHeaderCheck_stands run load found first fault, ?_, nofun, fun _ => ?_⟩
      · rw [now, State.advance_now]
      · rw [boot, State.advance_boot]
        exact ⟨load, rfl, rfl, hold⟩
  · by_cases digest : sha256 (imgMessage img) = slice h 32 32
    · obtain ⟨boot, aux⟩ := (s.advance (s.readEnd h)).digestStands_shows h img
      refine ⟨_, exec_imageReadEnd_stands run load header first read digest, fun _ => ?_, fun fails => absurd digest fails⟩
      rw [boot, State.advance_boot]
      exact ⟨load, rfl, rfl, rfl, aux⟩
    · cases fast : s.boot.fast with
      | true =>
        obtain ⟨boot, retry⟩ := (s.advance (s.readEnd h)).readAgain_shows
        refine ⟨_, exec_imageReadEnd_again run load header first read digest fast, fun stands => absurd stands digest,
          fun _ => ⟨fun _ => ?_, nofun⟩⟩
        rw [boot, State.advance_boot]
        exact ⟨load, rfl, rfl, rfl, retry⟩
      | false =>
        obtain ⟨stage, code, -⟩ := (s.advance (s.readEnd h)).endLoad_shows (code := 5) 0 (by decide)
        exact ⟨_, exec_imageReadEnd_fails run load header first read digest fast, fun stands => absurd stands digest,
          fun _ => ⟨nofun, fun _ => ⟨stage, code⟩⟩⟩
  · cases verdict : Config.verify (slice img 64 64) (sha256 (imgMessage img)) (slice img 128 64) with
    | true =>
      refine ⟨_, exec_signatureVerified_stands run load image unsigned verdict, State.wr_now .., fun _ => ⟨State.wr_boot .., ?_⟩, nofun⟩
      rw [State.on, State.rd_wr_self _ _ _ _ (by decide)]
      rfl
    | false =>
      obtain ⟨stage, code, -⟩ := s.endLoad_shows (code := 7) 0 (by decide)
      exact ⟨_, exec_signatureVerified_fails run load image unsigned verdict, s.endLoad_now 7 0, nofun, fun _ => ⟨stage, code⟩⟩
  · exact ⟨_, exec_imageApply_rejects run load image digest signed body, s.endLoad_shows a (by decide)⟩
  · obtain ⟨u, e⟩ := exec_imageApply_applies run load image digest signed body
    obtain ⟨boot, code⟩ := u.imageInForce_shows img
    refine ⟨_, e, ?_⟩
    cases hold : imgHold img with
    | true =>
      rw [if_pos rfl, boot]
      exact ⟨rfl, rfl, code, fun _ => rfl, nofun⟩
    | false =>
      rw [if_neg Bool.false_ne_true]
      have vern : (u.imageInForce img).startVern.boot =
          { (u.imageInForce img).boot with stage := .vern, vAt := some ((u.imageInForce img).now + 16000) } := rfl
      rw [vern, boot]
      exact ⟨rfl, rfl, code, nofun, fun _ => ⟨rfl, rfl⟩⟩

end Sys2Proof.Machine
end

section
namespace Sys2Proof.Machine

/-! ### Records stay in staging

Raising an event may form further records and note one as counted; a record that stands in staging stays there, with its type,
ring and base stamp. -/

variable (s : State)

/-- Every record of `r`'s staging stands in `s`'s. -/
def StagedStay (r s : State) : Prop :=
  ∀ x ∈ r.staging, ∃ y ∈ s.staging, y.type = x.type ∧ y.ring = x.ring ∧ y.base = x.base

namespace StagedStay

variable {s} {r t : State}

theorem of_same (staging : t.staging = s.staging) : StagedStay s t := fun x mem => ⟨x, staging ▸ mem, rfl, rfl, rfl⟩

theorem refl (s : State) : StagedStay s s := of_same rfl

theorem trans (h : StagedStay r s) (k : StagedStay s t) : StagedStay r t := by
  intro x mem
  obtain ⟨y, mem, type, ring, base⟩ := h x mem
  obtain ⟨z, mem, type', ring', base'⟩ := k y mem
  exact ⟨z, mem, type'.trans type, ring'.trans ring, base'.trans base⟩

end StagedStay

theorem State.count_stagedStay (m : Move) (f : Fld) (i n : Nat) (waits : List Nat) (own : Bool) :
    StagedStay s (s.count m f i n waits own) := .of_same (State.settle_records _).1

theorem State.form_staging (x : Rec) (since : Option Nat) : ∃ y : Rec, (s.form x since).2.staging = s.staging ++ [y] ∧
    y.type = x.type ∧ y.ring = x.ring ∧ y.base = x.base := by
  unfold State.form
  extract_lets u y
  exact ⟨y, (State.sendMark_records _ y).1.trans (State.stage_staging _ y), rfl, rfl, rfl⟩

theorem State.form_stagedStay (x : Rec) (since : Option Nat) : StagedStay s (s.form x since).2 := by
  obtain ⟨y, e, -⟩ := s.form_staging x since
  exact fun z mem => ⟨z, e ▸ List.mem_append_left _ mem, rfl, rfl, rfl⟩

theorem State.srcEvent_stagedStay (n : Nat) (stamp : Stamp) (rec : Option Nat) : StagedStay s (s.srcEvent n stamp rec) := by
  obtain ⟨x, e⟩ := s.srcEvent_eq n stamp rec
  rw [e]
  exact .of_same rfl

theorem State.raiseMute_stagedStay (x : Rec) : StagedStay s (s.raiseMute x) := by
  unfold State.raiseMute
  split
  · extract_lets noted
    have counted : StagedStay s noted := by
      refine fun y mem => ⟨_, List.mem_map_of_mem mem, ?_⟩
      split <;> exact ⟨rfl, rfl, rfl⟩
    exact counted.trans (State.srcEvent_stagedStay _ _ _ _)
  · exact .refl s

theorem State.formGap_stagedStay (w : GapWait) : StagedStay s (s.formGap w) := by
  have loss (t : State) : StagedStay t (t.gapLoss w.loss).2 := by
    unfold State.gapLoss
    split <;> exact .of_same rfl
  have hp : StagedStay s (s.noteHp w.ring) := .of_same rfl
  have formed (x : Rec) : StagedStay s (((s.noteHp w.ring).gapLoss w.loss).2.formPlace x).2 :=
    (hp.trans (loss _)).trans ((State.form_stagedStay _ _ none).trans (State.raiseMute_stagedStay _ _))
  unfold State.formGap
  dsimp only
  refine (StagedStay.trans ?_ (State.count_stagedStay _ _ _ _ _ _ _)).trans (State.count_stagedStay _ _ _ _ _ _ _)
  split
  · exact (formed _).trans (State.count_stagedStay _ _ _ _ _ _ _)
  · exact formed _

theorem State.dueGap_stagedStay (w : GapWait) : StagedStay s (s.dueGap w) := by
  unfold State.dueGap
  split
  · exact .of_same rfl
  · exact s.formGap_stagedStay w

theorem State.raiseEvent_stagedStay (n detail : Nat) (port : Option Nat) : StagedStay s (s.raiseEvent n detail port) := by
  refine StagedStay.trans ?_ (State.srcEvent_stagedStay _ _ _ _)
  unfold State.eventRecord
  split
  · exact .refl s
  extract_lets ring closed
  split
  · exact .of_same rfl
  · refine StagedStay.trans ?_ (State.form_stagedStay _ _ _)
    unfold closed
    split
    · exact .refl s
    · exact StagedStay.trans (s := s.modRing ring _) (.of_same rfl) (State.dueGap_stagedStay _ _)

end Sys2Proof.Machine
end

section
namespace Sys2Proof.Machine

/-! ### What admission does (R368, R370) -/

variable (s : State)

/-- A report of an arm-state change is a message to the peer. -/
theorem State.reportArm_eq (q : Nat) : ∃ l, s.reportArm q = { s with out := l } := by
  unfold State.reportArm
  split
  · exact ⟨_, rfl⟩
  · exact ⟨s.out, rfl⟩

theorem State.mon_congr {s t : State} (h : t.mons = s.mons) (q : Nat) : t.mon q = s.mon q := by
  simp only [State.mon, h]

/-- What stands of a trigger that was declined at pin `q`: the monitor rearms, and a CAPTURE record tells of it. -/
structure Declined (s t : State) (q : Nat) (x : Trigger) : Prop where
  now : t.now = s.now
  segments : t.segments = s.segments
  state : (t.mon q).state = .rearm
  trig : (t.mon q).trig = none
  rearmAt : (t.mon q).rearmAt = s.now
  record : ∃ r ∈ t.staging, r.type = .capture ∧ r.ring = s.rd Reg.LM_UPCFG_RING ∧ r.base = x.stamp

theorem Declined.of_same {s t u : State} {q : Nat} {x : Trigger} (h : Declined s t q x) (now : u.now = t.now)
    (segments : u.segments = t.segments) (mons : u.mons = t.mons) (staging : StagedStay t u) : Declined s u q x := by
  obtain ⟨hnow, hseg, state, trig, rearmAt, r, mem, type, ring, base⟩ := h
  obtain ⟨y, mem, type', ring', base'⟩ := staging r mem
  have mon := State.mon_congr mons q
  exact ⟨now.trans hnow, segments.trans hseg, mon ▸ state, mon ▸ trig, mon ▸ rearmAt, y, mem, type'.trans type, ring'.trans ring,
    base'.trans base⟩

/-- A decline with its record and counts, before the source of BUDGET and the report. -/
def State.declineNoted (q : Nat) (t : Trigger) (cause : Nat) : State :=
  let formed := s.captureRecord t.stamp q 1 cause t.mask.toNat (s.rd Reg.LM_CAP_RATE q) 0xFFFF 0 0 0 0 0 t.detail.toNat
  let s := formed.2.count .sat Reg.LM_CNT_DECL q 1 [formed.1]
  let s := s.wr (if cause = 1 then Reg.LM_STAT_EV_DECL else Reg.LM_STAT_EV_NOSEG) 1 q
  s.modMon q (fun m => { m with trig := none, state := .rearm, rearmAt := s.now })

theorem State.decline_eq (q : Nat) (t : Trigger) (cause : Nat) : s.decline q t cause =
    (if cause = 1 then (s.declineNoted q t cause).raiseEvent 281 q else s.declineNoted q t cause).reportArm q := rfl

theorem State.declineNoted_declined (q : Nat) (t : Trigger) (cause : Nat) : Declined s (s.declineNoted q t cause) q t := by
  unfold State.declineNoted
  extract_lets formed counted noted
  have only : RecordsOnly s counted := State.count_recordsOnly (State.form_recordsOnly (.refl s) _ none) ..
  have stays : StagedStay formed.2 counted := State.count_stagedStay _ _ _ _ _ _ _
  obtain ⟨y, staging, type, ring, base⟩ := s.form_staging _ none
  obtain ⟨z, mem, type', ring', base'⟩ := stays y (staging ▸ List.mem_concat_self)
  have mon := State.mon_setMon_self noted q { noted.mon q with trig := none, state := .rearm, rearmAt := noted.now }
  exact ⟨only.now, only.segments, congrArg Monitor.state mon, congrArg Monitor.trig mon,
    (congrArg Monitor.rearmAt mon).trans only.now, z, mem, type'.trans type, ring'.trans ring, base'.trans base⟩

theorem State.decline_declined (q : Nat) (t : Trigger) (cause : Nat) : Declined s (s.decline q t cause) q t := by
  obtain ⟨l, e⟩ := State.reportArm_eq (if cause = 1 then (s.declineNoted q t cause).raiseEvent 281 q else s.declineNoted q t cause) q
  rw [State.decline_eq, e]
  have noted := s.declineNoted_declined q t cause
  refine Declined.of_same (t := if cause = 1 then (s.declineNoted q t cause).raiseEvent 281 q else s.declineNoted q t cause) ?_
    rfl rfl rfl (.of_same rfl)
  split
  · obtain ⟨u, x, k, e⟩ := (s.declineNoted q t cause).raiseEvent_eq 281 q none
    refine noted.of_same ?_ ?_ ?_ (State.raiseEvent_stagedStay _ _ _ _)
    · rw [e]; exact k.now
    · rw [e]; exact k.segments
    · rw [e]; exact k.mons
  · exact noted

theorem State.rd_modMon (q : Nat) (f : Monitor → Monitor) (g : Fld) (i : Nat) : (s.modMon q f).rd g i = s.rd g i := rfl

theorem State.rd_declineNoted_noSegment (q : Nat) (t : Trigger) : (s.declineNoted q t 2).rd Reg.LM_STAT_EV_NOSEG q = 1 := by
  unfold State.declineNoted
  extract_lets formed counted noted
  have stored : noted = counted.wr Reg.LM_STAT_EV_NOSEG 1 q := rfl
  rw [State.rd_modMon, stored, State.rd_wr_self _ _ _ _ (by decide)]
  rfl

/-- A decline for want of a segment is told in LM_STAT. -/
theorem State.decline_noSegment (q : Nat) (t : Trigger) : (s.decline q t 2).on Reg.LM_STAT_EV_NOSEG q = true := by
  have regs : (s.decline q t 2).regs = (s.declineNoted q t 2).regs := by
    obtain ⟨l, e⟩ := (s.declineNoted q t 2).reportArm_eq q
    rw [State.decline_eq, if_neg (by decide), e]
  rw [State.on, State.rd_congr _ _ regs, State.rd_declineNoted_noSegment]
  rfl

/-! ### Segments are given extents (R369) -/

/-- From `r` to `s` segments may have been given extents of the upload area, and nothing else changed. -/
def ExtentsGiven (r s : State) : Prop :=
  ∃ head extents f, s = { r with upHead := head, extents := extents, segments := r.segments.map f } ∧
    ∀ g : Segment, (f g).trig = g.trig ∧ (f g).index = g.index ∧ (f g).pseq = g.pseq

theorem ExtentsGiven.refl (s : State) : ExtentsGiven s s :=
  ⟨s.upHead, s.extents, id, by rw [List.map_id], fun _ => ⟨rfl, rfl, rfl⟩⟩

theorem ExtentsGiven.trans {r s t : State} (h : ExtentsGiven r s) (k : ExtentsGiven s t) : ExtentsGiven r t := by
  obtain ⟨head, extents, f, rfl, keeps⟩ := h
  obtain ⟨head', extents', f', rfl, keeps'⟩ := k
  refine ⟨head', extents', f' ∘ f, by rw [← List.map_map], fun g => ?_⟩
  obtain ⟨trig, index, pseq⟩ := keeps g
  obtain ⟨trig', index', pseq'⟩ := keeps' (f g)
  exact ⟨trig'.trans trig, index'.trans index, pseq'.trans pseq⟩

theorem State.extentFor_given {t : State} (g : Segment) (h : s.extentFor g = some t) : ExtentsGiven s t := by
  unfold State.extentFor at h
  extract_lets len skip at_ at h
  split at h
  · obtain rfl := Option.some.inj h
    refine ⟨_, _, _, rfl, fun x => ?_⟩
    split <;> exact ⟨rfl, rfl, rfl⟩
  · cases h

theorem State.giveExtents_given : ExtentsGiven s s.giveExtents := by
  unfold State.giveExtents
  refine List.foldlRecOn (motive := fun a : Bool × State => ExtentsGiven s a.2) _ _ (.refl s) fun a given g _ => ?_
  split
  · cases e : a.2.extentFor g with
    | some t => exact given.trans (State.extentFor_given _ g e)
    | none => exact given
  · exact given

/-! ### An admitted trigger (R365, R368) -/

/-- What stands of a trigger that was admitted at pin `q`: the monitor captures into a segment of its own. -/
structure Admitted (s t : State) (q : Nat) (x : Trigger) : Prop where
  now : t.now = s.now
  regs : t.regs = s.regs
  state : (t.mon q).state = .capture
  trig : (t.mon q).trig = none
  taken : (t.mon q).taken = (s.mon q).taken + 1
  pseq : (t.mon q).pseq = (s.mon q).pseq + 1
  length : t.segments.length = s.segments.length + 1
  segment : ∃ g ∈ t.segments, g.trig = x ∧ g.index = (s.mon q).next ∧ g.pseq = (s.mon q).pseq + 1

theorem State.admitTrigger_admitted (q : Nat) (x : Trigger) : Admitted s (s.admitTrigger q x) q x := by
  unfold State.admitTrigger
  extract_lets m rate d gt preA g captures
  obtain ⟨head, extents, f, given, keeps⟩ := State.giveExtents_given { captures with segments := captures.segments ++ [g] }
  obtain ⟨l, told⟩ := State.reportArm_eq (State.giveExtents { captures with segments := captures.segments ++ [g] }) q
  have mon : captures.mon q = _ := State.mon_setMon_self ..
  obtain ⟨trig, index, pseq⟩ := keeps g
  rw [told, given]
  refine ⟨rfl, rfl, congrArg Monitor.state mon, congrArg Monitor.trig mon, congrArg Monitor.taken mon, congrArg Monitor.pseq mon,
    ?_, f g, ?_, trig, index, pseq⟩
  · rw [List.length_map]
    exact List.length_append
  · exact List.mem_map_of_mem List.mem_concat_self

/-- Stack 1 is there, and the budget has room for a capture at pin `q` (R368). -/
def State.hasBudget (q : Nat) : Bool :=
  (s.rd Reg.GL_DIESTAT_HBM_OK).testBit 1 && decide (s.unitsUsed + unitsOf (s.rd Reg.LM_CAP_RATE q) ≤ 64000)

/-- The next segment of pin `q` is not free. -/
def State.segmentTaken (q : Nat) : Bool := s.segments.any (fun g => g.trig.pin == q && g.index == (s.mon q).next)

theorem State.mon_advance (n q : Nat) : (s.advance n).mon q = s.mon q := by
  obtain ⟨c, e⟩ := s.advance_eq n
  rw [e]
  rfl

theorem State.hasBudget_advance (n q : Nat) : (s.advance n).hasBudget q = s.hasBudget q := by
  simp only [State.hasBudget, State.rd_advance, State.unitsUsed, State.advance_segments]
  rfl

theorem State.segmentTaken_advance (n q : Nat) : (s.advance n).segmentTaken q = s.segmentTaken q := by
  simp only [State.segmentTaken, State.mon_advance, State.advance_segments]

/-- A trigger that is first reaches admission 16 DCLK after its edge: it is declined for the budget, for want of a segment, or
admitted. -/
theorem exec_triggerAdmission {q : PinIx} {x : Trigger} (run : s.running = true) (trig : (s.mon q.val).trig = some x)
    (first : s.admissionBlocked x = false) : exec (.triggerAdmission q) s = .next
      (if s.hasBudget q.val then
        if s.segmentTaken q.val then (s.advance (x.edge + 16)).decline q.val x 2 else (s.advance (x.edge + 16)).admitTrigger q.val x
      else (s.advance (x.edge + 16)).decline q.val x 1) := by
  have budget : (!((s.advance (x.edge + 16)).rd Reg.GL_DIESTAT_HBM_OK).testBit 1 || decide (64000 <
      (s.advance (x.edge + 16)).unitsUsed + unitsOf ((s.advance (x.edge + 16)).rd Reg.LM_CAP_RATE q.val))) =
      !s.hasBudget q.val := by
    rw [← State.hasBudget_advance s (x.edge + 16)]
    simp only [State.hasBudget, Bool.not_and, ← decide_not, Nat.not_le]
  have taken : (s.advance (x.edge + 16)).segments.any (fun g => g.trig.pin == q.val &&
      g.index == ((s.advance (x.edge + 16)).mon q.val).next) = s.segmentTaken q.val := State.segmentTaken_advance ..
  simp only [exec, execTriggerAdmission, run, trig, first, budget, taken, Bool.not_true, Bool.false_eq_true, if_false]
  cases s.hasBudget q.val <;> cases s.segmentTaken q.val <;> rfl

/-! ### A captured segment, and its upload (R365, R369) -/

/-- An access of stack 1 changes the power state alone. -/
theorem State.touchMem1_eq : ∃ x, s.touchMem1 = { s with power := x } := by
  unfold State.touchMem1 State.askMem1
  extract_lets x
  split <;> exact ⟨_, rfl⟩

/-- A completed segment has its samples; the others stay, and so do time and registers. -/
theorem State.completeSegment_completes {g : Segment} (mem : g ∈ s.segments) :
    (s.completeSegment g).now = s.now ∧ (s.completeSegment g).regs = s.regs ∧
    (s.completeSegment g).segments.length = s.segments.length ∧
    ∃ x ∈ (s.completeSegment g).segments, x.key = g.key ∧ x.samples.isSome = true := by
  unfold State.completeSegment
  dsimp only
  obtain ⟨p, e⟩ := State.touchMem1_eq { s with
    segments := s.segments.map (fun x => if x.key = g.key then { x with samples := some (s.segSamples g) } else x) }
  rw [e]
  refine ⟨rfl, rfl, List.length_map .., _, List.mem_map_of_mem mem, ?_⟩
  rw [if_pos rfl]
  exact ⟨rfl, rfl⟩

/-- A monitor that rests may give its octant and its stack up, which keeps its state. -/
theorem State.monRests_eq (before : State) (q : Nat) : ∃ x o, before.monRests s q = { s with power := x, octs := o } := by
  unfold State.monRests
  split
  · obtain ⟨x, e⟩ := (s.octActive (octOfPin q)).touchMem1_eq
    exact ⟨x, _, e⟩
  · exact ⟨s.power, s.octs, rfl⟩

/-- The state into which a monitor leaves CAPTURE (R362). -/
def State.leftCapture (q : Nat) (m : Monitor) : Monitor :=
  if m.state ≠ .capture then m
  else if m.disPend then { m with state := .off, disPend := false }
  else if !s.on Reg.LM_CAP_CONT q && decide (s.rd Reg.LM_SEG_COUNT q ≤ m.taken) then { m with state := .done }
  else { m with state := .rearm, rearmAt := s.now }

theorem State.leftCapture_state (q : Nat) (m : Monitor) : (s.leftCapture q m).state ≠ .capture := by
  unfold State.leftCapture
  split
  · assumption
  · split
    · exact nofun
    · split <;> exact nofun

/-- A monitor leaves CAPTURE; time, registers and segments stay. -/
theorem State.afterCapture_leaves (q : Nat) : (s.afterCapture q).now = s.now ∧ (s.afterCapture q).regs = s.regs ∧
    (s.afterCapture q).segments = s.segments ∧ ((s.afterCapture q).mon q).state ≠ .capture := by
  have rests : s.afterCapture q = s.monRests (s.setMon q (s.leftCapture q (s.mon q))) q := rfl
  obtain ⟨x, o, e⟩ := State.monRests_eq (s.setMon q (s.leftCapture q (s.mon q))) s q
  have mon := State.mon_setMon_self s q (s.leftCapture q (s.mon q))
  rw [rests, e]
  exact ⟨rfl, rfl, rfl, fun h => s.leftCapture_state q _ ((congrArg Monitor.state mon).symm.trans h)⟩

/-- A segment is complete, and its monitor leaves CAPTURE and reports it (R362, R365, R374). -/
def State.segmentLeaves (g : Segment) (q : Nat) : State := ((s.completeSegment g).afterCapture q).reportArm q

theorem State.segmentLeaves_completes {g : Segment} (q : Nat) (mem : g ∈ s.segments) :
    (s.segmentLeaves g q).now = s.now ∧ (s.segmentLeaves g q).regs = s.regs ∧
    (s.segmentLeaves g q).segments.length = s.segments.length ∧
    (∃ x ∈ (s.segmentLeaves g q).segments, x.key = g.key ∧ x.samples.isSome = true) ∧
    ((s.segmentLeaves g q).mon q).state ≠ .capture := by
  obtain ⟨now, regs, length, complete⟩ := s.completeSegment_completes mem
  unfold State.segmentLeaves
  generalize s.completeSegment g = t at *
  obtain ⟨now', regs', segments, state⟩ := t.afterCapture_leaves q
  generalize t.afterCapture q = u at *
  obtain ⟨l, told⟩ := u.reportArm_eq q
  rw [told]
  dsimp only
  rw [now', regs', segments]
  exact ⟨now, regs, length, complete, state⟩

theorem exec_segmentComplete {q : PinIx} {g : Segment} (run : s.running = true) (awake : s.power.mem1 = .run)
    (found : s.segments.find? (fun g => g.trig.pin == q.val && g.samples.isNone) = some g) :
    exec (.segmentComplete q) s =
      .next ((s.advance (g.grid + (g.preA + g.post) * gridOf g.rate + 64)).segmentLeaves g q.val) := by
  simp only [exec, execSegmentComplete, run, awake, found, Bool.not_true, bne_self_eq_false, Bool.or_self, Bool.false_eq_true,
    if_false]
  rfl

theorem exec_uploadStart {q : PinIx} {g : Segment} (next : s.nextUpload = some g) (pin : g.trig.pin = q.val)
    (may : s.mayRequest = true) (own : s.engagedShadow = false) (turn : s.captureTurn = true) :
    exec (.uploadStart q) s = .next (s.upload g) := by
  simp [exec, execUploadStart, next, pin, may, own, turn]

theorem State.upload_issues (g : Segment) : (s.upload g).flushDue = true ∧ (s.upload g).now = s.now ∧ (s.upload g).regs = s.regs ∧
    (s.upload g).out = s.out ++ writesOf s.link.mps g.bytes.length (s.upBase + BitVec.ofNat 64 ((g.extent.map (·.1)).getD 0))
      g.bytes ∧
    ∀ x ∈ (s.upload g).segments, x.key = g.key → x.upload.isSome = true := by
  unfold State.upload State.fresh
  dsimp only
  obtain ⟨p, e⟩ := State.touchMem1_eq { s with nextUid := s.nextUid + 1 }
  rw [e]
  refine ⟨rfl, rfl, rfl, rfl, fun x mem key => ?_⟩
  obtain ⟨y, -, rfl⟩ := List.mem_map.mp mem
  by_cases named : y.key = g.key
  · rw [if_pos named]
    rfl
  · rw [if_neg named] at key
    exact absurd key named

/-- Settles O49: a trigger is declined or admitted, and a captured segment completed and uploaded, by the rule of each. -/
theorem capturesAreAdmittedAndUploaded : Obligations.CapturesAreAdmittedAndUploaded := by
  unfold Obligations.CapturesAreAdmittedAndUploaded
  intro s q run
  refine ⟨fun x trig first => ⟨fun stack room free => ?_, fun short => ?_, fun stack room taken => ?_⟩,
    fun g found capture awake => ?_, fun g next pin may own active unmuted => ?_⟩
  · have budget : s.hasBudget q.val = true := by simp [State.hasBudget, stack, room]
    have next : s.segmentTaken q.val = false := by
      simp only [State.segmentTaken, List.any_eq_false, Bool.and_eq_true, beq_iff_eq, not_and]
      exact fun g mem pin index => (free g mem).elim (fun other => other pin) (fun other => other index)
    obtain ⟨now, regs, state, gone, count, pseq, length, segment⟩ := (s.advance (x.edge + 16)).admitTrigger_admitted q.val x
    simp only [State.mon_advance, State.advance_now, State.advance_regs, State.advance_segments] at now regs count pseq length segment
    refine ⟨_, exec_triggerAdmission s run trig first, ?_⟩
    rw [if_pos budget, if_neg (by simp [next])]
    exact ⟨now, state, gone, count, pseq, length, segment, regs⟩
  · have budget : s.hasBudget q.val = false := by
      rcases short with gone | above
      · simp [State.hasBudget, gone]
      · simp [State.hasBudget, above]
    obtain ⟨now, segments, state, gone, rearmAt, record⟩ := (s.advance (x.edge + 16)).decline_declined q.val x 1
    simp only [State.rd_advance, State.advance_segments] at segments record
    refine ⟨_, exec_triggerAdmission s run trig first, ?_⟩
    rw [budget, if_neg Bool.false_ne_true]
    exact ⟨now.trans (s.advance_now _), state, gone, rearmAt.trans now.symm, segments, record⟩
  · have budget : s.hasBudget q.val = true := by simp [State.hasBudget, stack, room]
    have next : s.segmentTaken q.val = true := by simpa [State.segmentTaken] using taken
    obtain ⟨-, segments, state, -⟩ := (s.advance (x.edge + 16)).decline_declined q.val x 2
    refine ⟨_, exec_triggerAdmission s run trig first, ?_⟩
    rw [if_pos budget, if_pos next]
    exact ⟨state, State.decline_noSegment _ _ _, segments.trans (s.advance_segments _)⟩
  · refine ⟨_, exec_segmentComplete s run awake found, ?_⟩
    obtain ⟨now, regs, length, complete, state⟩ := State.segmentLeaves_completes
      (s.advance (g.grid + (g.preA + g.post) * gridOf g.rate + 64)) q.val (g := g)
      (by rw [State.advance_segments]; exact List.mem_of_find?_eq_some found)
    rw [State.advance_segments] at length
    exact ⟨now.trans (s.advance_now _), length, complete, state, regs.trans (s.advance_regs _)⟩
  · have turn : s.captureTurn = true := by simp [State.captureTurn, active, unmuted]
    obtain ⟨due, now, regs, out, named⟩ := s.upload_issues g
    exact ⟨_, exec_uploadStart s next pin may own turn, due, now, regs, out, named⟩

end Sys2Proof.Machine
end

section
namespace Sys2Proof.Machine

/-! ### What leaves the octants and the ports' HELD alone

Entries, counts, pins that change owners, boundaries and the head of a queue take no time, leave the boot and the octants as
they are, and put no port of an octant in RUN into HELD: one lemma for each operation, from a state of which this holds. -/

/-- After `x` a port stands HELD as `y` only if it stood so before, in front of the same state (R93). -/
def Port.heldAs (x y : Port) : Prop := y.rx = .held → x.rx = .held ∧ y.rxHeld = x.rxHeld

theorem Port.heldAs_of_same {x y : Port} (rx : y.rx = x.rx) (rxHeld : y.rxHeld = x.rxHeld) : x.heldAs y :=
  fun held => ⟨rx ▸ held, rxHeld⟩

theorem Port.heldAs_trans {x y z : Port} (h : x.heldAs y) (k : y.heldAs z) : x.heldAs z := fun held =>
  have ⟨mid, same⟩ := k held
  ⟨(h mid).1, same.trans (h mid).2⟩

/-- The present edge, the boot and the octants of `s` are those of `r`; of a port in RUN so is HELD, where it stands in `s`. -/
structure LeavesHeld (r s : State) : Prop where
  now : s.now = r.now
  boot : s.boot = r.boot
  octs : s.octs = r.octs
  held : ∀ p, r.pinRuns (rxPin p) = true → (r.port p).heldAs (s.port p)

theorem State.pinRuns_congr {s t : State} (octs : t.octs = s.octs) (q : Nat) : t.pinRuns q = s.pinRuns q := by
  rw [State.pinRuns, State.pinRuns, State.oct, State.oct, octs]

/-- A decision leaves the receive state alone, whatever flow character becomes due. -/
theorem Port.pushFlow_rx (x : Port) (b : Bool) : (x.pushFlow b).rx = x.rx ∧ (x.pushFlow b).rxHeld = x.rxHeld := by
  unfold Port.pushFlow
  split <;> exact ⟨rfl, rfl⟩

/-- A receive side that starts afresh acquires or tracks (R96). -/
theorem Port.restart_rx (x : Port) (n : Nat) : (x.restart n).rx ≠ .held := by
  unfold Port.restart
  dsimp only
  split <;> exact RxState.noConfusion

theorem Port.restartKept_rx (x : Port) (n : Nat) : (x.restartKept n).rx ≠ .held := by
  unfold Port.restartKept
  dsimp only
  split
  · exact x.restart_rx n
  · exact x.restart_rx n

namespace LeavesHeld

variable {r s t : State}

theorem refl (s : State) : LeavesHeld s s := ⟨rfl, rfl, rfl, fun _ _ => Port.heldAs_of_same rfl rfl⟩

theorem trans (h : LeavesHeld r s) (k : LeavesHeld s t) : LeavesHeld r t :=
  ⟨k.now.trans h.now, k.boot.trans h.boot, k.octs.trans h.octs, fun p runs =>
    Port.heldAs_trans (h.held p runs) (k.held p ((State.pinRuns_congr h.octs _).trans runs))⟩

theorem ite {c : Prop} [Decidable c] (h : LeavesHeld r s) (k : LeavesHeld r t) : LeavesHeld r (if c then s else t) := by
  split
  · exact h
  · exact k

/-- What holds of the state an operation answers holds of it by its name. -/
theorem of_snd {α : Type} {a : α × State} {u : α} (e : a = (u, t)) (h : LeavesHeld r a.2) : LeavesHeld r t := by
  rw [e] at h
  exact h

variable (h : LeavesHeld r s)
include h

theorem of_same (now : t.now = s.now) (boot : t.boot = s.boot) (octs : t.octs = s.octs) (ports : t.ports = s.ports) :
    LeavesHeld r t :=
  h.trans ⟨now, boot, octs, fun p _ => by rw [State.port, State.port, ports]; exact Port.heldAs_of_same rfl rfl⟩

theorem of_records (k : RecordsOnly s t) : LeavesHeld r t := h.of_same k.now k.boot k.octs k.ports

theorem foldl {β : Type} {f : State → β → State} (k : ∀ s b, LeavesHeld r s → LeavesHeld r (f s b)) (l : List β) :
    LeavesHeld r (l.foldl f s) :=
  List.foldlRecOn (motive := fun t => LeavesHeld r t) l f h fun t h b _ => k t b h

/-- A port whose octant runs may change as long as it does not enter HELD. -/
theorem setPort_of_runs (p : Nat) (x : Port) (as : s.pinRuns (rxPin p) = true → (s.port p).heldAs x) :
    LeavesHeld r (s.setPort p x) :=
  h.trans ⟨rfl, rfl, rfl, fun k runs => by
    obtain rfl | other := eq_or_ne k p
    · rw [s.port_setPort_self]
      exact as runs
    · rw [s.port_setPort_other p k x other]
      exact Port.heldAs_of_same rfl rfl⟩

theorem setPort (p : Nat) (x : Port) (rx : x.rx = (s.port p).rx := by rfl) (rxHeld : x.rxHeld = (s.port p).rxHeld := by rfl) :
    LeavesHeld r (s.setPort p x) := h.setPort_of_runs p x fun _ => Port.heldAs_of_same rx rxHeld

theorem modPort_same (p : Nat) (f : Port → Port)
    (same : (f (s.port p)).rx = (s.port p).rx ∧ (f (s.port p)).rxHeld = (s.port p).rxHeld) : LeavesHeld r (s.modPort p f) :=
  h.setPort p _ same.1 same.2

theorem modPort (p : Nat) (f : Port → Port) (rx : ∀ x, (f x).rx = x.rx := by exact fun _ => rfl)
    (rxHeld : ∀ x, (f x).rxHeld = x.rxHeld := by exact fun _ => rfl) : LeavesHeld r (s.modPort p f) :=
  h.modPort_same p f ⟨rx _, rxHeld _⟩

/-- A port may leave HELD. -/
theorem modPort_of_ne (p : Nat) (f : Port → Port) (ne : (f (s.port p)).rx ≠ .held) : LeavesHeld r (s.modPort p f) :=
  h.setPort_of_runs p _ fun _ held => absurd held ne

/-! #### Stores to parts and registers -/

theorem wr (f : Fld) (x i : Nat) : LeavesHeld r (s.wr f x i) := h.of_same rfl rfl rfl rfl

theorem incSat (f : Fld) (i n : Nat) : LeavesHeld r (s.incSat f i n) := h.wr f _ i

theorem setPin (q : Nat) (x : Pin) : LeavesHeld r (s.setPin q x) := h.of_same rfl rfl rfl rfl

theorem modPin (q : Nat) (f : Pin → Pin) : LeavesHeld r (s.modPin q f) := h.setPin q _

theorem setSrc (n : Nat) (x : Src) : LeavesHeld r (s.setSrc n x) := h.of_same rfl rfl rfl rfl

theorem emit (o : Out) : LeavesHeld r (s.emit o) := h.of_same rfl rfl rfl rfl

/-! #### Records and counts -/

theorem count (m : Move) (f : Fld) (i n : Nat) (waits : List Nat) (own : Bool) : LeavesHeld r (s.count m f i n waits own) :=
  h.of_records (State.count_recordsOnly (.refl s) ..)

theorem countPort (m : Move) (f : Fld) (p n : Nat) : LeavesHeld r (s.countPort m f p n) := h.count ..

theorem countEvent (m : Move) (f : Fld) (p n : Nat) (u : Option Nat) : LeavesHeld r (s.countEvent m f p n u) := by
  cases u with
  | none => exact h.countPort ..
  | some u => exact h.count ..

theorem settle : LeavesHeld r s.settle := h.of_records (State.settle_recordsOnly (.refl s))

theorem rewait (u : Nat) (before : List Nat) : LeavesHeld r (s.rewait u before) :=
  h.of_records (State.settle_recordsOnly (RecordsOnly.mk_iff.mpr (.refl s)))

theorem txDone (p : Nat) (d : Desc) (status cause : Nat) (sd : Option Sending) : LeavesHeld r (s.txDone p d status cause sd) :=
  h.of_records (State.txDone_recordsOnly (.refl s) ..)

theorem dueGap (w : GapWait) : LeavesHeld r (s.dueGap w) := h.of_records (State.dueGap_recordsOnly (.refl s) w)

theorem srcEvent (n : Nat) (stamp : Stamp) (rec : Option Nat) : LeavesHeld r (s.srcEvent n stamp rec) := by
  obtain ⟨x, e⟩ := s.srcEvent_eq n stamp rec
  rw [e]
  exact h.of_same rfl rfl rfl rfl

/-! #### Flow decisions and receive entries (R143, R146, R149) -/

theorem drive (q : Nat) (b : Bool) : LeavesHeld r (s.drive q b) := ite ((h.setPin q _).emit _) h

theorem setRts (p : Nat) : LeavesHeld r (s.setRts p) := ite ((h.setPort p _).drive ..) (h.setPort p _)

theorem takeDecision (p : Nat) (stop : Bool) : LeavesHeld r (s.takeDecision p stop) :=
  (h.modPort_same p _ (Port.pushFlow_rx _ stop)).setRts p

theorem compareFlow (p : Nat) : LeavesHeld r (s.compareFlow p) := (h.modPort p _).setRts p

theorem notePressure (p : Nat) : LeavesHeld r (s.notePressure p) := ite (h.modPort p _) (ite (h.modPort p _) h)

theorem flowRelease (p : Nat) : LeavesHeld r (s.flowRelease p) :=
  ite ((h.notePressure p).takeDecision ..) (h.notePressure p)

theorem flowConfirm (p : Nat) : LeavesHeld r (s.flowConfirm p) := by
  have noted := h.notePressure p
  unfold State.flowConfirm
  refine ite (ite (noted.modPort_same p _ ?_) (noted.takeDecision ..)) (h.flowRelease p)
  split
  · split
    · exact Port.pushFlow_rx _ true
    · exact ⟨rfl, rfl⟩
  · exact ⟨rfl, rfl⟩

theorem touchMem0 : LeavesHeld r s.touchMem0 := by
  obtain ⟨x, e⟩ := LeavesSent.touchMem0_eq s
  rw [e]
  exact h.of_same rfl rfl rfl rfl

theorem loseEntry (p k : Nat) (isChar counts : Bool) (stamp : Stamp) (seq : Word) :
    LeavesHeld r (s.loseEntry p k isChar counts stamp seq) := h.modPort p _

theorem closeLoss (p k order : Nat) : LeavesHeld r (s.closeLoss p k order) := by
  unfold State.closeLoss
  split
  · exact h
  · exact (h.modPort p _).dueGap _

theorem store (p : Nat) (kind : EntryKind) (base : Stamp) (space : Nat) (isChar : Bool) (streams : List (Nat × Word))
    (event : Option Nat) : LeavesHeld r (s.store p kind base space isChar streams event).2 := by
  unfold State.store
  split
  · exact List.foldlRecOn (motive := fun a : Bool × State => LeavesHeld r a.2) streams _ h fun _ k _ _ => k.loseEntry ..
  · split
    rename_i u t taken
    have numbered : LeavesHeld r t := by
      cases event with
      | some e => exact of_snd taken h
      | none => exact of_snd taken (h.of_same rfl rfl rfl rfl)
    have ordered : LeavesHeld r t.takeOrder.2 := numbered.of_same rfl rfl rfl rfl
    exact foldl (touchMem0 (modPort ordered p _)) (fun _ _ k => k.closeLoss ..) streams

theorem cueRecord (p rule kind : Nat) (late held : Bool) (code rlen : Nat) (rstamp : Stamp) (m : Chr) (partner : Nat)
    (seq : Word) (uid : Option Nat) :
    LeavesHeld r (s.cueRecord p rule kind late held code rlen rstamp m partner seq uid).2 := (h.store ..).flowConfirm p

theorem noteBlock (p : Nat) (e : BlockEntry) : LeavesHeld r (s.noteBlock p e) := ite (h.modPort p _) h

theorem noteOwn (p : Nat) (o : Own) : LeavesHeld r (s.noteOwn p o) := ite (h.modPort p _) h

theorem portEntryNow (p : Nat) (type : RecType) (base : Stamp) (body : List Byte) :
    LeavesHeld r (s.portEntryNow p type base body).2 := by
  unfold State.portEntryNow
  refine flowConfirm (store ?_ ..) p
  split
  · exact h.noteBlock ..
  · exact h

theorem portEntry (p : Nat) (type : RecType) (base : Stamp) (body : List Byte) :
    LeavesHeld r (s.portEntry p type base body).2 := by
  unfold State.portEntry
  split
  · dsimp only
    split
    · exact h.noteOwn ..
    · exact h
  · exact h.portEntryNow ..

/-! #### Settlements (R112, R117, R120, R121) -/

theorem settleEntry (p : Nat) (type : RecType) (seq : Word) (base : Stamp) (bodies : List (Nat × List Byte)) :
    LeavesHeld r (s.settleEntry p type seq base bodies).2 := by
  unfold State.settleEntry
  split
  · exact h
  · exact (h.store ..).flowConfirm p

theorem settleEnd (p reason : Nat) (base stamp : Stamp) (shown : List Shown) :
    LeavesHeld r (s.settleEnd p reason base stamp shown) := by
  unfold State.settleEnd
  split
  · exact ite (((h.settleEntry ..).countEvent ..).countEvent ..) ((h.settleEntry ..).countEvent ..)
  · exact h

end LeavesHeld

end Sys2Proof.Machine
end

section
namespace Sys2Proof.Machine

/-! ### Pins that change owners leave the octants and HELD alone (R102, R131, R172) -/

namespace LeavesHeld

variable {r s t : State} (h : LeavesHeld r s)
include h

/-! #### A transmitter that stops or starts -/

theorem emitFrame (p : Nat) (cut : Option Stamp) : LeavesHeld r (s.emitFrame p cut) := by
  unfold State.emitFrame
  split
  · exact h
  · exact h.foldl (fun _ _ k => k.emit _) _

theorem endJob (p status cause : Nat) : LeavesHeld r (s.endJob p status cause) := by
  unfold State.endJob
  split
  · exact h
  · split
    · exact (h.txDone ..).modPort p _
    · split
      rename_i x _ u t recorded
      have told : LeavesHeld r t := of_snd recorded (h.cueRecord ..)
      exact ((ite told (told.rewait ..)).modPort p _).settle

theorem endQueue (p status : Nat) : LeavesHeld r (s.endQueue p status) :=
  (h.modPort p _).foldl (fun _ _ k => k.txDone ..) _

theorem countDropped (p n : Nat) : LeavesHeld r (s.countDropped p n) := ite h (h.countPort ..)

theorem dropReplies (p : Nat) : LeavesHeld r (s.dropReplies p) := by
  unfold State.dropReplies
  exact ((h.foldl (fun _ _ k => k.rewait ..) _).modPort p _).countDropped ..

theorem stopTx (p status : Nat) (into : TxState) : LeavesHeld r (s.stopTx p status into) := by
  unfold State.stopTx
  exact (((((h.emitFrame ..).modPort p _).endJob ..).endQueue ..).dropReplies p).modPort p _

theorem startTx (p : Nat) : LeavesHeld r (s.startTx p) := by
  unfold State.startTx
  exact h.modPort p _

/-! #### A receiver that stops or starts -/

theorem dropProv (p : Nat) : LeavesHeld r (s.dropProv p) := h.of_same rfl rfl rfl rfl

theorem endAcquisition (p reason : Nat) (base : Stamp) : LeavesHeld r (s.endAcquisition p reason base) := by
  unfold State.endAcquisition
  split
  · exact h
  · exact ite (h.modPort p _) ((((ite (h.emit _) h).modPort p _).dropProv p).settleEnd ..)

theorem abandon (p : Nat) : LeavesHeld r (s.abandon p) := h.endAcquisition ..

theorem stopRx (p : Nat) (into : RxState) (ne : into ≠ .held) : LeavesHeld r (s.stopRx p into) :=
  ((h.abandon p).modPort_of_ne p _ ne).setRts p

/-- A receive side that starts stands HELD only in an octant that is not in RUN. -/
theorem startRx (p : Nat) : LeavesHeld r (s.startRx p) := by
  unfold State.startRx
  extract_lets begun fresh held
  have starts : LeavesHeld r begun := h.modPort_of_ne p _ (Port.restart_rx _ _)
  have reads : LeavesHeld r fresh := starts.modPin ..
  refine setRts ?_ p
  unfold held
  split
  · exact reads
  · rename_i sleeps
    exact reads.setPort_of_runs p _ fun runs => absurd runs sleeps

/-! #### Other functions of a pin -/

theorem srcLevel (n : Nat) (b : Bool) (stamp : Stamp) : LeavesHeld r (s.srcLevel n b stamp) := by
  obtain ⟨x, e⟩ := s.srcLevel_eq n b stamp
  rw [e]
  exact h.of_same rfl rfl rfl rfl

theorem stationInput (st : Nat) (level : Bool) (stamp : Stamp) : LeavesHeld r (s.stationInput st level stamp) := by
  have noted := h.modPin (4 * st + 3) fun x => { x with srcIn := level }
  exact ite (noted.srcLevel ..) (ite ((noted.setSrc ..).srcEvent ..) (noted.setSrc ..))

theorem gainInput (q : Nat) : LeavesHeld r (s.gainInput q) := by
  unfold State.gainInput
  split
  · split
    · exact ite (h.stationInput ..) h
    · exact h
  · exact h

theorem setCu (i : Nat) (u : Cu) : LeavesHeld r (s.setCu i u) := h.of_same rfl rfl rfl rfl

theorem modCu (i : Nat) (f : Cu → Cu) : LeavesHeld r (s.modCu i f) := h.setCu i _

theorem cuGains (q : Nat) : LeavesHeld r (s.cuGains q) := h.setCu ..

/-! #### The owner of a pin -/

theorem loseFunction (q : Nat) : LeavesHeld r (s.loseFunction q) := by
  unfold State.loseFunction
  split
  · exact ite (h.stopTx ..) (ite (h.stopTx ..) h)
  · exact ite (h.stopRx _ _ (by decide)) h
  · exact h

theorem gainFunction (q : Nat) : LeavesHeld r (s.gainFunction q) := by
  unfold State.gainFunction
  split
  · exact h.startTx _
  · exact h.startRx _
  · exact h.gainInput q
  · exact h.cuGains q
  · exact h

theorem switchPin (q : Nat) (new : Owner) : LeavesHeld r (s.switchPin q new) := ((h.loseFunction q).modPin q _).gainFunction q

theorem resolvePin (q : Nat) : LeavesHeld r (s.resolvePin q) := by
  unfold State.resolvePin
  extract_lets new x settled starved
  have owned : LeavesHeld r settled := ite (ite (h.setPin ..) h) (ite (h.setPin ..) (h.switchPin ..))
  clear_value settled
  have noted : LeavesHeld r starved := ite (owned.modPort ..) owned
  clear_value starved
  exact ite h (ite (noted.modPort_of_ne _ _ RxState.noConfusion) noted)

theorem resolve (st : Nat) : LeavesHeld r (s.resolve st) := h.foldl (fun _ _ k => k.resolvePin _) _

end LeavesHeld

end Sys2Proof.Machine
end

section
namespace Sys2Proof.Machine

/-! ### Vernissage, the octants' pins and the state digest (R424, R425, R449) -/

variable (s : State)

/-- Activity of octants changes the octants alone. -/
theorem State.foldl_octActive (l : List Nat) : ∃ t : State, l.foldl State.octActive s = t ∧
    t.boot = s.boot ∧ t.now = s.now ∧ t.regs = s.regs ∧ t.pins = s.pins :=
  ⟨_, rfl, List.foldlRecOn l (motive := fun t : State => t.boot = s.boot ∧ t.now = s.now ∧ t.regs = s.regs ∧ t.pins = s.pins) _
    ⟨rfl, rfl, rfl, rfl⟩ fun _ same _ _ => same⟩

/-- The device at edge V (R424, R427). -/
def State.opened : State :=
  State.setReg { s with boot := { s.boot with stage := .ready, octTaken := 0 },
                        hinge := { s.hinge with firstRel := if s.hinge.reli then some (s.now, s.stamp) else none } } 0 0x013
    (BitVec.ofNat 32 (min (s.now / 1600) (2 ^ 32 - 1)))

/-- Edge V changes one register. -/
theorem State.opened_regsSameBut : s.regsSameBut s.opened [(0, 0x013)] := by
  intro i w hw other
  refine State.reg_setReg_other _ 0 0x013 i w _ fun e => other ?_
  obtain ⟨rfl, rfl⟩ : i = 0 ∧ w = 0x013 := by omega
  exact List.mem_singleton_self _

theorem State.opened_boot : s.opened.boot = { s.boot with stage := .ready, octTaken := 0 } := State.setReg_boot ..

theorem State.opened_now : s.opened.now = s.now := State.setReg_now ..

theorem State.opened_pins : s.opened.pins = s.pins := State.setReg_pins ..

theorem State.opened_bootTime : s.opened.reg 0 0x013 = BitVec.ofNat 32 (min (s.now / 1600) (2 ^ 32 - 1)) :=
  State.reg_setReg_self ..

/-- VERNISSAGE (R424, R425, R427). -/
theorem exec_vernissage {v : Nat} (run : s.running = true) (at_ : s.boot.vAt = some v) (stage : s.boot.stage = .vern) :
    ∃ t, exec .vernissage s = .next t ∧ t.boot.stage = .ready ∧ t.boot.octTaken = 0 ∧ t.now = max s.now v ∧
      t.reg 0 0x013 = BitVec.ofNat 32 (min (t.now / 1600) (2 ^ 32 - 1)) ∧ s.regsSameBut t [(0, 0x013)] ∧ t.pins = s.pins := by
  have done : exec .vernissage s = .next ((List.range 8).foldl State.octActive (s.advance v).opened) := by
    show execVernissage s = _
    simp only [execVernissage, at_, run, stage, bne_self_eq_false, Bool.not_true, Bool.or_self, Bool.false_eq_true, if_false]
    rfl
  obtain ⟨t, active, boot, now, regs, pins⟩ := (s.advance v).opened.foldl_octActive (List.range 8)
  rw [active] at done
  rw [State.opened_now] at now
  rw [State.opened_boot] at boot
  refine ⟨t, done, by rw [boot], by rw [boot], now.trans (s.advance_now v), ?_, fun i w hw other => ?_, ?_⟩
  · rw [State.reg_congr _ t regs, State.opened_bootTime, now]
  · rw [State.reg_congr _ t regs, (s.advance v).opened_regsSameBut i w hw other, State.reg_congr s _ (s.advance_regs v)]
  · rw [pins, State.opened_pins, s.advance_pins]

/-- OCTANT_TAKE_PINS (R425). -/
theorem exec_octantTakePins (o : Fin 8) {v : Nat} (run : s.running = true) (at_ : s.boot.vAt = some v)
    (stage : s.boot.stage = .ready) (next : s.boot.octTaken = o.val) :
    ∃ t, exec (.octantTakePins o) s = .next t ∧ t.boot = { s.boot with octTaken := o.val + 1 } ∧
      t.now = max s.now (v + 192 + 64 * o.val) := by
  refine ⟨_, (by
    show execOctantTakePins o s = _
    simp only [execOctantTakePins, at_, run, stage, next, bne_self_eq_false, Bool.not_true, Bool.or_self, Bool.false_eq_true,
      if_false]
    rfl), ?_⟩
  have now := s.advance_now (v + 192 + 64 * o.val)
  have boot := s.advance_boot (v + 192 + 64 * o.val)
  generalize s.advance (v + 192 + 64 * o.val) = u at now boot ⊢
  have resolved (l : List Nat) : LeavesHeld { u with boot := { u.boot with octTaken := o.val + 1 } }
      (l.foldl State.resolve { u with boot := { u.boot with octTaken := o.val + 1 } }) :=
    (LeavesHeld.refl _).foldl (fun _ st k => k.resolve st) l
  exact ⟨(resolved _).boot.trans (boot ▸ rfl), (resolved _).now.trans now⟩

/-- What of an entry stands from its formation on (R447). -/
def AlEntry.heading (e : AlEntry) : Nat × Nat × Nat × Stamp := (e.index, e.kind, e.nrec, e.stamp)

/-- Completing entries leaves their headings alone. -/
theorem alResolve_heading (l : List AlEntry) (h : List Byte) :
    (alResolve h l).2.map AlEntry.heading = l.map AlEntry.heading := by
  induction l generalizing h with
  | nil => rfl
  | cons e t ih =>
    unfold alResolve
    split
    · exact congrArg (e.heading :: ·) (ih h)
    · dsimp only
      split
      · rfl
      · exact congrArg (e.heading :: ·) (ih _)

/-- An entry at the end of a queue is there when those that can be completed are. -/
theorem alResolve_concat (l : List AlEntry) (e : AlEntry) (h : List Byte) :
    (alResolve h (l ++ [e])).2.length = l.length + 1 ∧ ∃ x ∈ (alResolve h (l ++ [e])).2, x.heading = e.heading := by
  have same := alResolve_heading (l ++ [e]) h
  refine ⟨?_, List.mem_map.mp ?_⟩
  · simpa using congrArg List.length same
  · rw [same]
    exact List.mem_map_of_mem (List.mem_append_right l (List.mem_singleton_self e))

/-- The entry that `formEntry` appends. -/
def State.newEntry (kind nrec port : Nat) (body : List Byte) : AlEntry :=
  { index := s.almanac.index, stamp := s.stamp, kind := kind, nrec := nrec, port := port, since := s.now,
    bytes := alBytes s.almanac.index s.stamp kind nrec (s.rd Reg.TB_STAT_EPOCH_VALID + (if s.noKey then 2 else 0)) [] body }

/-- An entry that is formed stands in the queue under the next index (R447, R452). -/
theorem State.formEntry_forms (kind nrec port : Nat) (body : List Byte) (own : s.alSuspended = false)
    (forms : s.almanac.halt = false) (room : s.almanac.queue.length < alQueueSize) :
    (s.formEntry kind nrec port body).almanac.index = s.almanac.index + 1 ∧
      (s.formEntry kind nrec port body).almanac.queue.length = s.almanac.queue.length + 1 ∧
      ∃ e ∈ (s.formEntry kind nrec port body).almanac.queue, e.index = s.almanac.index ∧ e.kind = kind ∧ e.nrec = nrec ∧
        e.stamp = s.stamp := by
  have free : s.almanac.full = false := by simp [Almanac.full, forms, room]
  unfold State.formEntry
  dsimp only
  rw [if_neg (by simp [own]), if_neg (by simp [free])]
  exact ⟨rfl, (alResolve_concat s.almanac.queue _ s.almanac.hash).1,
    (alResolve_concat s.almanac.queue (s.newEntry kind nrec port body) s.almanac.hash).2.imp fun e ⟨mem, heading⟩ =>
      ⟨mem, by simpa [AlEntry.heading, State.newEntry] using heading⟩⟩

/-- STATE_DIGEST_DONE (R449). -/
theorem exec_stateDigestDone (run : s.running = true) {source : Nat} {regs : Sparse Word}
    (due : s.boot.digest = some (source, regs)) :
    exec .stateDigestDone s = .next (if s.engagedShadow && source == 3 then
      { s with boot := { s.boot with digest := none }, hinge := { s.hinge with ownDigest := some (sha256 (s.digestBytes regs)) } }
      else State.configEntry { s with boot := { s.boot with digest := none } } source (sha256 (s.digestBytes regs)) 0) := by
  show execStateDigestDone s = _
  simp only [execStateDigestDone, due, run, Bool.not_true, Bool.false_eq_true, if_false]
  rfl

/-- Settles O55: edge V, the pins of the octants and the state digest, each by its rule. -/
theorem vernissageOpensTheOctants : Obligations.VernissageOpensTheOctants := by
  unfold Obligations.VernissageOpensTheOctants
  refine fun s run => ⟨fun v => exec_vernissage s run, fun v o => exec_octantTakePins s o run, fun source regs due =>
    ⟨_, exec_stateDigestDone s run due, ?_⟩⟩
  by_cases keeps : (s.engagedShadow && source == 3) = true
  · rw [if_pos keeps]
    refine ⟨rfl, rfl, fun _ _ => ⟨rfl, rfl⟩, fun alone => ?_⟩
    simp [alone] at keeps
  · rw [if_neg keeps]
    refine ⟨State.formEntry_boot .., State.formEntry_now .., fun shadow three => absurd ?_ keeps, fun _ own forms room =>
      State.formEntry_forms _ 4 3 0 _ own forms room⟩
    simp [shadow, three]

end Sys2Proof.Machine
end

section
namespace Sys2Proof.Machine

/-! ### Boundaries, re-acquisition and the head of a queue (R70, R71, R90, R135, R136) -/

/-- New settings let a receive side start afresh, or leave its state (R70, R71). -/
theorem Port.switchSet_heldAs (x : Port) (new : Settings) (afresh : Bool) (n : Nat) (stamp : Stamp) :
    x.heldAs (x.switchSet new afresh n stamp) := by
  unfold Port.switchSet
  dsimp only
  split
  · exact fun held => absurd held (Port.restart_rx _ n)
  · split
    · exact fun held => absurd held (Port.restartKept_rx _ n)
    · exact Port.heldAs_of_same rfl rfl

namespace LeavesHeld

variable {r s t : State} (h : LeavesHeld r s)
include h

theorem rxProfile (p : Nat) (stamp : Stamp) : LeavesHeld r (s.rxProfile p stamp) := h.portEntry ..

theorem flowChanged (p : Nat) (new old : Settings) : LeavesHeld r (s.flowChanged p new old) :=
  ite h ((h.resolve _).compareFlow p)

/-- New settings of a port that does not stand HELD. -/
theorem applySettings (p : Nat) (afresh : Bool) (awake : s.pinRuns (rxPin p) = true → (s.port p).rx ≠ .held) :
    LeavesHeld r (s.applySettings p afresh) := by
  unfold State.applySettings
  extract_lets new old switched told
  have sets : LeavesHeld r switched := h.setPort_of_runs p _ fun runs => by
    rw [Port.inside, if_neg (awake runs)]
    exact Port.switchSet_heldAs { s.port p with sel := _ } new afresh s.now s.stamp
  clear_value switched
  have tells : LeavesHeld r told := ite (sets.emit _) sets
  exact (tells.rxProfile ..).flowChanged ..

theorem reacq (p : Nat) : LeavesHeld r (s.reacq p) := by
  unfold State.reacq
  extract_lets x gone
  split
  · exact h
  · exact h
  · exact h.modPort p _
  · rename_i awake
    have left : LeavesHeld s gone := (refl s).abandon p
    have abandoned : LeavesHeld r gone := h.abandon p
    refine ite h (ite (abandoned.applySettings p true fun runs held => awake ?_)
      (abandoned.modPort_of_ne p _ (Port.restartKept_rx _ _)))
    rw [State.pinRuns_congr left.octs] at runs
    exact (left.held p runs held).1

theorem lateHead (p : Nat) (d : Desc) : LeavesHeld r (s.lateHead p d) := by
  unfold State.lateHead
  exact (h.modPort p _).txDone ..

theorem headReached (p fuel : Nat) : LeavesHeld r (s.headReached p fuel) := by
  induction fuel generalizing s with
  | zero => exact h
  | succ fuel ih =>
    unfold State.headReached
    extract_lets x
    refine ite h ?_
    split
    · exact h
    · refine ite h ?_
      split
      · exact ite (h.modPort p _) (ih (h.lateHead ..))
      · exact ih (h.lateHead ..)

theorem checkHead (p : Nat) : LeavesHeld r (s.checkHead p) := h.headReached ..

/-! #### What an octant does before its ports leave HELD (R273, R338, R341, R435) -/

theorem applyPinCfg (q : Nat) (v : Word) : LeavesHeld r (s.applyPinCfg q v) := by
  unfold State.applyPinCfg
  extract_lets before set x
  have stored : LeavesHeld r set := h.modPin q _
  clear_value set
  split
  · exact ite stored (stored.emit _)
  · exact stored

theorem cuStartSource (i : Nat) : LeavesHeld r (s.cuStartSource i) := by
  unfold State.cuStartSource State.cuKeepRef
  exact (h.modCu i _).modCu i _

theorem loadCodes (g : Nat) : LeavesHeld r (s.loadCodes g) := h.of_same rfl rfl rfl rfl

theorem restoreLevels (o : Nat) : LeavesHeld r (s.restoreLevels o) :=
  h.foldl (fun _ _ k => ite k ((k.of_same rfl rfl rfl rfl : LeavesHeld r (State.modGroup _ _ _)).loadCodes _)) _

theorem replayInput (st left : Nat) : LeavesHeld r (s.replayInput st left) :=
  h.foldl (fun _ _ k => ite (k.stationInput ..) k) _

theorem replayInputs (o left : Nat) : LeavesHeld r (s.replayInputs o left) := h.foldl (fun _ _ k => k.replayInput ..) _

end LeavesHeld

end Sys2Proof.Machine
end

section
namespace Sys2Proof.Machine

/-! ### Ports leave HELD when their octant reaches RUN (R90, R93) -/

/-- The ports of `l` have left HELD, but for what stood HELD in front of HELD; `LeavesHeld` for all others. -/
structure Releases (l : List Nat) (r s : State) : Prop where
  now : s.now = r.now
  octs : s.octs = r.octs
  held : ∀ p, r.pinRuns (rxPin p) = true → (s.port p).rx = .held → (r.port p).rx = .held ∧
    (p ∈ l → (r.port p).rxHeld = .held) ∧ (p ∉ l → (s.port p).rxHeld = (r.port p).rxHeld)

theorem LeavesHeld.releases {r s : State} (h : LeavesHeld r s) : Releases [] r s :=
  ⟨h.now, h.octs, fun p runs held => ⟨(h.held p runs held).1, nofun, fun _ => (h.held p runs held).2⟩⟩

theorem Releases.append {l m : List Nat} {r s t : State} (h : Releases l r s) (k : Releases m s t) : Releases (l ++ m) r t := by
  refine ⟨k.now.trans h.now, k.octs.trans h.octs, fun p runs held => ?_⟩
  obtain ⟨here, released, same⟩ := k.held p ((State.pinRuns_congr h.octs _).trans runs) held
  obtain ⟨there, released', same'⟩ := h.held p runs here
  refine ⟨there, fun mem => ?_, fun other => ?_⟩
  · by_cases first : p ∈ l
    · exact released' first
    · exact (same' first).symm.trans (released ((List.mem_append.mp mem).resolve_left first))
  · rw [List.mem_append, not_or] at other
    exact (same other.2).trans (same' other.1)

variable (s : State) (p : Nat)

/-- A port in HELD returns to the state it stood in (R93). -/
def State.thawed : State :=
  s.setPort p { s.port p with rx := (s.port p).rxHeld, rxHeld := .off, reacqHeld := false,
                              replay := decide (0 < (s.pin (rxPin p)).fresh) }

theorem State.thawed_releases (held : (s.port p).rx = .held) : Releases [p] s (s.thawed p) := by
  refine ⟨rfl, rfl, fun k _ now => ?_⟩
  unfold State.thawed at now ⊢
  obtain rfl | other := eq_or_ne k p
  · rw [State.port_setPort_self] at now
    exact ⟨held, fun _ => now, fun out => absurd (List.mem_singleton_self k) out⟩
  · rw [State.port_setPort_other _ _ _ _ other] at now ⊢
    exact ⟨now, fun mem => absurd (List.mem_singleton.mp mem) other, fun _ => rfl⟩

/-- What follows a port's return: a REACQ that was held, and its transmitter's head (R90, R135). -/
def State.afterThaw (reacqs : Bool) (tx : TxState) : State :=
  let s := if reacqs then s.reacq p else s
  if tx = .held then (s.modPort p (fun x => { x with tx := .idle })).checkHead p else s

theorem LeavesHeld.afterThaw (reacqs : Bool) (tx : TxState) : LeavesHeld s (s.afterThaw p reacqs tx) := by
  unfold State.afterThaw
  have acted : LeavesHeld s (if reacqs = true then s.reacq p else s) := ite ((refl s).reacq p) (refl s)
  exact ite ((acted.modPort p _).checkHead p) acted

theorem State.releasePort_of_held (held : (s.port p).rx = .held) :
    s.releasePort p = (s.thawed p).afterThaw p (s.port p).reacqHeld (s.port p).tx := by
  unfold State.releasePort State.afterThaw State.thawed
  simp only [if_pos held]

theorem State.releasePort_of_awake (awake : (s.port p).rx ≠ .held) :
    s.releasePort p = s.afterThaw p false (s.port p).tx := by
  unfold State.releasePort State.afterThaw
  simp only [if_neg awake, Bool.false_eq_true, if_false]

theorem State.releasePort_releases : Releases [p] s (s.releasePort p) := by
  by_cases held : (s.port p).rx = .held
  · rw [s.releasePort_of_held p held]
    exact (s.thawed_releases p held).append (LeavesHeld.afterThaw ..).releases
  · rw [s.releasePort_of_awake p held]
    have left := LeavesHeld.afterThaw s p false (s.port p).tx
    refine ⟨left.now, left.octs, fun k runs now => ?_⟩
    obtain ⟨here, same⟩ := left.held k runs now
    exact ⟨here, fun mem => absurd (List.mem_singleton.mp mem ▸ here) held, fun _ => same⟩

theorem State.foldl_releasePort (l : List Nat) : Releases l s (l.foldl State.releasePort s) := by
  induction l generalizing s with
  | nil => exact (LeavesHeld.refl s).releases
  | cons p l ih => exact (s.releasePort_releases p).append (ih _)

/-! ### An octant reaches RUN (R341, R435, R436) -/

/-- The octant itself at W. -/
def Octant.woken (x : Octant) (now : Nat) : Octant := { x with state := .run, wakeAt := none, since := now, activeAt := now }

/-- A port of an octant that has reached RUN has left HELD, unless HELD is what it stood in. -/
theorem State.octRuns_releases (o : Nat) (alive : (s.oct o).failed = false) :
    (s.octRuns o).now = s.now ∧ (s.octRuns o).oct o = (s.oct o).woken s.now ∧
      ∀ p, octOfPort p = o → ((s.octRuns o).port p).rx = .held → (s.port p).rx = .held ∧ (s.port p).rxHeld = .held := by
  unfold State.octRuns
  extract_lets left woken switched unheld set started restored
  have octant : woken.oct o = (s.oct o).woken s.now := s.oct_setOct_self o _
  have unholds : LeavesHeld woken unheld := (LeavesHeld.refl woken).of_same rfl rfl rfl rfl
  have sets : LeavesHeld woken set := unholds.foldl (fun t q k => by
    split
    · exact k.applyPinCfg ..
    · exact k) _
  have starts : LeavesHeld woken started := sets.foldl (fun _ _ k => .ite (k.cuStartSource _) k) _
  have restores : LeavesHeld woken restored := (starts.restoreLevels o).replayInputs o left
  clear_value restored
  have released := restored.foldl_releasePort ((restored.ports.map (·.1)).filter fun p => octOfPort p == o)
  refine ⟨released.now.trans restores.now, ?_, fun p mine held => ?_⟩
  · rw [State.oct, released.octs, restores.octs, ← State.oct, octant]
  · have runs : woken.pinRuns (rxPin p) = true := by
      have same : octOfPin (rxPin p) = o := by
        rw [← mine, octOfPin, rxPin, octOfPort]
        omega
      rw [State.pinRuns, same, octant]
      simp [Octant.woken, alive]
    obtain ⟨here, was, -⟩ := released.held p ((State.pinRuns_congr restores.octs _).trans runs) held
    have listed : p ∈ (restored.ports.map (·.1)).filter fun p => octOfPort p == o := by
      refine List.mem_filter.mpr ⟨List.mem_map.mpr ⟨_, Sparse.mem_of_get (fun _ => {}) restored.ports p fun none => ?_, rfl⟩,
        beq_iff_eq.mpr mine⟩
      rw [State.port, none] at here
      cases here
    obtain ⟨there, same⟩ := restores.held p runs here
    exact ⟨there, same.symm.trans (was listed)⟩

end Sys2Proof.Machine
end

section
namespace Sys2Proof.Machine

/-! ### Octants enter IDLE, NAP and DARK (R431, R435 to R437) -/

/-- What a map by key does to each value of a sparse list it does to what is read there, when it keeps the default. -/
theorem Sparse.get_mapAt {α : Type} (d : Nat → α) (f : Nat → α → α) (m : Sparse α) (k : Nat) (h : f k (d k) = d k) :
    Sparse.get d (m.map fun x => (x.1, f x.1 x.2)) k = f k (Sparse.get d m k) := by
  induction m with
  | nil => exact h.symm
  | cons x m ih =>
    rw [List.map_cons, Sparse.get, Sparse.get, ih]
    split
    case isTrue e =>
      subst e
      rfl
    case isFalse e => rfl

variable (s : State) (o : Nat)

theorem State.advance_octs (n : Nat) : (s.advance n).octs = s.octs := by
  obtain ⟨x, e⟩ := s.advance_eq n
  rw [e]

theorem State.oct_advance (n : Nat) : (s.advance n).oct o = s.oct o := by rw [State.oct, State.oct, s.advance_octs]

/-- A port in HELD, from the state it stood in; a transmitter at rest is held too. -/
def Port.frozen (x : Port) : Port :=
  let y := if x.rx = .off ∨ x.rx = .held then x
    else { x with rxHeld := x.rx, rx := .held, replay := false, replayEnd := none }
  if y.tx = .idle then { y with tx := .held } else y

theorem Port.frozen_rx (x : Port) : x.frozen.rx = .off ∨ x.frozen.rx = .held := by
  unfold Port.frozen
  extract_lets y
  have stands : y.rx = .off ∨ y.rx = .held := by
    unfold y
    split
    · assumption
    · exact .inr rfl
  split <;> exact stands

/-- Ports of an octant that leaves RUN are OFF or HELD (R93). -/
theorem State.port_holdPorts (p : Nat) (mine : octOfPort p = o) :
    ((s.holdPorts o).port p).rx = .off ∨ ((s.holdPorts o).port p).rx = .held := by
  have frozen : (s.holdPorts o).ports = s.ports.map fun x => (x.1, if octOfPort x.1 = o then x.2.frozen else x.2) :=
    List.map_congr_left fun _ _ => (apply_ite (Prod.mk _) _ _ _).symm
  have port : (s.holdPorts o).port p = (s.port p).frozen := by
    rw [State.port, frozen, Sparse.get_mapAt _ (fun p (x : Port) => if octOfPort p = o then x.frozen else x) _ _ ?_, if_pos mine]
    · rfl
    · rw [if_pos mine]
      rfl
  rw [port]
  exact Port.frozen_rx _

/-- A pad that is held does not drive (R335). -/
theorem State.held_pad (q : Nat) (x : Pin) : (s.held q x).pad ≠ .drive := by
  unfold State.held
  dsimp only
  split
  · assumption
  · split <;> exact Pad.noConfusion

/-- Nor does any pad of an octant whose hold is engaged. -/
theorem State.pin_holdOct (q : Nat) (mine : octOfPin q = o) : ((s.holdOct o).pin q).pad ≠ .drive := by
  have holds : (s.holdOct o).pins = s.pins.map fun x => (x.1, if octOfPin x.1 = o then s.held x.1 x.2 else x.2) :=
    List.map_congr_left fun _ _ => (apply_ite (Prod.mk _) _ _ _).symm
  have pin : (s.holdOct o).pin q = s.held q (s.pin q) := by
    rw [State.pin, holds, Sparse.get_mapAt _ (fun q (x : Pin) => if octOfPin q = o then s.held q x else x) _ _ ?_, if_pos mine]
    · rfl
    · rw [if_pos mine]
      rfl
  rw [pin]
  exact s.held_pad q (s.pin q)

theorem State.cuSafe_leaves (i : Nat) : (s.cuSafe i).now = s.now ∧ (s.cuSafe i).octs = s.octs ∧ (s.cuSafe i).ports = s.ports := by
  simp only [State.cuSafe, State.cuSafeRegs, State.modCu_eq, State.setCu_now, State.setCu_octs, State.setCu_ports, State.wr_now,
    State.wr_octs, State.wr_ports, and_self]

/-- Contact units in their safe state leave time, octants and ports alone (R387). -/
theorem State.safeUnits_leaves : (s.safeUnits o).now = s.now ∧ (s.safeUnits o).octs = s.octs ∧ (s.safeUnits o).ports = s.ports := by
  obtain ⟨now, octs, ports⟩ := s.cuSafe_leaves (2 * o)
  obtain ⟨now', octs', ports'⟩ := (s.cuSafe (2 * o)).cuSafe_leaves (2 * o + 1)
  exact ⟨now'.trans now, octs'.trans octs, ports'.trans ports⟩

/-- Levels in their safe state leave all but the groups alone (R28). -/
theorem State.safeLevels_leaves :
    (s.safeLevels o).now = s.now ∧ (s.safeLevels o).octs = s.octs ∧ (s.safeLevels o).regs = s.regs :=
  List.foldlRecOn (motive := fun t : State => t.now = s.now ∧ t.octs = s.octs ∧ t.regs = s.regs) _ _ ⟨rfl, rfl, rfl⟩
    fun _ same _ _ => same

/-- What stands while time passes. -/
theorem State.advance_leaves (n : Nat) : ∃ u, s.advance n = u ∧ u.now = max s.now n ∧ u.octs = s.octs ∧ u.regs = s.regs ∧
    u.pins = s.pins ∧ u.ports = s.ports :=
  ⟨_, rfl, s.advance_now n, s.advance_octs n, s.advance_regs n, s.advance_pins n, s.advance_ports n⟩

/-- What stands while an octant changes. -/
theorem State.modOct_leaves {s u : State} (octs : u.octs = s.octs) (f : Octant → Octant) : ∃ v, u.modOct o f = v ∧
    v.now = u.now ∧ v.oct o = f (s.oct o) ∧ v.regs = u.regs ∧ v.pins = u.pins := by
  refine ⟨_, rfl, rfl, ?_, rfl, rfl⟩
  rw [State.modOct_eq, State.oct_setOct_self, State.oct, octs, ← State.oct]

/-! ### The commands of an octant -/

variable (i : Fin 8)

/-- OCTANT_IDLE_ENTER (R431, R434). -/
theorem exec_octantIdleEnter (run : (s.oct i.val).state = .run) (may : s.octMay i.val 1 = true) :
    ∃ t, exec (.octantIdleEnter i) s = .next t ∧
      t.now = max s.now ((s.oct i.val).activeAt + 64 * s.rd (Reg.PW_OCTCFG_IDLET.at i.val)) ∧
      t.oct i.val = { s.oct i.val with state := .idle, since := t.now, leftAt := t.now } ∧
      (∀ p, octOfPort p = i.val → (t.port p).rx = .off ∨ (t.port p).rx = .held) := by
  obtain ⟨u, e, now, octs, -⟩ := s.advance_leaves ((s.oct i.val).activeAt + 64 * s.rd (Reg.PW_OCTCFG_IDLET.at i.val))
  obtain ⟨v, sleeps, v_now, oct, -⟩ := State.modOct_leaves i.val octs fun x =>
    { x with state := .idle, since := u.now, leftAt := u.now }
  have done : exec (.octantIdleEnter i) s = .next ((v.holdPorts i.val).safeUnits i.val) := by
    show execOctantIdleEnter i s = _
    simp only [execOctantIdleEnter, run, may, e, sleeps, decide_true, Bool.and_self, if_true]
  obtain ⟨t_now, t_octs, t_ports⟩ := (v.holdPorts i.val).safeUnits_leaves i.val
  have t_now : ((v.holdPorts i.val).safeUnits i.val).now = u.now := t_now.trans v_now
  refine ⟨_, done, t_now.trans now, ?_, fun p mine => ?_⟩
  · rw [State.oct, t_octs, t_now]
    exact oct
  · rw [State.port, t_ports]
    exact v.port_holdPorts i.val p mine

/-- OCTANT_NAP_ENTER (R431, R435). -/
theorem exec_octantNapEnter (idle : (s.oct i.val).state = .idle) (may : s.octMay i.val 2 = true) :
    ∃ t, exec (.octantNapEnter i) s = .next t ∧
      t.now = max s.now (max (s.oct i.val).since (s.oct i.val).activeAt + 1600 * s.rd (Reg.PW_OCTCFG_NAPT.at i.val)) ∧
      t.oct i.val = { s.oct i.val with entering := some .nap, since := t.now } ∧ t.regs = s.regs ∧
      (∀ q, octOfPin q = i.val → (t.pin q).pad ≠ .drive) := by
  obtain ⟨u, e, now, octs, regs, -⟩ := s.advance_leaves (max (s.oct i.val).since (s.oct i.val).activeAt +
    1600 * s.rd (Reg.PW_OCTCFG_NAPT.at i.val))
  obtain ⟨v, enters, v_now, oct, v_regs, -⟩ := State.modOct_leaves i.val octs fun x =>
    { x with entering := some .nap, since := u.now }
  have done : exec (.octantNapEnter i) s = .next (v.holdOct i.val) := by
    show execOctantNapEnter i s = _
    simp only [execOctantNapEnter, idle, may, e, enters, decide_true, Bool.and_self, if_true]
  have t_now : (v.holdOct i.val).now = u.now := v_now
  exact ⟨_, done, t_now.trans now, t_now ▸ oct, v_regs.trans regs, fun q mine => v.pin_holdOct i.val q mine⟩

/-- OCTANT_DARK_ENTER (R431, R435). -/
theorem exec_octantDarkEnter (nap : (s.oct i.val).state = .nap) (may : s.octMay i.val 3 = true) :
    ∃ t, exec (.octantDarkEnter i) s = .next t ∧
      t.now = max s.now (max (s.oct i.val).since (s.oct i.val).activeAt + 160000 * s.rd (Reg.PW_OCTCFG_DARKT.at i.val)) ∧
      t.oct i.val = { s.oct i.val with entering := some .dark, since := t.now } ∧ t.regs = s.regs ∧ t.pins = s.pins := by
  obtain ⟨u, e, now, octs, regs, pins, -⟩ := s.advance_leaves (max (s.oct i.val).since (s.oct i.val).activeAt +
    160000 * s.rd (Reg.PW_OCTCFG_DARKT.at i.val))
  obtain ⟨v, enters, v_now, oct, v_regs, v_pins⟩ := State.modOct_leaves i.val octs fun x =>
    { x with entering := some .dark, since := u.now }
  have done : exec (.octantDarkEnter i) s = .next v := by
    show execOctantDarkEnter i s = _
    simp only [execOctantDarkEnter, nap, may, e, enters, decide_true, Bool.and_self, if_true]
  exact ⟨v, done, v_now.trans now, v_now ▸ oct, v_regs.trans regs, v_pins.trans pins⟩

/-- OCTANT_ENTRY_DONE (R437). -/
theorem exec_octantEntryDone {into : DomState} (run : s.running = true) (entering : (s.oct i.val).entering = some into) :
    ∃ t, exec (.octantEntryDone i) s = .next t ∧ t.now = max s.now ((s.oct i.val).since + 3200) ∧
      t.oct i.val = { s.oct i.val with state := into, entering := none, since := t.now } ∧ t.regs = s.regs := by
  obtain ⟨u, e, now, octs, regs, -⟩ := s.advance_leaves ((s.oct i.val).since + 3200)
  obtain ⟨v, enters, v_now, v_oct, v_regs, -⟩ := State.modOct_leaves i.val octs fun x =>
    { x with state := into, entering := none, since := u.now }
  have done : exec (.octantEntryDone i) s = .next (if into = .dark then v.safeLevels i.val else v) := by
    show execOctantEntryDone i s = _
    simp only [execOctantEntryDone, run, entering, e, enters, Bool.not_true, Bool.false_eq_true, if_false]
  refine ⟨_, done, ?_⟩
  split
  · obtain ⟨same, octs', regs'⟩ := v.safeLevels_leaves i.val
    refine ⟨same.trans (v_now.trans now), ?_, regs'.trans (v_regs.trans regs)⟩
    rw [State.oct, octs', same, v_now]
    exact v_oct
  · exact ⟨v_now.trans now, v_now ▸ v_oct, v_regs.trans regs⟩

/-- The registers of a wake: its cause, and its count (R436). -/
def State.noteWake (from_ : DomState) (cause : Nat) : State :=
  if cause = 0 then s else
  let s := s.wr (Reg.PW_OCTSTAT_LASTCAUSE.at o) cause
  if from_ = .nap ∨ from_ = .dark then s.incWrap (Reg.PW_OCTSTAT_WAKES.at o) else s

theorem State.noteWake_leaves (from_ : DomState) (cause : Nat) : (s.noteWake o from_ cause).now = s.now ∧
    (s.noteWake o from_ cause).octs = s.octs ∧ (s.noteWake o from_ cause).ports = s.ports := by
  unfold State.noteWake
  dsimp only
  split
  · exact ⟨rfl, rfl, rfl⟩
  · split <;> exact ⟨rfl, rfl, rfl⟩

/-- OCTANT_RUN (R431, R436, R437). -/
theorem exec_octantRun {w cause : Nat} (run : s.running = true) (wakes : (s.oct i.val).wakeAt = some (w, cause))
    (rests : (s.oct i.val).entering = none) (sleeps : (s.oct i.val).state ≠ .run) (alive : (s.oct i.val).failed = false) :
    ∃ t, exec (.octantRun i) s = .next t ∧
      t.now = max s.now (max w (s.oct i.val).since +
        (match (s.oct i.val).state with | .nap => 1600 | .dark => 44800 | _ => if w = (s.oct i.val).leftAt then 0 else 8)) ∧
      (t.oct i.val).state = .run ∧ (t.oct i.val).wakeAt = none ∧
      (∀ p, octOfPort p = i.val → (t.port p).rx ≠ .held ∨ ((s.port p).rx = .held ∧ (s.port p).rxHeld = .held)) := by
  obtain ⟨u, e, now, octs, -, -, ports⟩ := s.advance_leaves (max w (s.oct i.val).since +
    (match (s.oct i.val).state with | .nap => 1600 | .dark => 44800 | _ => if w = (s.oct i.val).leftAt then 0 else 8))
  obtain ⟨v_now, v_octs, v_ports⟩ := u.noteWake_leaves i.val (s.oct i.val).state cause
  have done : exec (.octantRun i) s = .next ((u.noteWake i.val (s.oct i.val).state cause).octRuns i.val) := by
    show execOctantRun i s = _
    rw [← e]
    simp only [execOctantRun, run, wakes, rests, sleeps, alive, Bool.not_true, Bool.false_eq_true, if_false, Option.isSome_none,
      decide_false, Bool.or_self]
    rfl
  generalize u.noteWake i.val (s.oct i.val).state cause = v at v_now v_octs v_ports done
  have oct : v.oct i.val = s.oct i.val := by rw [State.oct, State.oct, v_octs, octs]
  have port (p : Nat) : v.port p = s.port p := by rw [State.port, State.port, v_ports, ports]
  obtain ⟨t_now, t_oct, t_port⟩ := v.octRuns_releases i.val (oct ▸ alive)
  refine ⟨_, done, t_now.trans (v_now.trans now), t_oct ▸ rfl, t_oct ▸ rfl, fun p mine => ?_⟩
  rw [← port]
  exact or_iff_not_imp_left.mpr fun held => t_port p mine (not_not.mp held)

/-- Settles O56: each entry, its end and the return to RUN by its own lemma. -/
theorem octantsSleepAndWake : Obligations.OctantsSleepAndWake := by
  unfold Obligations.OctantsSleepAndWake
  exact fun s o => ⟨exec_octantIdleEnter s o, exec_octantNapEnter s o, exec_octantDarkEnter s o,
    fun _ => exec_octantEntryDone s o, fun _ _ => exec_octantRun s o⟩

end Sys2Proof.Machine
end
